-- ==== Sys2Proof/Word.lean ====
section
/-!
DEFINITION. The word types of the JV-4096 (R5, R126): a byte, a 32-bit instruction word, a 64-bit register word,
a 512-bit vector (R143). Everything that computes on them stands under Machine/.
-/
namespace Sys2Proof

/-- One byte of memory (R5). -/
abbrev Byte := BitVec 8
/-- An instruction word, an FP32 pattern, a 32-bit register (R278, R310). -/
abbrev W32 := BitVec 32
/-- An integer register or an address (R126). -/
abbrev Word := BitVec 64
/-- A 64-byte scratchpad vector or line, read as one little-endian value (R143). -/
abbrev Vec := BitVec 512

end Sys2Proof
end

