-- ==== Sys2Proof/Syntax.lean ====
section
/-!
DEFINITION. The steps of the JV-4096: one constructor per row of spec/opcode_table.json. The first 187 rows that carry
bits are the instructions of the six instruction-set chapters (R285 to R290); the 157 rows without bits are the events
of the part, each whole and indivisible (spec/95_what_each_step_holds.md). Register numbers and other fields of an
instruction are plain numbers whose ranges Sys2Proof/WellFormed.lean checks; an immediate is a bit vector of its width.
In an instruction: s is the stall count S, d the destination, a and b the sources rs1 and rs2, x an x register of an XV word.
-/
namespace Sys2Proof

/-- Packet delivery modes of R32. -/
inductive Delivery | rud | rod | rudi | uud
  deriving DecidableEq, Repr

/-- What comes back to an initiating endpoint (R41, R46, R53). -/
inductive AckKind | ack | nakAccess | nakRetry | trimmed | lost
  deriving DecidableEq, Repr

/-- One contribution of a collective step to one chunk (R50, R248, R252): its key is (cid, step, chunk, src). ranks is the
set of ranks it covers, one bit per rank, where a port switch formed it (R50). As packets carry it: the port it comes by, its sender's address, the endpoint
context, memory key and offset it names (R248), what the security sublayer carries (R37), the entropy base and spread of its chunk (R250), and whether a
port switch has relayed it (R48). -/
structure Contribution where
  part : Nat
  launch : Nat
  cid : Nat
  step : Nat
  chunk : Nat
  src : Nat
  expect : Nat
  op : Nat
  fmt : Nat
  combined : Bool := false
  ranks : Nat := 0
  flags : Nat := 0
  port : Nat := 0
  sender : BitVec 128 := 0
  ep : Nat := 0
  key : Word := 0
  off : Nat := 0
  sealed : Bool := false
  kid : W32 := 0
  icv : Nat := 0
  ev : Nat := 0
  width : Nat := 1
  relayed : Bool := false
  poisoned : Bool := false
  data : List Byte := []
  deriving DecidableEq, Repr

/-- A packet received from, or bound for, the Ethernet fabric (R39 to R45): the port, the endpoint context it names, its
delivery mode, its message, its place in the message and its payload. kid and icv stand for what the transport security
sublayer carries (R37), pdc and psn for its delivery context at the sender and its sequence there (R33, R43); relayed is whether a port switch has relayed
it (R48). An acknowledgement that a port switch relays carries its answer, and the contribution that it answers. -/
structure Packet where
  port : Nat
  src : BitVec 128 := 0
  ep : Nat
  mode : Delivery := .rud
  sealed : Bool := false
  kid : W32 := 0
  icv : Nat := 0
  msg : Nat
  idx : Nat := 0
  count : Nat := 1
  key : Word := 0
  off : Nat := 0
  total : Nat := 0
  tag : Word := 0
  aop : Nat := 0
  operand : Word := 0
  compare : Word := 0
  ev : Nat := 0
  pdc : Nat := 0
  psn : Nat := 0
  relayed : Bool := false
  answer : Option AckKind := none
  contrib : Option Contribution := none
  poisoned : Bool := false
  data : List Byte := []
  deriving DecidableEq, Repr

/-- Where an uncorrectable error strikes (R51, R264, R266): 64 bytes at their home, a tile's L1 copy or its partials of a line, the payload of a flit, of
an access or of a remote vector on the NoC, or the n-th of the contributions that the hub's entries hold. -/
inductive ErrorSite
  | line (n : Nat)
  | l1 (tile line : Nat)
  | partials (tile line : Nat)
  | flit (id : Nat)
  | access (id : Nat)
  | remote (id n : Nat)
  | hub (n : Nat)
  deriving DecidableEq, Repr

/-- A packet with a header error (R266): whether what is left of the header names a partition, and which packet it is. -/
structure BadHeader where
  named : Bool
  lost : ErrorSite
  deriving DecidableEq, Repr

/-- What SPDM's CHALLENGE holds beside its slot (R30): the type of the measurement summary, and the bytes after its first four, which are the requester's
nonce and context. -/
structure ChallengeRest where
  summary : Nat
  body : List Byte
  deriving DecidableEq, Repr

/-- SPDM's GET_MEASUREMENTS (R30, R31): its attributes, the index asked for, and the bytes after its first four. -/
structure MeasureRequest where
  attr : Nat
  index : Nat
  body : List Byte
  deriving DecidableEq, Repr

/-- The steps of the part: every row of spec/opcode_table.json, the instructions first (R285 to R290), then the events. -/
inductive Instr where
  /-- LUI (R296): Loads a 20-bit upper immediate into rd. -/
  | lui (d : Nat) (imm : BitVec 20)
  /-- AUIPC (R296): Adds an upper immediate to PC into rd. -/
  | auipc (d : Nat) (imm : BitVec 20)
  /-- JAL (R297): Jumps PC-relative and writes the return address. -/
  | jal (d : Nat) (imm : BitVec 21)
  /-- JALR (R297): Jumps through a register and writes the return address. -/
  | jalr (d a : Nat) (imm : BitVec 12)
  /-- BEQ (R298): Branches when two registers are equal. -/
  | beq (a b : Nat) (imm : BitVec 13)
  /-- BNE (R298): Branches when two registers differ. -/
  | bne (a b : Nat) (imm : BitVec 13)
  /-- BLT (R298): Branches when rs1 < rs2, signed. -/
  | blt (a b : Nat) (imm : BitVec 13)
  /-- BGE (R298): Branches when rs1 ≥ rs2, signed. -/
  | bge (a b : Nat) (imm : BitVec 13)
  /-- BLTU (R298): Branches when rs1 < rs2, unsigned. -/
  | bltu (a b : Nat) (imm : BitVec 13)
  /-- BGEU (R298): Branches when rs1 ≥ rs2, unsigned. -/
  | bgeu (a b : Nat) (imm : BitVec 13)
  /-- LB (R299): Loads a byte, sign-extended. -/
  | lb (d a : Nat) (imm : BitVec 12)
  /-- LH (R299): Loads a halfword, sign-extended. -/
  | lh (d a : Nat) (imm : BitVec 12)
  /-- LW (R299): Loads a word, sign-extended. -/
  | lw (d a : Nat) (imm : BitVec 12)
  /-- LD (R299): Loads a doubleword. -/
  | ld (d a : Nat) (imm : BitVec 12)
  /-- LBU (R299): Loads a byte, zero-extended. -/
  | lbu (d a : Nat) (imm : BitVec 12)
  /-- LHU (R299): Loads a halfword, zero-extended. -/
  | lhu (d a : Nat) (imm : BitVec 12)
  /-- LWU (R299): Loads a word, zero-extended. -/
  | lwu (d a : Nat) (imm : BitVec 12)
  /-- SB (R301): Stores a byte. -/
  | sb (a b : Nat) (imm : BitVec 12)
  /-- SH (R301): Stores a halfword. -/
  | sh (a b : Nat) (imm : BitVec 12)
  /-- SW (R301): Stores a word. -/
  | sw (a b : Nat) (imm : BitVec 12)
  /-- SD (R301): Stores a doubleword. -/
  | sd (a b : Nat) (imm : BitVec 12)
  /-- ADDI (R303): Adds a sign-extended immediate. -/
  | addi (d a : Nat) (imm : BitVec 12)
  /-- SLTI (R303): Sets rd to 1 if rs1 < immediate, signed. -/
  | slti (d a : Nat) (imm : BitVec 12)
  /-- SLTIU (R303): Sets rd to 1 if rs1 < immediate, unsigned. -/
  | sltiu (d a : Nat) (imm : BitVec 12)
  /-- XORI (R303): Exclusive-ors an immediate. -/
  | xori (d a : Nat) (imm : BitVec 12)
  /-- ORI (R303): Ors an immediate. -/
  | ori (d a : Nat) (imm : BitVec 12)
  /-- ANDI (R303): Ands an immediate. -/
  | andi (d a : Nat) (imm : BitVec 12)
  /-- SLLI (R304): Shifts left by an immediate. -/
  | slli (d a h : Nat)
  /-- SRLI (R304): Shifts right logically by an immediate. -/
  | srli (d a h : Nat)
  /-- SRAI (R304): Shifts right arithmetically by an immediate. -/
  | srai (d a h : Nat)
  /-- ADD (R305): Adds two registers. -/
  | add (d a b : Nat)
  /-- SUB (R305): Subtracts two registers. -/
  | sub (d a b : Nat)
  /-- SLL (R305): Shifts left by rs2[5:0]. -/
  | sll (d a b : Nat)
  /-- SLT (R305): Sets rd to 1 if rs1 < rs2, signed. -/
  | slt (d a b : Nat)
  /-- SLTU (R305): Sets rd to 1 if rs1 < rs2, unsigned. -/
  | sltu (d a b : Nat)
  /-- XOR (R305): Exclusive-ors two registers. -/
  | xor (d a b : Nat)
  /-- SRL (R305): Shifts right logically by rs2[5:0]. -/
  | srl (d a b : Nat)
  /-- SRA (R305): Shifts right arithmetically by rs2[5:0]. -/
  | sra (d a b : Nat)
  /-- OR (R305): Ors two registers. -/
  | or (d a b : Nat)
  /-- AND (R305): Ands two registers. -/
  | and (d a b : Nat)
  /-- ADDIW (R306): Adds an immediate in 32 bits and sign-extends. -/
  | addiw (d a : Nat) (imm : BitVec 12)
  /-- SLLIW (R306): Shifts a word left by an immediate and sign-extends. -/
  | slliw (d a h : Nat)
  /-- SRLIW (R306): Shifts a word right logically by an immediate and sign-extends. -/
  | srliw (d a h : Nat)
  /-- SRAIW (R306): Shifts a word right arithmetically by an immediate and sign-extends. -/
  | sraiw (d a h : Nat)
  /-- ADDW (R306): Adds in 32 bits and sign-extends. -/
  | addw (d a b : Nat)
  /-- SUBW (R306): Subtracts in 32 bits and sign-extends. -/
  | subw (d a b : Nat)
  /-- SLLW (R306): Shifts a word left by rs2[4:0]. -/
  | sllw (d a b : Nat)
  /-- SRLW (R306): Shifts a word right logically by rs2[4:0]. -/
  | srlw (d a b : Nat)
  /-- SRAW (R306): Shifts a word right arithmetically by rs2[4:0]. -/
  | sraw (d a b : Nat)
  /-- MUL (R307): Multiplies, low 64 bits. -/
  | mul (d a b : Nat)
  /-- MULH (R307): Multiplies signed by signed, high 64 bits. -/
  | mulh (d a b : Nat)
  /-- MULHSU (R307): Multiplies signed by unsigned, high 64 bits. -/
  | mulhsu (d a b : Nat)
  /-- MULHU (R307): Multiplies unsigned by unsigned, high 64 bits. -/
  | mulhu (d a b : Nat)
  /-- MULW (R307): Multiplies words and sign-extends the low 32 bits. -/
  | mulw (d a b : Nat)
  /-- DIV (R308): Signed 64-bit quotient, variable latency. -/
  | div (d a b : Nat)
  /-- DIVU (R308): Unsigned 64-bit quotient, variable latency. -/
  | divu (d a b : Nat)
  /-- REM (R308): Signed 64-bit remainder, variable latency. -/
  | rem (d a b : Nat)
  /-- REMU (R308): Unsigned 64-bit remainder, variable latency. -/
  | remu (d a b : Nat)
  /-- DIVW (R308): Signed 32-bit quotient, sign-extended. -/
  | divw (d a b : Nat)
  /-- DIVUW (R308): Unsigned 32-bit quotient, sign-extended. -/
  | divuw (d a b : Nat)
  /-- REMW (R308): Signed 32-bit remainder, sign-extended. -/
  | remw (d a b : Nat)
  /-- REMUW (R308): Unsigned 32-bit remainder, sign-extended. -/
  | remuw (d a b : Nat)
  /-- FADD (R312): FP32 add with one rounding. -/
  | fadd (s d a b : Nat)
  /-- FSUB (R312): FP32 subtract with one rounding. -/
  | fsub (s d a b : Nat)
  /-- FMUL (R312): FP32 multiply with one rounding. -/
  | fmul (s d a b : Nat)
  /-- FDIV (R312): FP32 divide, variable latency, correctly rounded. -/
  | fdiv (s d a b : Nat)
  /-- FMIN (R313): FP32 minimum. -/
  | fmin (s d a b : Nat)
  /-- FMAX (R313): FP32 maximum. -/
  | fmax (s d a b : Nat)
  /-- FEQ (R314): FP32 equality comparison. -/
  | feq (s d a b : Nat)
  /-- FLT (R314): FP32 less-than comparison. -/
  | flt (s d a b : Nat)
  /-- FLE (R314): FP32 less-or-equal comparison. -/
  | fle (s d a b : Nat)
  /-- FSGNJ (R315): Sign injection from rs2. -/
  | fsgnj (s d a b : Nat)
  /-- FSGNJN (R315): Negated sign injection from rs2. -/
  | fsgnjn (s d a b : Nat)
  /-- FSGNJX (R315): Xor sign injection. -/
  | fsgnjx (s d a b : Nat)
  /-- FMAC (R312): Fused FP32 multiply-add into rd. -/
  | fmac (s d a b : Nat)
  /-- FSQRT (R316): FP32 square root, variable latency. -/
  | fsqrt (s d a : Nat)
  /-- FCLASS (R317): Classifies an FP32 value. -/
  | fclass (s d a : Nat)
  /-- FCVTWS (R318): Converts FP32 to a 32-bit signed integer. -/
  | fcvtws (s d a : Nat)
  /-- FCVTSW (R318): Converts a 32-bit signed integer to FP32. -/
  | fcvtsw (s d a : Nat)
  /-- FCVTLS (R318): Converts FP32 to a 64-bit signed integer. -/
  | fcvtls (s d a : Nat)
  /-- FCVTSL (R318): Converts a 64-bit signed integer to FP32. -/
  | fcvtsl (s d a : Nat)
  /-- FEXP2 (R316): Correctly rounded 2^x. -/
  | fexp2 (s d a : Nat)
  /-- FLOG2 (R316): Correctly rounded log2 x. -/
  | flog2 (s d a : Nat)
  /-- FRCP (R316): Correctly rounded reciprocal. -/
  | frcp (s d a : Nat)
  /-- FRSQ (R316): Correctly rounded reciprocal square root. -/
  | frsq (s d a : Nat)
  /-- FPACK (R319): Encodes an FP32 value into one element of a format. -/
  | fpack (s d a f : Nat)
  /-- FUNPK (R319): Decodes one element of a format into FP32. -/
  | funpk (s d a f : Nat)
  /-- BFMT (R320): Writes a bank format register. -/
  | bfmt (s n a : Nat)
  /-- PSET (R321): Writes a pointer register. -/
  | pset (s a p : Nat)
  /-- PGET (R321): Reads a pointer register. -/
  | pget (s d p : Nat)
  /-- SETVL (R322): Sets VL to min(n, 2048) and returns it. -/
  | setvl (s d a : Nat)
  /-- SBIND (R324): Binds a stream register from a binding block in memory. -/
  | sbind (s a p : Nat)
  /-- SUNBIND (R324): Unbinds a stream register, draining an output stream first. -/
  | sunbind (s p : Nat)
  /-- SDRAIN (R325): Waits until the named output streams are applied at their homes. -/
  | sdrain (s m : Nat)
  /-- VADD (R331): Element-wise add. -/
  | vadd (s d a b : Nat)
  /-- VSUB (R331): Element-wise subtract. -/
  | vsub (s d a b : Nat)
  /-- VMUL (R331): Element-wise multiply. -/
  | vmul (s d a b : Nat)
  /-- VFMA (R331): Element-wise fused multiply-add into D. -/
  | vfma (s d a b : Nat)
  /-- VMAX (R331): Element-wise maximum. -/
  | vmax (s d a b : Nat)
  /-- VMIN (R331): Element-wise minimum. -/
  | vmin (s d a b : Nat)
  /-- VAMAX (R331): Element-wise maximum of magnitudes. -/
  | vamax (s d a b : Nat)
  /-- VABS (R332): Element-wise absolute value. -/
  | vabs (s d a : Nat)
  /-- VNEG (R332): Element-wise negation. -/
  | vneg (s d a : Nat)
  /-- VEXP2 (R332): Element-wise 2^a. -/
  | vexp2 (s d a : Nat)
  /-- VRCP (R332): Element-wise reciprocal. -/
  | vrcp (s d a : Nat)
  /-- VRSQ (R332): Element-wise reciprocal square root. -/
  | vrsq (s d a : Nat)
  /-- VSCL (R333): Multiplies A by a scalar. -/
  | vscl (s d x a : Nat)
  /-- VADDS (R333): Adds a scalar to A. -/
  | vadds (s d x a : Nat)
  /-- VMAXS (R333): Takes the greater of A and a scalar. -/
  | vmaxs (s d x a : Nat)
  /-- VCPY (R332): Copies A into D, converting formats. -/
  | vcpy (s d a : Nat)
  /-- VSET (R334): Fills D with one value. -/
  | vset (s d x : Nat)
  /-- VSEL (R335): Selects A where a test against zero holds, else B. -/
  | vsel (s d a b c : Nat)
  /-- VREDS (R336): Sums the elements of A into an x register. -/
  | vreds (s x a : Nat)
  /-- VREDM (R336): Takes the maximum, optionally of magnitudes, of A into an x register. -/
  | vredm (s x a m : Nat)
  /-- MMA (R339): Multiplies A by transposed B and adds into an accumulator. -/
  | mma (s n a b : Nat)
  /-- MZERO (R340): Zeroes an accumulator. -/
  | mzero (s n : Nat)
  /-- MLOAD (R341): Fills an accumulator from 256 elements of A. -/
  | mload (s n a : Nat)
  /-- MDRAIN (R342): Writes an accumulator's 256 elements through A. -/
  | mdrain (s n a m : Nat)
  /-- MACQ (R343): Acquires or releases ownership of an accumulator. -/
  | macq (s n r : Nat)
  /-- MSTAT (R344): Waits for an accumulator's steps and optionally clears its flags. -/
  | mstat (s n c : Nat)
  /-- LDA_W (R347): Stamped load that accepts a value no older than the lag, waiting at the home otherwise. -/
  | ldaW (s d a l : Nat)
  /-- LDA_N (R347): Stamped load that returns the home's value and age without waiting. -/
  | ldaN (s d a : Nat)
  /-- STC (R348): Combines 8 bytes into the tile's commutative partial for a line. -/
  | stc (s a b : Nat)
  /-- AMOADD_D (R350): Atomic add on a doubleword. -/
  | amoaddD (s d a b : Nat)
  /-- AMOMAX_D (R350): Atomic signed maximum on a doubleword. -/
  | amomaxD (s d a b : Nat)
  /-- AMOMIN_D (R350): Atomic signed minimum on a doubleword. -/
  | amominD (s d a b : Nat)
  /-- AMOSWP_D (R350): Atomic swap on a doubleword. -/
  | amoswpD (s d a b : Nat)
  /-- AMOCAS_D (R350): Atomic compare-and-swap on a doubleword. -/
  | amocasD (s d a b : Nat)
  /-- AMOAND_D (R350): Atomic and on a doubleword. -/
  | amoandD (s d a b : Nat)
  /-- AMOOR_D (R350): Atomic or on a doubleword. -/
  | amoorD (s d a b : Nat)
  /-- AMOXOR_D (R350): Atomic xor on a doubleword. -/
  | amoxorD (s d a b : Nat)
  /-- AMOADD_W (R350): Atomic add on a word. -/
  | amoaddW (s d a b : Nat)
  /-- AMOMAX_W (R350): Atomic signed maximum on a word. -/
  | amomaxW (s d a b : Nat)
  /-- AMOMIN_W (R350): Atomic signed minimum on a word. -/
  | amominW (s d a b : Nat)
  /-- AMOSWP_W (R350): Atomic swap on a word. -/
  | amoswpW (s d a b : Nat)
  /-- AMOCAS_W (R350): Atomic compare-and-swap on a word. -/
  | amocasW (s d a b : Nat)
  /-- AMOAND_W (R350): Atomic and on a word. -/
  | amoandW (s d a b : Nat)
  /-- AMOOR_W (R350): Atomic or on a word. -/
  | amoorW (s d a b : Nat)
  /-- AMOXOR_W (R350): Atomic xor on a word. -/
  | amoxorW (s d a b : Nat)
  /-- AMOFADD (R350): Atomic FP32 add, rounded once. -/
  | amofadd (s d a b : Nat)
  /-- AMOFMAX (R350): Atomic FP32 maximum. -/
  | amofmax (s d a b : Nat)
  /-- FENCE_S (R352): Holds later accesses until earlier ones are performed at the scope. -/
  | fenceS (s c : Nat)
  /-- REL (R352): Closes the release round and holds later stores until earlier accesses are performed at package scope. -/
  | rel (s : Nat)
  /-- ACQ (R352): Holds later accesses until earlier loads and atomics have returned. -/
  | acq (s c : Nat)
  /-- WBR (R353): Writes back the lines of a virtual range. -/
  | wbr (s a b : Nat)
  /-- INVR (R353): Invalidates the lines of a virtual range. -/
  | invr (s a b : Nat)
  /-- FEMPTY (R354): Makes a register open for a fill by another party. -/
  | fempty (s d : Nat)
  /-- FEST (R355): Reports a register's full/empty state without waiting. -/
  | fest (s d n : Nat)
  /-- ELECT (R356): Atomically elects one context per ITER value at an election word. -/
  | elect (s d a : Nat)
  /-- WAITW (R357): Waits until a word meets a condition, then acquires. -/
  | waitw (s d a b c : Nat)
  /-- WAITC (R357): Waits until a counter meets a condition in serial order, then acquires. -/
  | waitc (s d a b c : Nat)
  /-- BARINIT (R359): Initialises a barrier object. -/
  | barinit (s a b : Nat)
  /-- BARRIVE (R359): Releases earlier accesses and decrements PENDING of a barrier object. -/
  | barrive (s a : Nat)
  /-- BARWAIT (R359): Waits until a barrier's generation differs from the one supplied. -/
  | barwait (s a b : Nat)
  /-- SEMW (R360): Takes one unit of a tile semaphore, parking until granted. -/
  | semw (s n : Nat)
  /-- SEMP (R360): Releases earlier accesses at tile scope and gives one unit of a semaphore. -/
  | semp (s n : Nat)
  /-- QCFG (R363): Writes QMAP, mapping or unmapping the message queues onto x30 and x31. -/
  | qcfg (s a : Nat)
  /-- QDEST (R363): Writes the QDEST register. -/
  | qdest (s a : Nat)
  /-- COPY (R365): Sends one copy command to an engine queue, counting its bytes on a barrier. -/
  | copy (s a b : Nat)
  /-- QFENCE (R366): Sends a queue fence joining masked queues of one engine. -/
  | qfence (s a b : Nat)
  /-- ROUTE (R367): Hands the rows of a tile to their targets through an open reassembly entry. -/
  | route (s n a b : Nat)
  /-- RTOPEN (R368): Opens a reassembly entry from a descriptor. -/
  | rtopen (s n a b : Nat)
  /-- RTRET (R369): Retires the oldest ring row by sending its result to the origin. -/
  | rtret (s a b : Nat)
  /-- RTRET_DROP (R369): Retires the oldest ring row by sending a drop notice. -/
  | rtretDrop (s a : Nat)
  /-- RTSTAT (R370): Reads the STATE, GEN and DONE of a reassembly entry. -/
  | rtstat (s d n : Nat)
  /-- RTTGT (R371): Writes or removes a target registration from an image. -/
  | rttgt (s a : Nat)
  /-- CSET (R374): Makes a collective block current and starts a collective in it. -/
  | cset (s a : Nat)
  /-- CSEND (R373): Posts a step that sends chunks to a peer. -/
  | csend (s a b : Nat)
  /-- CRECV (R373): Posts a step that receives, and optionally reduces, chunks. -/
  | crecv (s a b : Nat)
  /-- CRRS (R373): Posts a step that receives, reduces and sends on. -/
  | crrs (s a b : Nat)
  /-- CCOPY (R373): Posts a step that receives, places and sends on unchanged. -/
  | ccopy (s a b : Nat)
  /-- CWAIT (R375): Waits for every posted collective step, then acquires at package scope. -/
  | cwait (s : Nat)
  /-- CLOOP (R376): Decrements a block loop counter and branches while non-zero. -/
  | cloop (s j : Nat) (imm : BitVec 9)
  /-- SPAWN (R381): Starts a context on the tile. -/
  | spawn (s d a b : Nat)
  /-- SPAWN_DIE (R382): Starts a dependent launch from a record. -/
  | spawnDie (s d a : Nat)
  /-- REAP (R383): Frees a halted context number. -/
  | reap (s d a : Nat)
  /-- YIELD (R384): Makes a slotted context swap-eligible. -/
  | yield (s : Nat)
  /-- HALT (R385): Ends the context after its results land and its streams drain. -/
  | halt (s : Nat)
  /-- CKPT (R386): Sets LAST_CKPT and stops the context if a migration waits. -/
  | ckpt (s a : Nat)
  /-- ITERSET (R387): Sets ITER. -/
  | iterset (s a : Nat)
  /-- ITERINC (R387): Increments ITER and returns it. -/
  | iterinc (s d : Nat)
  /-- TRAP (R388): Raises USER_TRAP with a faulting address. -/
  | trap (s a : Nat)
  /-- TRET (R389): Leaves the crown's handler with a replay or make-terminal action. -/
  | tret (s a : Nat)
  /-- SEGLD (R390): Loads a segment register of a context of the tile. -/
  | segld (s a b : Nat)
  /-- RDCYC (R391): Reads the package time counter. -/
  | rdcyc (s d : Nat)
  /-- SRD (R378): Reads a system register. -/
  | srd (s d r : Nat)
  /-- SWR (R378): Writes a system register after access and value checks. -/
  | swr (s a r : Nat)
  /-- ILLEGAL_INSTRUCTION (R291): A fetched word that is no instruction, or has a reserved field set or an unaccepted feature, traps ILLEGAL at issue. -/
  | illegalInstruction (w : W32)
  /-- PF_RESET (R25): A reset of the physical function starts the boot ROM, which reads the firmware header from the slot in phase 0. -/
  | pfReset
  /-- BOOT_VERIFY_DONE (R25): Recomputation of DIGEST and verification of SIG finish; boot moves to phase 2, or to phase 4 with a FAIL_CODE. -/
  | bootVerifyDone
  /-- FIRMWARE_BRINGUP_DONE (R25): The firmware finishes phase 2: configuration block check, identity derivation, link training and SRAM test; boot reaches
  phase 3 or fails to phase 4 or 6. -/
  | firmwareBringupDone (linksOk : Bool)
  /-- RECOVERY_BUFFER_WRITE (R25): A host write into the recovery buffer stores image bytes, and is discarded during phase 5. -/
  | recoveryBufferWrite (off : Nat) (data : List Byte)
  /-- RECOVERY_GO (R25): A write of RCV_CTL.GO in phase 4 starts recovery verification of the buffered image; outside phase 4 it is ignored. -/
  | recoveryGo (v : Word)
  /-- RECOVERY_VERIFY_DONE (R25): Recovery verification ends; a verified image runs from phase 2, and a failure returns to phase 4. -/
  | recoveryVerifyDone
  /-- SLOT_WRITE_DONE (R25): The COMMIT write of a verified image to the flash slot finishes, or fails with FAIL_CODE 6. -/
  | slotWriteDone (ok : Bool)
  /-- SPDM_GET_VERSION (R30): An SPDM GET_VERSION request over DOE is answered. -/
  | spdmGetVersion
  /-- SPDM_GET_CAPABILITIES (R30): An SPDM GET_CAPABILITIES request is answered. -/
  | spdmGetCapabilities
  /-- SPDM_NEGOTIATE_ALGORITHMS (R30): An SPDM NEGOTIATE_ALGORITHMS request is answered with Ed448 and SHA3-512 only. -/
  | spdmNegotiateAlgorithms (tables : Nat) (body : List Byte)
  /-- SPDM_GET_DIGESTS (R30): An SPDM GET_DIGESTS request is answered for certificate slot 0. -/
  | spdmGetDigests
  /-- SPDM_GET_CERTIFICATE (R30): An SPDM GET_CERTIFICATE request returns the slot 0 chain. -/
  | spdmGetCertificate (slot off len : Nat)
  /-- SPDM_CHALLENGE (R30): An SPDM CHALLENGE request is answered with an Ed448 signature by the alias key. -/
  | spdmChallenge (slot : Nat) (rest : ChallengeRest)
  /-- SPDM_GET_MEASUREMENTS (R31): An SPDM GET_MEASUREMENTS request returns the Bregor measurement records. -/
  | spdmGetMeasurements (request : MeasureRequest)
  /-- SPDM_UNSUPPORTED_REQUEST (R30): KEY_EXCHANGE, PSK_EXCHANGE or a session request is answered with UNSUPPORTED_REQUEST. -/
  | spdmUnsupportedRequest (code : Nat)
  /-- POWER_WINDOW (R20): At the end of each 1 ms window the power manager updates PWR_STAT and sets the core clock by the table of situations. -/
  | powerWindow (tj watts : Nat)
  /-- THERMAL_RECOVERY (R20): After 10 ms below 95 °C the clock returns to 1.4 GHz. -/
  | thermalRecovery
  /-- CLOCK_CHANGE_COMPLETE (R18): A change of core clock completes within 1 µs with nothing lost or reordered. -/
  | clockChangeComplete
  /-- CLUSTER_POWER_GATE (R22): A CLUS_GATE write with GO and OFF 1 starts power-gating a cluster, refused with STATUS 1 or 2 where it applies. -/
  | clusterPowerGate (v : Word)
  /-- CLUSTER_UNGATE (R22): A CLUS_GATE write with GO and OFF 0 starts ungating a cluster. -/
  | clusterUngate (v : Word)
  /-- CLUSTER_GATE_COMPLETE (R22): A gating request completes once the groups have left, the buckets have moved and the cluster is off; an ungating request
  completes once the cluster is powered and clock-gated. -/
  | clusterGateComplete
  /-- ENDPOINT_BIND (R36): A write that sets BOUND in an endpoint table entry checks the entry and binds the context, or sets CFG_ERR. -/
  | endpointBind (ep : Nat) (flags : Byte)
  /-- ENDPOINT_UNBIND (R36): A write that clears BOUND unbinds the endpoint context, and its messages in progress fail. -/
  | endpointUnbind (ep : Nat)
  /-- SD_KEY_WRITE (R37): A write of KEY0 or KEY1 installs a key unless that slot is valid. -/
  | sdKeyWrite (part slot : Nat) (key : List Byte)
  /-- SD_CTL_WRITE (R37): A write of SD_CTL sets the slot valid bits, the SDI, and TXSLOT unless it names an invalid slot. -/
  | sdCtlWrite (part : Nat) (v : Word)
  /-- EP_STATUS_CLEAR (R38): A write of CLR zeroes an endpoint context's three counters. -/
  | epStatusClear (ep : Nat)
  /-- KEY_FLUSH (R42): A write of an endpoint's KEY_FLUSH doorbell starts a flush of its cached key entries. -/
  | keyFlush (ep : Nat)
  /-- KEY_FLUSH_COMPLETE (R42): The flush completes once every message admitted under the old entries has completed or failed. -/
  | keyFlushComplete (ep : Nat)
  /-- PEER_CONFIG_WRITE (R49): A write of PEER_ADDR or PEER_MASK changes set membership for messages that start afterwards. -/
  | peerConfigWrite (k : Nat) (v : BitVec 128)
  /-- NO_ROUTE_CLEAR (R49): A write of 1 to bit 0 at 0x4_8090 clears NO_ROUTE. -/
  | noRouteClear
  /-- PORT_STAT_CLEAR (R49): A write of CLR in PORT_STAT zeroes that port's NO_EP. -/
  | portStatClear (port : Nat)
  /-- ETH_LINK_CHANGE (R49): An Ethernet port link goes up or down, which changes the egress choice for switch ports. -/
  | ethLinkChange (port : Nat) (up : Bool)
  /-- DELIVERY_CONTEXT_ALLOCATE (R33): A new flow waiting at its initiator takes a packet delivery context once one is released. -/
  | deliveryContextAllocate (msg : Nat)
  /-- UET_MESSAGE_SEND (R45): An endpoint sends a message's packets with their entropy values and egress ports, or fails it with NO_ROUTE. -/
  | uetMessageSend (msg : Nat)
  /-- UET_WRITE_PACKET (R43): A received write packet is authenticated, checked against its memory key, and placed at BASE plus its offset. -/
  | uetWritePacket (p : Packet)
  /-- UET_READ_PACKET (R32): A received read request is checked against its key and answered with data from device memory. -/
  | uetReadPacket (p : Packet)
  /-- UET_SEND_PACKET (R43): A received packet of a send matched to a buffer is checked and placed. -/
  | uetSendPacket (p : Packet)
  /-- UET_TAGGED_SEND (R52): The first packet of a tagged send is matched against armed entries, then posted receives, or dropped and counted in TAG_DROP. -/
  | uetTaggedSend (p : Packet)
  /-- UET_ATOMIC_PACKET (R32): A received 64-bit atomic packet is checked and performed at the home, or refused without feature bit 26. -/
  | uetAtomicPacket (p : Packet)
  /-- ETH_HELD_PLACEMENT (R53): A packet held in the hub for a not-present storage page or a MIG page is placed once the page is serviced. -/
  | ethHeldPlacement (id : Nat)
  /-- ARRIVAL_COUNTER_ADD (R44): After a message's last payload byte is applied, the endpoint adds 1 or the byte count to the arrival counter. -/
  | arrivalCounterAdd (id : Nat)
  /-- EV_UNUSABLE_EXPIRE (R46): An entropy value marked unusable after a trim or inferred loss becomes usable again after 16 µs. -/
  | evUnusableExpire (ev : Nat)
  /-- PACKET_RELAY (R48): A port switch relays a packet that is not addressed to its own package on its direct port to the destination. -/
  | packetRelay (p : Packet) (dst : BitVec 128)
  /-- COMBINE_CONTRIBUTION (R50): A reduction contribution reaches a port switch and is buffered in a combining entry, or passes uncombined; when all have
  arrived the switch folds them and forwards one result. -/
  | combineContribution (c : Contribution) (dst : BitVec 128)
  /-- COMBINE_TIMEOUT (R51): An entry still missing contributors 100,000 hub cycles after it opened forwards its buffered contributions uncombined and
  closes. -/
  | combineTimeout (id : Nat)
  /-- MRT_ENABLE (R55): A write that sets EN in a memory range table entry enables the range, or leaves EN clear and sets ERR. -/
  | mrtEnable (entry : Nat)
  /-- MRT_DISABLE (R58): A write that clears EN sets BUSY and starts writing back the range's dirty lines from every slice. -/
  | mrtDisable (entry : Nat)
  /-- MRT_DISABLE_COMPLETE (R58): The write-back of a disabled range finishes and BUSY clears. -/
  | mrtDisableComplete (entry : Nat)
  /-- CXL_LINK_DOWN (R58): A CXL port link fails or its device is removed; the ranges go OFFLINE, outstanding reads complete poisoned and writes are
  discarded. -/
  | cxlLinkDown (port : Nat)
  /-- DRIVER_QUEUE_SUBMIT (R61): A write to DQ_SQE appends one NVMe submission entry to a driver queue, or is discarded and counted. -/
  | driverQueueSubmit (ssd q : Nat) (aligned : Bool) (data : List Byte)
  /-- DRIVER_QUEUE_COMPLETION (R61): An SSD completes a driver-queue command and the engine writes the completion entry, raising vector 192 + d if IRQ is
  set. -/
  | driverQueueCompletion (ssd q idx status : Nat) (data : List Host.Cell)
  /-- DQ_CTL_WRITE (R61): A write of DQ_CTL sets EN and IRQ; clearing EN takes effect after the outstanding completions. -/
  | dqCtlWrite (ssd q : Nat) (v : Word)
  /-- DQ_CLEAR_DISCARDS (R61): A write of CLRD zeroes the driver queue's DISCARDS. -/
  | dqClearDiscards (ssd q : Nat)
  /-- DQ_CQ_HEAD_WRITE (R61): A write of DQ_CQ_HEAD frees completion ring room so that waiting completions can be written. -/
  | dqCqHeadWrite (ssd q : Nat) (v : Word)
  /-- NAMESPACE_ENTRY_WRITE (R62): A write of a namespace table entry, with clearing of VALID making new faults on the namespace fail. -/
  | namespaceEntryWrite (entry : Nat) (v : BitVec 128)
  /-- FREE_FRAME_PUSH (R63): A write of FFP_PUSH adds a frame to the partition's pool, or discards it and sets REJ; waiting faults take new frames in order. -/
  | freeFramePush (part : Nat) (v : Word)
  /-- STORAGE_FAULT (R65): A storage fault from a die pager reaches the storage engines; it joins a page in service or takes a frame and submits Reads. -/
  | storageFault (id : Nat)
  /-- STORAGE_READ_COMPLETE (R65): The Reads of a page in service complete; the engine installs the entry if unchanged and sends the wakes, or handles the
  error by R66. -/
  | storageReadComplete (id : Nat) (ok : Bool) (data : List Host.Cell) (bad : List Nat)
  /-- STORAGE_TIMEOUT (R66): A paging Read without completion for STOR_TMO hub cycles is aborted and treated as an error. -/
  | storageTimeout (id : Nat)
  /-- SSD_LINK_DOWN (R66): An SSD link goes down or reports controller fatal status; its pages in service end as for an error. -/
  | ssdLinkDown (ssd : Nat)
  /-- COMMAND_WINDOW_WRITE (R73): A posted write to a command window enqueues its 64-byte packets, or is discarded whole and counted. -/
  | commandWindowWrite (vf w off : Nat) (data : List Byte)
  /-- WINDOW_DISCARDS_CLEAR (R73): A write of 1 to bit 0 at window offset 0xFC8 zeroes DISCARDS. -/
  | windowDiscardsClear (vf w : Nat)
  /-- LAUNCH (R77): The LAUNCH command starts the launch whose record it names. -/
  | launch (vf w : Nat)
  /-- ARM (R78): The ARM command arms, or with COUNT 0 retires, a tagged launch entry on an endpoint context. -/
  | arm (vf w : Nat)
  /-- HOST_COPY (R79): The COPY command runs one copy through a copy engine that the command processor chooses. -/
  | hostCopy (vf w die eng : Nat)
  /-- HANDLE_REGISTER (R80): The HANDLE command with ACTION 1 registers a buffer handle. -/
  | handleRegister (vf w : Nat)
  /-- HANDLE_RETIRE (R80): The HANDLE command with ACTION 2 starts retiring a buffer handle. -/
  | handleRetire (vf w : Nat)
  /-- HANDLE_RETIRE_COMPLETE (R80): A retirement completes after the handle's last writer and readers have completed. -/
  | handleRetireComplete (vf w : Nat)
  /-- SIGNAL (R81): The SIGNAL command writes VALUE at ADDR, after the handle's users when HID is set, and may raise a VF vector. -/
  | signal (vf w : Nat) (linkOk : Bool)
  /-- WAITV (R82): The WAITV command holds its window until a device word satisfies COND, testing at the start. -/
  | waitv (vf w : Nat)
  /-- WAITV_TIMEOUT (R82): A WAITV whose condition has not held after TMO µs completes with TIMEOUT. -/
  | waitvTimeout (vf w : Nat)
  /-- BAD_OP_COMMAND (R75): A packet with an unknown OP completes with BAD_OP. -/
  | badOpCommand (vf w : Nat)
  /-- LAUNCH_COMPLETE (R96): When every context and dependent launch has ended, the writer actions run, CVAL is stored at CWORD and the completion record is
  written. -/
  | launchComplete (part num : Nat)
  /-- CQ_HEAD_WRITE (R84): A write of CQ_HEAD frees ring room so that waiting completion records and windows proceed. -/
  | cqHeadWrite (vf : Nat) (v : Word)
  /-- WINDOW_ABORT (R86): A write of WIN_CTL.ABORT completes a window's unstarted commands, and a WAITV in progress, with ABORTED. -/
  | windowAbort (vf : Nat) (v : Word)
  /-- FEATURE_ACCEPT (R72): The first complete write of FEAT_ACCEPT sets FEAT_ACTIVE and makes each VF's READY follow its partition's EN. -/
  | featureAccept (v : BitVec 256)
  /-- PARTITION_ENABLE (R69): A write that sets PT_CTL.EN enables a partition, or is refused with ERR. -/
  | partitionEnable (part : Nat)
  /-- PARTITION_DISABLE (R263): A write that clears PT_CTL.EN halts the partition with REASON 4. -/
  | partitionDisable (part : Nat)
  /-- FUNCTION_LEVEL_RESET (R86): A function level reset of a VF acts as a halt without records and returns handles, armed entries, CQ registers and windows
  to reset. -/
  | functionLevelReset (vf : Nat)
  /-- WINDOW_B_READ (R68): A host read through window B is translated and served at the home, or returns all-ones with WB_FAULT. -/
  | windowBRead (vf off len : Nat)
  /-- WINDOW_B_WRITE (R68): A host write through window B is translated and applied at the home in arrival order, or discarded with WB_FAULT. -/
  | windowBWrite (vf off : Nat) (data : List Byte)
  /-- LAUNCH_PLACEMENT (R94): The command processor places a waiting launch once room exists, choosing dies, clusters and tiles and starting each tile group. -/
  | launchPlacement (part : Nat)
  /-- DISPLACED_GROUP_RESUME (R98): A displaced tile group resumes once eligible tiles free. -/
  | displacedGroupResume (part num group : Nat)
  /-- GROUP_MIGRATE_REQUEST (R118): A write of GRP_MIG with GO chooses a tile for a group and starts its migration, or sets ERR or NOROOM. -/
  | groupMigrateRequest (v : Word)
  /-- CKPT_LIMIT_EXPIRE (R119): The migration wait ends CKPT_LIMIT cycles after the request. -/
  | ckptLimitExpire (part num group : Nat)
  /-- MIGRATION_QUIESCE (R119): Once the wait ends, the group stops issuing, in-flight work lands, partials gather, streams drain, stamped loads withdraw
  and copies quiesce. -/
  | migrationQuiesce (part num group : Nat)
  /-- MIGRATION_SAVE (R123): Once quiesced, the device writes the group slab with context records, tile state and the scratchpad save set. -/
  | migrationSave (part num group : Nat)
  /-- MIGRATION_RESTORE (R119): The command processor writes the new tile's glove table, loads the slab, re-issues the saved copies and resumes the contexts. -/
  | migrationRestore (part num group : Nat)
  /-- ROTATION_TABLE_APPLY (R108): A valid write of ROTLO or ROTHI takes effect at the next cycle n with n mod 32 = 0. -/
  | rotationTableApply (tile : Nat)
  /-- SWAP_THRESHOLD_REACHED (R113): A context parked for SWAP_TH cycles becomes swap-eligible. -/
  | swapThresholdReached (tile ctx : Nat)
  /-- CONTEXT_SWAP (R114): A swap-eligible slotted context and a ready cached context exchange places over 32 cycles. -/
  | contextSwap (tile : Nat)
  /-- CONTEXT_RECORD_WRITEBACK (R115): The context cache writes a cached context's dirty registers to its save-area record in the background. -/
  | contextRecordWriteback (tile ctx : Nat)
  /-- STREAM_PREFETCH (R131): A stream unit fetches an input vector up to four ahead of POS. -/
  | streamPrefetch (tile ctx sr : Nat)
  /-- STREAM_OUTPUT_DRAIN (R131): A stream unit writes a produced output vector to its home. -/
  | streamOutputDrain (tile ctx sr : Nat)
  /-- REMOTE_READ_CLOSE (R139): A 64-cycle multicast window closes and one read is performed for all merged requesters. -/
  | remoteReadClose (id : Nat)
  /-- REGISTER_FILL (R127): An RFILL message or copy-engine fill reaches a register, lands in an open one and wakes its reader, or is dropped and counted. -/
  | registerFill (id : Nat)
  /-- LOAD_RESULT_LAND (R126): A load or atomic reply lands and makes its destination register full, waking a context parked on it. -/
  | loadResultLand (id : Nat)
  /-- DIVIDE_RESULT_LAND (R308): An integer divide or remainder result lands from the divider in issue order. -/
  | divideResultLand (tile : Nat)
  /-- FP_DIVIDE_RESULT_LAND (R311): An FDIV or FSQRT result lands and raises its flags. -/
  | fpDivideResultLand (tile : Nat)
  /-- VECTOR_UNIT_START (R328): A queued vector instruction starts in the tile's vector unit and reads its pointers, VL and scalar. -/
  | vectorUnitStart (tile : Nat)
  /-- VECTOR_RESULT_LAND (R336): A vector instruction finishes in the unit; a reduction's x result lands. -/
  | vectorResultLand (tile : Nat)
  /-- MATRIX_OPERAND_FILL (R337): The remote or stream operands of a matrix step reach the operand buffer, so the step can issue. -/
  | matrixOperandFill (tile : Nat)
  /-- MATRIX_STEP_LAND (R337): A matrix step's result lands at the end of its occupancy and the unit frees. -/
  | matrixStepLand (tile : Nat)
  /-- HOME_STORE_APPLY (R186): A store, placement or host write reaches its home, which invalidates other L1 copies, gathers partials, applies it and
  evaluates watches. -/
  | homeStoreApply (id : Nat)
  /-- HOME_LOAD (R187): A load reaches its home, which gathers partials and returns the line. -/
  | homeLoad (id : Nat)
  /-- HOME_ATOMIC (R350): An atomic reaches its home and is performed as one write in coherence order, or is sent by H0 as a PCIe AtomicOp. -/
  | homeAtomic (id : Nat)
  /-- STAMPED_WRITE_APPLY (R201): A stamped write reaches its home and is applied or dropped by stamp, evaluating the wait list if applied. -/
  | stampedWriteApply (id : Nat)
  /-- STAMPED_WRITE_ACK (R201): A dropped stamped write's acknowledgement reaches the writer and sets FFL.STALE. -/
  | stampedWriteAck (id : Nat)
  /-- STAMPED_LOAD_AT_HOME (R204): A stamped load reaches its home and is answered, entered in the wait list, refused, or trapped when SLIM is 0. -/
  | stampedLoadAtHome (id : Nat)
  /-- STAMPED_LOAD_RETRY (R205): A stamped load refused by a full wait list re-issues after 256 cycles. -/
  | stampedLoadRetry (tile ctx : Nat)
  /-- SLIM_TIMEOUT (R206): A waiting stamped load's count reaches SLIM and the port sends a withdrawal to the home. -/
  | slimTimeout (tile ctx : Nat)
  /-- STALE_WITHDRAW_ACK (R206): The withdrawal's acknowledgement returns and raises STALE_TIMEOUT, unless the home had already answered. -/
  | staleWithdrawAck (tile ctx : Nat)
  /-- STAMP_SET_REQUEST (R202): A write of STSET_CTL with GO sets the stamps of a run of vault lines, invalidates their L1 copies and re-evaluates waiting
  loads. -/
  | stampSetRequest (v : Word)
  /-- PARTIAL_EVICTION (R194): An L1 eviction sends a commutative partial to its home, where it is combined at once. -/
  | partialEviction (tile line : Nat)
  /-- RELEASE_QUERY (R191): Every 64 cycles a REL query sums the home counts of the closed round; when complete, the held stores are released. -/
  | releaseQuery (tile ctx : Nat)
  /-- RELEASE_CLEAR_RETURN (R191): The clearing pass returns, and the round's counts are zeroed and the round is made free. -/
  | releaseClearReturn (tile ctx : Nat)
  /-- FAULT_MESSAGE (R179): A fault message reaches a router and either joins a combining entry or opens one and moves on towards the pager. -/
  | faultMessage (id : Nat)
  /-- PAGER_WALK (R179): The die pager takes a fault into service, walks the tables and acts by the entry found. -/
  | pagerWalk (id : Nat)
  /-- FAULT_WAKE (R179): A wake retraces the recorded router ports, freeing entries, and wakes the faulting contexts. -/
  | faultWake (id : Nat)
  /-- SHOOTDOWN_REQUEST (R180): A write of SHOOT_CTL with GO removes covered translations and starts a new translation epoch, or sets ERR. -/
  | shootdownRequest (v : Word)
  /-- SHOOTDOWN_COMPLETE (R180): Once earlier-epoch stores are acknowledged, the shootdown completes, BUSY clears and writers held on MIG pages wake. -/
  | shootdownComplete
  /-- TSET_WRITE (R171): A write of a TSET register changes a tenant's set range, starting a write-back when it shrinks. -/
  | tsetWrite (part tenant : Nat) (v : Word)
  /-- TSET_RANGE_SWITCH (R172): After the leaving sets are written back and invalidated, the new range takes effect and BUSY clears. -/
  | tsetRangeSwitch (part tenant : Nat)
  /-- CORRECTABLE_ERROR (R173): A correctable error is corrected and counted, and at RETIRE_CE the slice retires its cache part or sets LAST. -/
  | correctableError (slice : Nat)
  /-- SLICE_STAT_CLEAR (R173): A write of CLR while the partition is disabled clears COUNT, RET and LAST. -/
  | sliceStatClear (slice : Nat)
  /-- COMMUTATIVE_RANGE_WRITE (R183): A write to a commutative range register gathers the old range's partials and then takes effect. -/
  | commutativeRangeWrite (part idx : Nat) (v : BitVec 128)
  /-- UNCORRECTABLE_ERROR (R264): An uncorrectable error in stored data sets the poison bit of its 64 bytes. -/
  | uncorrectableError (site : ErrorSite)
  /-- NOC_HEADER_ERROR (R266): A packet with an uncorrectable header error is discarded and the partition of the receiving router halts with REASON 2. -/
  | nocHeaderError (router : Nat) (header : BadHeader)
  /-- COPY_COMMAND_ENQUEUE (R223): A copy command reaches an engine queue and is queued, or refused when the queue is full. -/
  | copyCommandEnqueue (id : Nat)
  /-- COPY_GRANULE (R221): An engine moves one 256-byte destination granule in its round-robin turn, converting formats and counting down the barrier. -/
  | copyGranule (die eng q : Nat)
  /-- COPY_COMPLETE (R225): A copy's final granule is applied and its completion word or fill is written. -/
  | copyComplete (die eng q : Nat)
  /-- QFENCE_RELEASE (R224): A queue fence completes once the earlier commands of its masked queues have completed. -/
  | qfenceRelease (die eng q : Nat)
  /-- COPY_MERGE_CLOSE (R226): A 64-cycle cluster combining window closes and one merged copy command goes to the engine. -/
  | copyMergeClose (id : Nat)
  /-- COMPLETION_WORD_WRITE (R414): A completion word is written through the reporting party's address space, waiting for page service or being abandoned
  with CWORD_FAULT. -/
  | completionWordWrite (id : Nat)
  /-- FLIT_ARRIVE (R230): A message flit reaches its destination context's receive queue, or is refused when full or dropped as orphaned. -/
  | flitArrive (id : Nat)
  /-- SEND_RETRY (R223): A context parked with PARK 11 retries its refused flit or copy command after 256 cycles. -/
  | sendRetry (tile ctx : Nat)
  /-- ORPHAN_NOTICE (R232): A drop notice reaches the sender and increments its ORPH, with a non-fatal record. -/
  | orphanNotice (id : Nat)
  /-- ROUTE_ROW_ARRIVE (R240): A routed row reaches its target registration and lands in the ring, is refused, or is held under WAIT. -/
  | routeRowArrive (id : Nat)
  /-- ROUTE_HANDOUT_RESUME (R240): A route unit held under WAIT resumes handing out pairs once the target ring frees a slot. -/
  | routeHandoutResume (tile : Nat)
  /-- ROUTE_DROP_NOTICE (R242): A drop notice reaches the origin entry and sets the slot's DROP bit, or is discarded. -/
  | routeDropNotice (id : Nat)
  /-- ROUTE_RETURN_ARRIVE (R242): A return reaches the origin entry, writes the return buffer and may complete its row with the weighted combine, or is
  discarded. -/
  | routeReturnArrive (id : Nat)
  /-- REASSEMBLY_DEADLINE (R244): REMAIN reaches 0; missing slots time out, remaining rows complete and the entry closes. -/
  | reassemblyDeadline (tile entry : Nat)
  /-- COLLECTIVE_STEP_START (R249): The hub runs a posted collective step once what it reads is available, sending its chunks. -/
  | collectiveStepStart (id : Nat)
  /-- COLLECTIVE_CONTRIBUTION (R252): A contribution reaches the hub and is recorded in the arrived set, buffered, discarded as duplicate or refused when
  full. -/
  | collectiveContribution (c : Contribution)
  /-- COLLECTIVE_SEND_ACK (R249): The acknowledgement of a sent chunk returns, and a sending step completes once every chunk is acknowledged. -/
  | collectiveSendAck (id chunk : Nat) (ok : Bool)
  /-- WATCH_RETRY (R358): A wait with no free watch entry reads the word again every 256 cycles. -/
  | watchRetry (id : Nat)
  /-- HOST_WATCH_POLL (R358): H0 reads a watched host or peer word every 1,024 cycles until the condition holds. -/
  | hostWatchPoll (id : Nat)
  /-- TRAP_ACK (R260): A write of TQ_ACK acknowledges a replayable record with replay or make terminal. -/
  | trapAck (vf : Nat) (v : Word)
  /-- TQ_HEAD_WRITE (R262): A write of TQ_HEAD frees trap-queue room so that waiting replayable records are written. -/
  | tqHeadWrite (vf : Nat) (v : Word)
  /-- CROWN_TAKE_TRAP (R258): The crown takes a pending sibling trap at its next issue outside the handler, setting its trap registers and entering HANDLER. -/
  | crownTakeTrap (tile : Nat)
  /-- DEFERRED_TRAP (R256): A deferred trap found after acceptance wakes its context and is raised when the context next reaches issue. -/
  | deferredTrap (tile ctx : Nat)
  /-- REGISTER_WRITE (R8): A host write to a register that has no row of its own stores the writable fields and ignores reserved fields. -/
  | registerWrite (fn off size v : Nat)
  /-- UET_ACKNOWLEDGEMENT (R41): An acknowledgement, negative acknowledgement or trim notice reaches the initiating endpoint, which completes the message,
  fails it at its initiator, retransmits, or marks the entropy value unusable. -/
  | uetAcknowledgement (msg : Nat) (kind : AckKind) (ev : Nat)
  /-- STAMP_SET_COMPLETE (R202): A stamp-set request finishes setting its lines and STSET_STAT.BUSY clears. -/
  | stampSetComplete
  /-- INSTRUCTION_CACHE_FILL (R293): An instruction word missing from the instruction cache arrives, or its fetch check fails, and the context becomes ready
  or traps at that address. -/
  | instructionCacheFill (tile ctx : Nat)
  /-- TRAP_QUEUE_ENABLE (R262): A write that sets TQ_CTL.EN lets waiting replayable records be written in order of occurrence. -/
  | trapQueueEnable (vf : Nat)
  deriving DecidableEq, Repr

end Sys2Proof
end

