-- ==== Sys2Proof/WellFormed.lean ====
section
/-!
DEFINITION. Which terms are well formed: an instruction's fields fit the fields of its word (R280 to R290), a branch or jump
offset is even (R280), a system register number is one R378 assigns, and an event names a partition, function, port, die,
engine, queue, tile, context or stream that exists (R2, R4, R32, R69, R217, R130).
-/
namespace Sys2Proof

/-- R378: the system register numbers that the table assigns. -/
abbrev isSysReg (r : Nat) : Prop := r < 20

/-- Well-formedness of each step. -/
def Instr.WF : Instr → Prop
  | .lui d _ => d < 32
  | .auipc d _ => d < 32
  | .jal d imm => d < 32 ∧ imm.toNat % 2 = 0
  | .jalr d a _ => d < 32 ∧ a < 32
  | .beq a b imm => a < 32 ∧ b < 32 ∧ imm.toNat % 2 = 0
  | .bne a b imm => a < 32 ∧ b < 32 ∧ imm.toNat % 2 = 0
  | .blt a b imm => a < 32 ∧ b < 32 ∧ imm.toNat % 2 = 0
  | .bge a b imm => a < 32 ∧ b < 32 ∧ imm.toNat % 2 = 0
  | .bltu a b imm => a < 32 ∧ b < 32 ∧ imm.toNat % 2 = 0
  | .bgeu a b imm => a < 32 ∧ b < 32 ∧ imm.toNat % 2 = 0
  | .lb d a _ => d < 32 ∧ a < 32
  | .lh d a _ => d < 32 ∧ a < 32
  | .lw d a _ => d < 32 ∧ a < 32
  | .ld d a _ => d < 32 ∧ a < 32
  | .lbu d a _ => d < 32 ∧ a < 32
  | .lhu d a _ => d < 32 ∧ a < 32
  | .lwu d a _ => d < 32 ∧ a < 32
  | .sb a b _ => a < 32 ∧ b < 32
  | .sh a b _ => a < 32 ∧ b < 32
  | .sw a b _ => a < 32 ∧ b < 32
  | .sd a b _ => a < 32 ∧ b < 32
  | .addi d a _ => d < 32 ∧ a < 32
  | .slti d a _ => d < 32 ∧ a < 32
  | .sltiu d a _ => d < 32 ∧ a < 32
  | .xori d a _ => d < 32 ∧ a < 32
  | .ori d a _ => d < 32 ∧ a < 32
  | .andi d a _ => d < 32 ∧ a < 32
  | .slli d a h => d < 32 ∧ a < 32 ∧ h < 64
  | .srli d a h => d < 32 ∧ a < 32 ∧ h < 64
  | .srai d a h => d < 32 ∧ a < 32 ∧ h < 64
  | .add d a b => d < 32 ∧ a < 32 ∧ b < 32
  | .sub d a b => d < 32 ∧ a < 32 ∧ b < 32
  | .sll d a b => d < 32 ∧ a < 32 ∧ b < 32
  | .slt d a b => d < 32 ∧ a < 32 ∧ b < 32
  | .sltu d a b => d < 32 ∧ a < 32 ∧ b < 32
  | .xor d a b => d < 32 ∧ a < 32 ∧ b < 32
  | .srl d a b => d < 32 ∧ a < 32 ∧ b < 32
  | .sra d a b => d < 32 ∧ a < 32 ∧ b < 32
  | .or d a b => d < 32 ∧ a < 32 ∧ b < 32
  | .and d a b => d < 32 ∧ a < 32 ∧ b < 32
  | .addiw d a _ => d < 32 ∧ a < 32
  | .slliw d a h => d < 32 ∧ a < 32 ∧ h < 32
  | .srliw d a h => d < 32 ∧ a < 32 ∧ h < 32
  | .sraiw d a h => d < 32 ∧ a < 32 ∧ h < 32
  | .addw d a b => d < 32 ∧ a < 32 ∧ b < 32
  | .subw d a b => d < 32 ∧ a < 32 ∧ b < 32
  | .sllw d a b => d < 32 ∧ a < 32 ∧ b < 32
  | .srlw d a b => d < 32 ∧ a < 32 ∧ b < 32
  | .sraw d a b => d < 32 ∧ a < 32 ∧ b < 32
  | .mul d a b => d < 32 ∧ a < 32 ∧ b < 32
  | .mulh d a b => d < 32 ∧ a < 32 ∧ b < 32
  | .mulhsu d a b => d < 32 ∧ a < 32 ∧ b < 32
  | .mulhu d a b => d < 32 ∧ a < 32 ∧ b < 32
  | .mulw d a b => d < 32 ∧ a < 32 ∧ b < 32
  | .div d a b => d < 32 ∧ a < 32 ∧ b < 32
  | .divu d a b => d < 32 ∧ a < 32 ∧ b < 32
  | .rem d a b => d < 32 ∧ a < 32 ∧ b < 32
  | .remu d a b => d < 32 ∧ a < 32 ∧ b < 32
  | .divw d a b => d < 32 ∧ a < 32 ∧ b < 32
  | .divuw d a b => d < 32 ∧ a < 32 ∧ b < 32
  | .remw d a b => d < 32 ∧ a < 32 ∧ b < 32
  | .remuw d a b => d < 32 ∧ a < 32 ∧ b < 32
  | .fadd s d a b => s < 8 ∧ d < 32 ∧ a < 32 ∧ b < 32
  | .fsub s d a b => s < 8 ∧ d < 32 ∧ a < 32 ∧ b < 32
  | .fmul s d a b => s < 8 ∧ d < 32 ∧ a < 32 ∧ b < 32
  | .fdiv s d a b => s < 8 ∧ d < 32 ∧ a < 32 ∧ b < 32
  | .fmin s d a b => s < 8 ∧ d < 32 ∧ a < 32 ∧ b < 32
  | .fmax s d a b => s < 8 ∧ d < 32 ∧ a < 32 ∧ b < 32
  | .feq s d a b => s < 8 ∧ d < 32 ∧ a < 32 ∧ b < 32
  | .flt s d a b => s < 8 ∧ d < 32 ∧ a < 32 ∧ b < 32
  | .fle s d a b => s < 8 ∧ d < 32 ∧ a < 32 ∧ b < 32
  | .fsgnj s d a b => s < 8 ∧ d < 32 ∧ a < 32 ∧ b < 32
  | .fsgnjn s d a b => s < 8 ∧ d < 32 ∧ a < 32 ∧ b < 32
  | .fsgnjx s d a b => s < 8 ∧ d < 32 ∧ a < 32 ∧ b < 32
  | .fmac s d a b => s < 8 ∧ d < 32 ∧ a < 32 ∧ b < 32
  | .fsqrt s d a => s < 8 ∧ d < 32 ∧ a < 32
  | .fclass s d a => s < 8 ∧ d < 32 ∧ a < 32
  | .fcvtws s d a => s < 8 ∧ d < 32 ∧ a < 32
  | .fcvtsw s d a => s < 8 ∧ d < 32 ∧ a < 32
  | .fcvtls s d a => s < 8 ∧ d < 32 ∧ a < 32
  | .fcvtsl s d a => s < 8 ∧ d < 32 ∧ a < 32
  | .fexp2 s d a => s < 8 ∧ d < 32 ∧ a < 32
  | .flog2 s d a => s < 8 ∧ d < 32 ∧ a < 32
  | .frcp s d a => s < 8 ∧ d < 32 ∧ a < 32
  | .frsq s d a => s < 8 ∧ d < 32 ∧ a < 32
  | .fpack s d a f => s < 8 ∧ d < 32 ∧ a < 32 ∧ f < 32
  | .funpk s d a f => s < 8 ∧ d < 32 ∧ a < 32 ∧ f < 32
  | .bfmt s n a => s < 8 ∧ n < 3 ∧ a < 32
  | .pset s a p => s < 8 ∧ a < 32 ∧ p < 8
  | .pget s d p => s < 8 ∧ d < 32 ∧ p < 8
  | .setvl s d a => s < 8 ∧ d < 32 ∧ a < 32
  | .sbind s a p => s < 8 ∧ a < 32 ∧ p < 8
  | .sunbind s p => s < 8 ∧ p < 8
  | .sdrain s m => s < 8 ∧ m < 256
  | .vadd s d a b => s < 8 ∧ d < 16 ∧ a < 16 ∧ b < 16
  | .vsub s d a b => s < 8 ∧ d < 16 ∧ a < 16 ∧ b < 16
  | .vmul s d a b => s < 8 ∧ d < 16 ∧ a < 16 ∧ b < 16
  | .vfma s d a b => s < 8 ∧ d < 16 ∧ a < 16 ∧ b < 16
  | .vmax s d a b => s < 8 ∧ d < 16 ∧ a < 16 ∧ b < 16
  | .vmin s d a b => s < 8 ∧ d < 16 ∧ a < 16 ∧ b < 16
  | .vamax s d a b => s < 8 ∧ d < 16 ∧ a < 16 ∧ b < 16
  | .vabs s d a => s < 8 ∧ d < 16 ∧ a < 16
  | .vneg s d a => s < 8 ∧ d < 16 ∧ a < 16
  | .vexp2 s d a => s < 8 ∧ d < 16 ∧ a < 16
  | .vrcp s d a => s < 8 ∧ d < 16 ∧ a < 16
  | .vrsq s d a => s < 8 ∧ d < 16 ∧ a < 16
  | .vscl s d x a => s < 8 ∧ d < 16 ∧ x < 16 ∧ a < 16
  | .vadds s d x a => s < 8 ∧ d < 16 ∧ x < 16 ∧ a < 16
  | .vmaxs s d x a => s < 8 ∧ d < 16 ∧ x < 16 ∧ a < 16
  | .vcpy s d a => s < 8 ∧ d < 16 ∧ a < 16
  | .vset s d x => s < 8 ∧ d < 16 ∧ x < 16
  | .vsel s d a b c => s < 8 ∧ d < 16 ∧ a < 16 ∧ b < 16 ∧ c < 6
  | .vreds s x a => s < 8 ∧ x < 16 ∧ a < 16
  | .vredm s x a m => s < 8 ∧ x < 16 ∧ a < 16 ∧ m < 2
  | .mma s n a b => s < 8 ∧ n < 8 ∧ a < 16 ∧ b < 16
  | .mzero s n => s < 8 ∧ n < 8
  | .mload s n a => s < 8 ∧ n < 8 ∧ a < 16
  | .mdrain s n a m => s < 8 ∧ n < 8 ∧ a < 16 ∧ m < 2
  | .macq s n r => s < 8 ∧ n < 8 ∧ r < 2
  | .mstat s n c => s < 8 ∧ n < 8 ∧ c < 2
  | .ldaW s d a l => s < 8 ∧ d < 32 ∧ a < 32 ∧ l < 512
  | .ldaN s d a => s < 8 ∧ d < 32 ∧ a < 32
  | .stc s a b => s < 8 ∧ a < 32 ∧ b < 32
  | .amoaddD s d a b => s < 8 ∧ d < 32 ∧ a < 32 ∧ b < 32
  | .amomaxD s d a b => s < 8 ∧ d < 32 ∧ a < 32 ∧ b < 32
  | .amominD s d a b => s < 8 ∧ d < 32 ∧ a < 32 ∧ b < 32
  | .amoswpD s d a b => s < 8 ∧ d < 32 ∧ a < 32 ∧ b < 32
  | .amocasD s d a b => s < 8 ∧ d < 32 ∧ a < 32 ∧ b < 32
  | .amoandD s d a b => s < 8 ∧ d < 32 ∧ a < 32 ∧ b < 32
  | .amoorD s d a b => s < 8 ∧ d < 32 ∧ a < 32 ∧ b < 32
  | .amoxorD s d a b => s < 8 ∧ d < 32 ∧ a < 32 ∧ b < 32
  | .amoaddW s d a b => s < 8 ∧ d < 32 ∧ a < 32 ∧ b < 32
  | .amomaxW s d a b => s < 8 ∧ d < 32 ∧ a < 32 ∧ b < 32
  | .amominW s d a b => s < 8 ∧ d < 32 ∧ a < 32 ∧ b < 32
  | .amoswpW s d a b => s < 8 ∧ d < 32 ∧ a < 32 ∧ b < 32
  | .amocasW s d a b => s < 8 ∧ d < 32 ∧ a < 32 ∧ b < 32
  | .amoandW s d a b => s < 8 ∧ d < 32 ∧ a < 32 ∧ b < 32
  | .amoorW s d a b => s < 8 ∧ d < 32 ∧ a < 32 ∧ b < 32
  | .amoxorW s d a b => s < 8 ∧ d < 32 ∧ a < 32 ∧ b < 32
  | .amofadd s d a b => s < 8 ∧ d < 32 ∧ a < 32 ∧ b < 32
  | .amofmax s d a b => s < 8 ∧ d < 32 ∧ a < 32 ∧ b < 32
  | .fenceS s c => s < 8 ∧ c < 6
  | .rel s => s < 8
  | .acq s c => s < 8 ∧ c < 6
  | .wbr s a b => s < 8 ∧ a < 32 ∧ b < 32
  | .invr s a b => s < 8 ∧ a < 32 ∧ b < 32
  | .fempty s d => s < 8 ∧ d < 32
  | .fest s d n => s < 8 ∧ d < 32 ∧ n < 32
  | .elect s d a => s < 8 ∧ d < 32 ∧ a < 32
  | .waitw s d a b c => s < 8 ∧ d < 32 ∧ a < 32 ∧ b < 32 ∧ c < 4
  | .waitc s d a b c => s < 8 ∧ d < 32 ∧ a < 32 ∧ b < 32 ∧ c < 4
  | .barinit s a b => s < 8 ∧ a < 32 ∧ b < 32
  | .barrive s a => s < 8 ∧ a < 32
  | .barwait s a b => s < 8 ∧ a < 32 ∧ b < 32
  | .semw s n => s < 8 ∧ n < 8
  | .semp s n => s < 8 ∧ n < 8
  | .qcfg s a => s < 8 ∧ a < 32
  | .qdest s a => s < 8 ∧ a < 32
  | .copy s a b => s < 8 ∧ a < 32 ∧ b < 32
  | .qfence s a b => s < 8 ∧ a < 32 ∧ b < 32
  | .route s n a b => s < 8 ∧ n < 16 ∧ a < 8 ∧ b < 8
  | .rtopen s n a b => s < 8 ∧ n < 16 ∧ a < 32 ∧ b < 8
  | .rtret s a b => s < 8 ∧ a < 32 ∧ b < 8
  | .rtretDrop s a => s < 8 ∧ a < 32
  | .rtstat s d n => s < 8 ∧ d < 32 ∧ n < 16
  | .rttgt s a => s < 8 ∧ a < 32
  | .cset s a => s < 8 ∧ a < 32
  | .csend s a b => s < 8 ∧ a < 32 ∧ b < 32
  | .crecv s a b => s < 8 ∧ a < 32 ∧ b < 32
  | .crrs s a b => s < 8 ∧ a < 32 ∧ b < 32
  | .ccopy s a b => s < 8 ∧ a < 32 ∧ b < 32
  | .cwait s => s < 8
  | .cloop s j _ => s < 8 ∧ j < 4
  | .spawn s d a b => s < 8 ∧ d < 32 ∧ a < 32 ∧ b < 32
  | .spawnDie s d a => s < 8 ∧ d < 32 ∧ a < 32
  | .reap s d a => s < 8 ∧ d < 32 ∧ a < 32
  | .yield s => s < 8
  | .halt s => s < 8
  | .ckpt s a => s < 8 ∧ a < 32
  | .iterset s a => s < 8 ∧ a < 32
  | .iterinc s d => s < 8 ∧ d < 32
  | .trap s a => s < 8 ∧ a < 32
  | .tret s a => s < 8 ∧ a < 32
  | .segld s a b => s < 8 ∧ a < 32 ∧ b < 32
  | .rdcyc s d => s < 8 ∧ d < 32
  | .srd s d r => s < 8 ∧ d < 32 ∧ isSysReg r
  | .swr s a r => s < 8 ∧ a < 32 ∧ isSysReg r
  | .illegalInstruction _ => True
  | .pfReset => True
  | .bootVerifyDone => True
  | .firmwareBringupDone _ => True
  | .recoveryBufferWrite _ _ => True
  | .recoveryGo _ => True
  | .recoveryVerifyDone => True
  | .slotWriteDone _ => True
  | .spdmGetVersion => True
  | .spdmGetCapabilities => True
  | .spdmNegotiateAlgorithms _ _ => True
  | .spdmGetDigests => True
  | .spdmGetCertificate _ _ _ => True
  | .spdmChallenge _ _ => True
  | .spdmGetMeasurements _ => True
  | .spdmUnsupportedRequest _ => True
  | .powerWindow _ _ => True
  | .thermalRecovery => True
  | .clockChangeComplete => True
  | .clusterPowerGate _ => True
  | .clusterUngate _ => True
  | .clusterGateComplete => True
  | .endpointBind ep _ => ep < 512
  | .endpointUnbind ep => ep < 512
  | .sdKeyWrite part slot _ => part < 64 ∧ slot < 2
  | .sdCtlWrite part _ => part < 64
  | .epStatusClear ep => ep < 512
  | .keyFlush ep => ep < 512
  | .keyFlushComplete ep => ep < 512
  | .peerConfigWrite k _ => k < 9
  | .noRouteClear => True
  | .portStatClear port => port < 8
  | .ethLinkChange port _ => port < 8
  | .deliveryContextAllocate _ => True
  | .uetMessageSend _ => True
  | .uetWritePacket p => p.port < 8
  | .uetReadPacket p => p.port < 8
  | .uetSendPacket p => p.port < 8
  | .uetTaggedSend p => p.port < 8
  | .uetAtomicPacket p => p.port < 8
  | .ethHeldPlacement _ => True
  | .arrivalCounterAdd _ => True
  | .evUnusableExpire _ => True
  | .packetRelay p _ => p.port < 8
  | .combineContribution c _ => c.port < 8
  | .combineTimeout _ => True
  | .mrtEnable entry => entry < 64
  | .mrtDisable entry => entry < 64
  | .mrtDisableComplete entry => entry < 64
  | .cxlLinkDown port => port < 8
  | .driverQueueSubmit ssd q _ _ => ssd < 16 ∧ q < 16
  | .driverQueueCompletion ssd q _ _ _ => ssd < 16 ∧ q < 16
  | .dqCtlWrite ssd q _ => ssd < 16 ∧ q < 16
  | .dqClearDiscards ssd q => ssd < 16 ∧ q < 16
  | .dqCqHeadWrite ssd q _ => ssd < 16 ∧ q < 16
  | .namespaceEntryWrite entry _ => entry < 256
  | .freeFramePush part _ => part < 64
  | .storageFault _ => True
  | .storageReadComplete _ _ _ _ => True
  | .storageTimeout _ => True
  | .ssdLinkDown ssd => ssd < 16
  | .commandWindowWrite vf w _ _ => 1 ≤ vf ∧ vf ≤ 64 ∧ w < 16
  | .windowDiscardsClear vf w => 1 ≤ vf ∧ vf ≤ 64 ∧ w < 16
  | .launch vf w => 1 ≤ vf ∧ vf ≤ 64 ∧ w < 16
  | .arm vf w => 1 ≤ vf ∧ vf ≤ 64 ∧ w < 16
  | .hostCopy vf w die eng => 1 ≤ vf ∧ vf ≤ 64 ∧ w < 16 ∧ die < 4 ∧ eng < 16
  | .handleRegister vf w => 1 ≤ vf ∧ vf ≤ 64 ∧ w < 16
  | .handleRetire vf w => 1 ≤ vf ∧ vf ≤ 64 ∧ w < 16
  | .handleRetireComplete vf w => 1 ≤ vf ∧ vf ≤ 64 ∧ w < 16
  | .signal vf w _ => 1 ≤ vf ∧ vf ≤ 64 ∧ w < 16
  | .waitv vf w => 1 ≤ vf ∧ vf ≤ 64 ∧ w < 16
  | .waitvTimeout vf w => 1 ≤ vf ∧ vf ≤ 64 ∧ w < 16
  | .badOpCommand vf w => 1 ≤ vf ∧ vf ≤ 64 ∧ w < 16
  | .launchComplete part _ => part < 64
  | .cqHeadWrite vf _ => 1 ≤ vf ∧ vf ≤ 64
  | .windowAbort vf _ => 1 ≤ vf ∧ vf ≤ 64
  | .featureAccept _ => True
  | .partitionEnable part => part < 64
  | .partitionDisable part => part < 64
  | .functionLevelReset vf => 1 ≤ vf ∧ vf ≤ 64
  | .windowBRead vf _ _ => 1 ≤ vf ∧ vf ≤ 64
  | .windowBWrite vf _ _ => 1 ≤ vf ∧ vf ≤ 64
  | .launchPlacement part => part < 64
  | .displacedGroupResume part _ _ => part < 64
  | .groupMigrateRequest _ => True
  | .ckptLimitExpire part _ _ => part < 64
  | .migrationQuiesce part _ _ => part < 64
  | .migrationSave part _ _ => part < 64
  | .migrationRestore part _ _ => part < 64
  | .rotationTableApply tile => tile < 4096
  | .swapThresholdReached tile ctx => tile < 4096 ∧ ctx < 64
  | .contextSwap tile => tile < 4096
  | .contextRecordWriteback tile ctx => tile < 4096 ∧ ctx < 64
  | .streamPrefetch tile ctx sr => tile < 4096 ∧ ctx < 64 ∧ sr < 8
  | .streamOutputDrain tile ctx sr => tile < 4096 ∧ ctx < 64 ∧ sr < 8
  | .remoteReadClose _ => True
  | .registerFill _ => True
  | .loadResultLand _ => True
  | .divideResultLand tile => tile < 4096
  | .fpDivideResultLand tile => tile < 4096
  | .vectorUnitStart tile => tile < 4096
  | .vectorResultLand tile => tile < 4096
  | .matrixOperandFill tile => tile < 4096
  | .matrixStepLand tile => tile < 4096
  | .homeStoreApply _ => True
  | .homeLoad _ => True
  | .homeAtomic _ => True
  | .stampedWriteApply _ => True
  | .stampedWriteAck _ => True
  | .stampedLoadAtHome _ => True
  | .stampedLoadRetry tile ctx => tile < 4096 ∧ ctx < 64
  | .slimTimeout tile ctx => tile < 4096 ∧ ctx < 64
  | .staleWithdrawAck tile ctx => tile < 4096 ∧ ctx < 64
  | .stampSetRequest _ => True
  | .partialEviction tile _ => tile < 4096
  | .releaseQuery tile ctx => tile < 4096 ∧ ctx < 64
  | .releaseClearReturn tile ctx => tile < 4096 ∧ ctx < 64
  | .faultMessage _ => True
  | .pagerWalk _ => True
  | .faultWake _ => True
  | .shootdownRequest _ => True
  | .shootdownComplete => True
  | .tsetWrite part tenant _ => part < 64 ∧ tenant < 16
  | .tsetRangeSwitch part tenant => part < 64 ∧ tenant < 16
  | .correctableError slice => slice < 512
  | .sliceStatClear slice => slice < 512
  | .commutativeRangeWrite part idx _ => part < 64 ∧ idx < 16
  | .uncorrectableError _ => True
  | .nocHeaderError router _ => router < 512
  | .copyCommandEnqueue _ => True
  | .copyGranule die eng q => die < 4 ∧ eng < 16 ∧ q < 8
  | .copyComplete die eng q => die < 4 ∧ eng < 16 ∧ q < 8
  | .qfenceRelease die eng q => die < 4 ∧ eng < 16 ∧ q < 8
  | .copyMergeClose _ => True
  | .completionWordWrite _ => True
  | .flitArrive _ => True
  | .sendRetry tile ctx => tile < 4096 ∧ ctx < 64
  | .orphanNotice _ => True
  | .routeRowArrive _ => True
  | .routeHandoutResume tile => tile < 4096
  | .routeDropNotice _ => True
  | .routeReturnArrive _ => True
  | .reassemblyDeadline tile entry => tile < 4096 ∧ entry < 16
  | .collectiveStepStart _ => True
  | .collectiveContribution c => c.port < 8
  | .collectiveSendAck _ _ _ => True
  | .watchRetry _ => True
  | .hostWatchPoll _ => True
  | .trapAck vf _ => 1 ≤ vf ∧ vf ≤ 64
  | .tqHeadWrite vf _ => 1 ≤ vf ∧ vf ≤ 64
  | .crownTakeTrap tile => tile < 4096
  | .deferredTrap tile ctx => tile < 4096 ∧ ctx < 64
  | .registerWrite fn _ _ _ => fn < 65
  | .uetAcknowledgement _ _ _ => True
  | .stampSetComplete => True
  | .instructionCacheFill tile ctx => tile < 4096 ∧ ctx < 64
  | .trapQueueEnable vf => 1 ≤ vf ∧ vf ≤ 64

/-- The check that WF asks for, as a Bool. -/
def Instr.wf (i : Instr) : Bool :=
  match i with
  | .lui d _ => decide (d < 32)
  | .auipc d _ => decide (d < 32)
  | .jal d imm => decide (d < 32) && decide (imm.toNat % 2 = 0)
  | .jalr d a _ => decide (d < 32) && decide (a < 32)
  | .beq a b imm => decide (a < 32) && decide (b < 32) && decide (imm.toNat % 2 = 0)
  | .bne a b imm => decide (a < 32) && decide (b < 32) && decide (imm.toNat % 2 = 0)
  | .blt a b imm => decide (a < 32) && decide (b < 32) && decide (imm.toNat % 2 = 0)
  | .bge a b imm => decide (a < 32) && decide (b < 32) && decide (imm.toNat % 2 = 0)
  | .bltu a b imm => decide (a < 32) && decide (b < 32) && decide (imm.toNat % 2 = 0)
  | .bgeu a b imm => decide (a < 32) && decide (b < 32) && decide (imm.toNat % 2 = 0)
  | .lb d a _ => decide (d < 32) && decide (a < 32)
  | .lh d a _ => decide (d < 32) && decide (a < 32)
  | .lw d a _ => decide (d < 32) && decide (a < 32)
  | .ld d a _ => decide (d < 32) && decide (a < 32)
  | .lbu d a _ => decide (d < 32) && decide (a < 32)
  | .lhu d a _ => decide (d < 32) && decide (a < 32)
  | .lwu d a _ => decide (d < 32) && decide (a < 32)
  | .sb a b _ => decide (a < 32) && decide (b < 32)
  | .sh a b _ => decide (a < 32) && decide (b < 32)
  | .sw a b _ => decide (a < 32) && decide (b < 32)
  | .sd a b _ => decide (a < 32) && decide (b < 32)
  | .addi d a _ => decide (d < 32) && decide (a < 32)
  | .slti d a _ => decide (d < 32) && decide (a < 32)
  | .sltiu d a _ => decide (d < 32) && decide (a < 32)
  | .xori d a _ => decide (d < 32) && decide (a < 32)
  | .ori d a _ => decide (d < 32) && decide (a < 32)
  | .andi d a _ => decide (d < 32) && decide (a < 32)
  | .slli d a h => decide (d < 32) && decide (a < 32) && decide (h < 64)
  | .srli d a h => decide (d < 32) && decide (a < 32) && decide (h < 64)
  | .srai d a h => decide (d < 32) && decide (a < 32) && decide (h < 64)
  | .add d a b => decide (d < 32) && decide (a < 32) && decide (b < 32)
  | .sub d a b => decide (d < 32) && decide (a < 32) && decide (b < 32)
  | .sll d a b => decide (d < 32) && decide (a < 32) && decide (b < 32)
  | .slt d a b => decide (d < 32) && decide (a < 32) && decide (b < 32)
  | .sltu d a b => decide (d < 32) && decide (a < 32) && decide (b < 32)
  | .xor d a b => decide (d < 32) && decide (a < 32) && decide (b < 32)
  | .srl d a b => decide (d < 32) && decide (a < 32) && decide (b < 32)
  | .sra d a b => decide (d < 32) && decide (a < 32) && decide (b < 32)
  | .or d a b => decide (d < 32) && decide (a < 32) && decide (b < 32)
  | .and d a b => decide (d < 32) && decide (a < 32) && decide (b < 32)
  | .addiw d a _ => decide (d < 32) && decide (a < 32)
  | .slliw d a h => decide (d < 32) && decide (a < 32) && decide (h < 32)
  | .srliw d a h => decide (d < 32) && decide (a < 32) && decide (h < 32)
  | .sraiw d a h => decide (d < 32) && decide (a < 32) && decide (h < 32)
  | .addw d a b => decide (d < 32) && decide (a < 32) && decide (b < 32)
  | .subw d a b => decide (d < 32) && decide (a < 32) && decide (b < 32)
  | .sllw d a b => decide (d < 32) && decide (a < 32) && decide (b < 32)
  | .srlw d a b => decide (d < 32) && decide (a < 32) && decide (b < 32)
  | .sraw d a b => decide (d < 32) && decide (a < 32) && decide (b < 32)
  | .mul d a b => decide (d < 32) && decide (a < 32) && decide (b < 32)
  | .mulh d a b => decide (d < 32) && decide (a < 32) && decide (b < 32)
  | .mulhsu d a b => decide (d < 32) && decide (a < 32) && decide (b < 32)
  | .mulhu d a b => decide (d < 32) && decide (a < 32) && decide (b < 32)
  | .mulw d a b => decide (d < 32) && decide (a < 32) && decide (b < 32)
  | .div d a b => decide (d < 32) && decide (a < 32) && decide (b < 32)
  | .divu d a b => decide (d < 32) && decide (a < 32) && decide (b < 32)
  | .rem d a b => decide (d < 32) && decide (a < 32) && decide (b < 32)
  | .remu d a b => decide (d < 32) && decide (a < 32) && decide (b < 32)
  | .divw d a b => decide (d < 32) && decide (a < 32) && decide (b < 32)
  | .divuw d a b => decide (d < 32) && decide (a < 32) && decide (b < 32)
  | .remw d a b => decide (d < 32) && decide (a < 32) && decide (b < 32)
  | .remuw d a b => decide (d < 32) && decide (a < 32) && decide (b < 32)
  | .fadd s d a b => decide (s < 8) && decide (d < 32) && decide (a < 32) && decide (b < 32)
  | .fsub s d a b => decide (s < 8) && decide (d < 32) && decide (a < 32) && decide (b < 32)
  | .fmul s d a b => decide (s < 8) && decide (d < 32) && decide (a < 32) && decide (b < 32)
  | .fdiv s d a b => decide (s < 8) && decide (d < 32) && decide (a < 32) && decide (b < 32)
  | .fmin s d a b => decide (s < 8) && decide (d < 32) && decide (a < 32) && decide (b < 32)
  | .fmax s d a b => decide (s < 8) && decide (d < 32) && decide (a < 32) && decide (b < 32)
  | .feq s d a b => decide (s < 8) && decide (d < 32) && decide (a < 32) && decide (b < 32)
  | .flt s d a b => decide (s < 8) && decide (d < 32) && decide (a < 32) && decide (b < 32)
  | .fle s d a b => decide (s < 8) && decide (d < 32) && decide (a < 32) && decide (b < 32)
  | .fsgnj s d a b => decide (s < 8) && decide (d < 32) && decide (a < 32) && decide (b < 32)
  | .fsgnjn s d a b => decide (s < 8) && decide (d < 32) && decide (a < 32) && decide (b < 32)
  | .fsgnjx s d a b => decide (s < 8) && decide (d < 32) && decide (a < 32) && decide (b < 32)
  | .fmac s d a b => decide (s < 8) && decide (d < 32) && decide (a < 32) && decide (b < 32)
  | .fsqrt s d a => decide (s < 8) && decide (d < 32) && decide (a < 32)
  | .fclass s d a => decide (s < 8) && decide (d < 32) && decide (a < 32)
  | .fcvtws s d a => decide (s < 8) && decide (d < 32) && decide (a < 32)
  | .fcvtsw s d a => decide (s < 8) && decide (d < 32) && decide (a < 32)
  | .fcvtls s d a => decide (s < 8) && decide (d < 32) && decide (a < 32)
  | .fcvtsl s d a => decide (s < 8) && decide (d < 32) && decide (a < 32)
  | .fexp2 s d a => decide (s < 8) && decide (d < 32) && decide (a < 32)
  | .flog2 s d a => decide (s < 8) && decide (d < 32) && decide (a < 32)
  | .frcp s d a => decide (s < 8) && decide (d < 32) && decide (a < 32)
  | .frsq s d a => decide (s < 8) && decide (d < 32) && decide (a < 32)
  | .fpack s d a f => decide (s < 8) && decide (d < 32) && decide (a < 32) && decide (f < 32)
  | .funpk s d a f => decide (s < 8) && decide (d < 32) && decide (a < 32) && decide (f < 32)
  | .bfmt s n a => decide (s < 8) && decide (n < 3) && decide (a < 32)
  | .pset s a p => decide (s < 8) && decide (a < 32) && decide (p < 8)
  | .pget s d p => decide (s < 8) && decide (d < 32) && decide (p < 8)
  | .setvl s d a => decide (s < 8) && decide (d < 32) && decide (a < 32)
  | .sbind s a p => decide (s < 8) && decide (a < 32) && decide (p < 8)
  | .sunbind s p => decide (s < 8) && decide (p < 8)
  | .sdrain s m => decide (s < 8) && decide (m < 256)
  | .vadd s d a b => decide (s < 8) && decide (d < 16) && decide (a < 16) && decide (b < 16)
  | .vsub s d a b => decide (s < 8) && decide (d < 16) && decide (a < 16) && decide (b < 16)
  | .vmul s d a b => decide (s < 8) && decide (d < 16) && decide (a < 16) && decide (b < 16)
  | .vfma s d a b => decide (s < 8) && decide (d < 16) && decide (a < 16) && decide (b < 16)
  | .vmax s d a b => decide (s < 8) && decide (d < 16) && decide (a < 16) && decide (b < 16)
  | .vmin s d a b => decide (s < 8) && decide (d < 16) && decide (a < 16) && decide (b < 16)
  | .vamax s d a b => decide (s < 8) && decide (d < 16) && decide (a < 16) && decide (b < 16)
  | .vabs s d a => decide (s < 8) && decide (d < 16) && decide (a < 16)
  | .vneg s d a => decide (s < 8) && decide (d < 16) && decide (a < 16)
  | .vexp2 s d a => decide (s < 8) && decide (d < 16) && decide (a < 16)
  | .vrcp s d a => decide (s < 8) && decide (d < 16) && decide (a < 16)
  | .vrsq s d a => decide (s < 8) && decide (d < 16) && decide (a < 16)
  | .vscl s d x a => decide (s < 8) && decide (d < 16) && decide (x < 16) && decide (a < 16)
  | .vadds s d x a => decide (s < 8) && decide (d < 16) && decide (x < 16) && decide (a < 16)
  | .vmaxs s d x a => decide (s < 8) && decide (d < 16) && decide (x < 16) && decide (a < 16)
  | .vcpy s d a => decide (s < 8) && decide (d < 16) && decide (a < 16)
  | .vset s d x => decide (s < 8) && decide (d < 16) && decide (x < 16)
  | .vsel s d a b c => decide (s < 8) && decide (d < 16) && decide (a < 16) && decide (b < 16) && decide (c < 6)
  | .vreds s x a => decide (s < 8) && decide (x < 16) && decide (a < 16)
  | .vredm s x a m => decide (s < 8) && decide (x < 16) && decide (a < 16) && decide (m < 2)
  | .mma s n a b => decide (s < 8) && decide (n < 8) && decide (a < 16) && decide (b < 16)
  | .mzero s n => decide (s < 8) && decide (n < 8)
  | .mload s n a => decide (s < 8) && decide (n < 8) && decide (a < 16)
  | .mdrain s n a m => decide (s < 8) && decide (n < 8) && decide (a < 16) && decide (m < 2)
  | .macq s n r => decide (s < 8) && decide (n < 8) && decide (r < 2)
  | .mstat s n c => decide (s < 8) && decide (n < 8) && decide (c < 2)
  | .ldaW s d a l => decide (s < 8) && decide (d < 32) && decide (a < 32) && decide (l < 512)
  | .ldaN s d a => decide (s < 8) && decide (d < 32) && decide (a < 32)
  | .stc s a b => decide (s < 8) && decide (a < 32) && decide (b < 32)
  | .amoaddD s d a b => decide (s < 8) && decide (d < 32) && decide (a < 32) && decide (b < 32)
  | .amomaxD s d a b => decide (s < 8) && decide (d < 32) && decide (a < 32) && decide (b < 32)
  | .amominD s d a b => decide (s < 8) && decide (d < 32) && decide (a < 32) && decide (b < 32)
  | .amoswpD s d a b => decide (s < 8) && decide (d < 32) && decide (a < 32) && decide (b < 32)
  | .amocasD s d a b => decide (s < 8) && decide (d < 32) && decide (a < 32) && decide (b < 32)
  | .amoandD s d a b => decide (s < 8) && decide (d < 32) && decide (a < 32) && decide (b < 32)
  | .amoorD s d a b => decide (s < 8) && decide (d < 32) && decide (a < 32) && decide (b < 32)
  | .amoxorD s d a b => decide (s < 8) && decide (d < 32) && decide (a < 32) && decide (b < 32)
  | .amoaddW s d a b => decide (s < 8) && decide (d < 32) && decide (a < 32) && decide (b < 32)
  | .amomaxW s d a b => decide (s < 8) && decide (d < 32) && decide (a < 32) && decide (b < 32)
  | .amominW s d a b => decide (s < 8) && decide (d < 32) && decide (a < 32) && decide (b < 32)
  | .amoswpW s d a b => decide (s < 8) && decide (d < 32) && decide (a < 32) && decide (b < 32)
  | .amocasW s d a b => decide (s < 8) && decide (d < 32) && decide (a < 32) && decide (b < 32)
  | .amoandW s d a b => decide (s < 8) && decide (d < 32) && decide (a < 32) && decide (b < 32)
  | .amoorW s d a b => decide (s < 8) && decide (d < 32) && decide (a < 32) && decide (b < 32)
  | .amoxorW s d a b => decide (s < 8) && decide (d < 32) && decide (a < 32) && decide (b < 32)
  | .amofadd s d a b => decide (s < 8) && decide (d < 32) && decide (a < 32) && decide (b < 32)
  | .amofmax s d a b => decide (s < 8) && decide (d < 32) && decide (a < 32) && decide (b < 32)
  | .fenceS s c => decide (s < 8) && decide (c < 6)
  | .rel s => decide (s < 8)
  | .acq s c => decide (s < 8) && decide (c < 6)
  | .wbr s a b => decide (s < 8) && decide (a < 32) && decide (b < 32)
  | .invr s a b => decide (s < 8) && decide (a < 32) && decide (b < 32)
  | .fempty s d => decide (s < 8) && decide (d < 32)
  | .fest s d n => decide (s < 8) && decide (d < 32) && decide (n < 32)
  | .elect s d a => decide (s < 8) && decide (d < 32) && decide (a < 32)
  | .waitw s d a b c => decide (s < 8) && decide (d < 32) && decide (a < 32) && decide (b < 32) && decide (c < 4)
  | .waitc s d a b c => decide (s < 8) && decide (d < 32) && decide (a < 32) && decide (b < 32) && decide (c < 4)
  | .barinit s a b => decide (s < 8) && decide (a < 32) && decide (b < 32)
  | .barrive s a => decide (s < 8) && decide (a < 32)
  | .barwait s a b => decide (s < 8) && decide (a < 32) && decide (b < 32)
  | .semw s n => decide (s < 8) && decide (n < 8)
  | .semp s n => decide (s < 8) && decide (n < 8)
  | .qcfg s a => decide (s < 8) && decide (a < 32)
  | .qdest s a => decide (s < 8) && decide (a < 32)
  | .copy s a b => decide (s < 8) && decide (a < 32) && decide (b < 32)
  | .qfence s a b => decide (s < 8) && decide (a < 32) && decide (b < 32)
  | .route s n a b => decide (s < 8) && decide (n < 16) && decide (a < 8) && decide (b < 8)
  | .rtopen s n a b => decide (s < 8) && decide (n < 16) && decide (a < 32) && decide (b < 8)
  | .rtret s a b => decide (s < 8) && decide (a < 32) && decide (b < 8)
  | .rtretDrop s a => decide (s < 8) && decide (a < 32)
  | .rtstat s d n => decide (s < 8) && decide (d < 32) && decide (n < 16)
  | .rttgt s a => decide (s < 8) && decide (a < 32)
  | .cset s a => decide (s < 8) && decide (a < 32)
  | .csend s a b => decide (s < 8) && decide (a < 32) && decide (b < 32)
  | .crecv s a b => decide (s < 8) && decide (a < 32) && decide (b < 32)
  | .crrs s a b => decide (s < 8) && decide (a < 32) && decide (b < 32)
  | .ccopy s a b => decide (s < 8) && decide (a < 32) && decide (b < 32)
  | .cwait s => decide (s < 8)
  | .cloop s j _ => decide (s < 8) && decide (j < 4)
  | .spawn s d a b => decide (s < 8) && decide (d < 32) && decide (a < 32) && decide (b < 32)
  | .spawnDie s d a => decide (s < 8) && decide (d < 32) && decide (a < 32)
  | .reap s d a => decide (s < 8) && decide (d < 32) && decide (a < 32)
  | .yield s => decide (s < 8)
  | .halt s => decide (s < 8)
  | .ckpt s a => decide (s < 8) && decide (a < 32)
  | .iterset s a => decide (s < 8) && decide (a < 32)
  | .iterinc s d => decide (s < 8) && decide (d < 32)
  | .trap s a => decide (s < 8) && decide (a < 32)
  | .tret s a => decide (s < 8) && decide (a < 32)
  | .segld s a b => decide (s < 8) && decide (a < 32) && decide (b < 32)
  | .rdcyc s d => decide (s < 8) && decide (d < 32)
  | .srd s d r => decide (s < 8) && decide (d < 32) && decide (isSysReg r)
  | .swr s a r => decide (s < 8) && decide (a < 32) && decide (isSysReg r)
  | .illegalInstruction _ => true
  | .pfReset => true
  | .bootVerifyDone => true
  | .firmwareBringupDone _ => true
  | .recoveryBufferWrite _ _ => true
  | .recoveryGo _ => true
  | .recoveryVerifyDone => true
  | .slotWriteDone _ => true
  | .spdmGetVersion => true
  | .spdmGetCapabilities => true
  | .spdmNegotiateAlgorithms _ _ => true
  | .spdmGetDigests => true
  | .spdmGetCertificate _ _ _ => true
  | .spdmChallenge _ _ => true
  | .spdmGetMeasurements _ => true
  | .spdmUnsupportedRequest _ => true
  | .powerWindow _ _ => true
  | .thermalRecovery => true
  | .clockChangeComplete => true
  | .clusterPowerGate _ => true
  | .clusterUngate _ => true
  | .clusterGateComplete => true
  | .endpointBind ep _ => decide (ep < 512)
  | .endpointUnbind ep => decide (ep < 512)
  | .sdKeyWrite part slot _ => decide (part < 64) && decide (slot < 2)
  | .sdCtlWrite part _ => decide (part < 64)
  | .epStatusClear ep => decide (ep < 512)
  | .keyFlush ep => decide (ep < 512)
  | .keyFlushComplete ep => decide (ep < 512)
  | .peerConfigWrite k _ => decide (k < 9)
  | .noRouteClear => true
  | .portStatClear port => decide (port < 8)
  | .ethLinkChange port _ => decide (port < 8)
  | .deliveryContextAllocate _ => true
  | .uetMessageSend _ => true
  | .uetWritePacket p => decide (p.port < 8)
  | .uetReadPacket p => decide (p.port < 8)
  | .uetSendPacket p => decide (p.port < 8)
  | .uetTaggedSend p => decide (p.port < 8)
  | .uetAtomicPacket p => decide (p.port < 8)
  | .ethHeldPlacement _ => true
  | .arrivalCounterAdd _ => true
  | .evUnusableExpire _ => true
  | .packetRelay p _ => decide (p.port < 8)
  | .combineContribution c _ => decide (c.port < 8)
  | .combineTimeout _ => true
  | .mrtEnable entry => decide (entry < 64)
  | .mrtDisable entry => decide (entry < 64)
  | .mrtDisableComplete entry => decide (entry < 64)
  | .cxlLinkDown port => decide (port < 8)
  | .driverQueueSubmit ssd q _ _ => decide (ssd < 16) && decide (q < 16)
  | .driverQueueCompletion ssd q _ _ _ => decide (ssd < 16) && decide (q < 16)
  | .dqCtlWrite ssd q _ => decide (ssd < 16) && decide (q < 16)
  | .dqClearDiscards ssd q => decide (ssd < 16) && decide (q < 16)
  | .dqCqHeadWrite ssd q _ => decide (ssd < 16) && decide (q < 16)
  | .namespaceEntryWrite entry _ => decide (entry < 256)
  | .freeFramePush part _ => decide (part < 64)
  | .storageFault _ => true
  | .storageReadComplete _ _ _ _ => true
  | .storageTimeout _ => true
  | .ssdLinkDown ssd => decide (ssd < 16)
  | .commandWindowWrite vf w _ _ => decide (1 ≤ vf) && decide (vf ≤ 64) && decide (w < 16)
  | .windowDiscardsClear vf w => decide (1 ≤ vf) && decide (vf ≤ 64) && decide (w < 16)
  | .launch vf w => decide (1 ≤ vf) && decide (vf ≤ 64) && decide (w < 16)
  | .arm vf w => decide (1 ≤ vf) && decide (vf ≤ 64) && decide (w < 16)
  | .hostCopy vf w die eng => decide (1 ≤ vf) && decide (vf ≤ 64) && decide (w < 16) && decide (die < 4) && decide (eng < 16)
  | .handleRegister vf w => decide (1 ≤ vf) && decide (vf ≤ 64) && decide (w < 16)
  | .handleRetire vf w => decide (1 ≤ vf) && decide (vf ≤ 64) && decide (w < 16)
  | .handleRetireComplete vf w => decide (1 ≤ vf) && decide (vf ≤ 64) && decide (w < 16)
  | .signal vf w _ => decide (1 ≤ vf) && decide (vf ≤ 64) && decide (w < 16)
  | .waitv vf w => decide (1 ≤ vf) && decide (vf ≤ 64) && decide (w < 16)
  | .waitvTimeout vf w => decide (1 ≤ vf) && decide (vf ≤ 64) && decide (w < 16)
  | .badOpCommand vf w => decide (1 ≤ vf) && decide (vf ≤ 64) && decide (w < 16)
  | .launchComplete part _ => decide (part < 64)
  | .cqHeadWrite vf _ => decide (1 ≤ vf) && decide (vf ≤ 64)
  | .windowAbort vf _ => decide (1 ≤ vf) && decide (vf ≤ 64)
  | .featureAccept _ => true
  | .partitionEnable part => decide (part < 64)
  | .partitionDisable part => decide (part < 64)
  | .functionLevelReset vf => decide (1 ≤ vf) && decide (vf ≤ 64)
  | .windowBRead vf _ _ => decide (1 ≤ vf) && decide (vf ≤ 64)
  | .windowBWrite vf _ _ => decide (1 ≤ vf) && decide (vf ≤ 64)
  | .launchPlacement part => decide (part < 64)
  | .displacedGroupResume part _ _ => decide (part < 64)
  | .groupMigrateRequest _ => true
  | .ckptLimitExpire part _ _ => decide (part < 64)
  | .migrationQuiesce part _ _ => decide (part < 64)
  | .migrationSave part _ _ => decide (part < 64)
  | .migrationRestore part _ _ => decide (part < 64)
  | .rotationTableApply tile => decide (tile < 4096)
  | .swapThresholdReached tile ctx => decide (tile < 4096) && decide (ctx < 64)
  | .contextSwap tile => decide (tile < 4096)
  | .contextRecordWriteback tile ctx => decide (tile < 4096) && decide (ctx < 64)
  | .streamPrefetch tile ctx sr => decide (tile < 4096) && decide (ctx < 64) && decide (sr < 8)
  | .streamOutputDrain tile ctx sr => decide (tile < 4096) && decide (ctx < 64) && decide (sr < 8)
  | .remoteReadClose _ => true
  | .registerFill _ => true
  | .loadResultLand _ => true
  | .divideResultLand tile => decide (tile < 4096)
  | .fpDivideResultLand tile => decide (tile < 4096)
  | .vectorUnitStart tile => decide (tile < 4096)
  | .vectorResultLand tile => decide (tile < 4096)
  | .matrixOperandFill tile => decide (tile < 4096)
  | .matrixStepLand tile => decide (tile < 4096)
  | .homeStoreApply _ => true
  | .homeLoad _ => true
  | .homeAtomic _ => true
  | .stampedWriteApply _ => true
  | .stampedWriteAck _ => true
  | .stampedLoadAtHome _ => true
  | .stampedLoadRetry tile ctx => decide (tile < 4096) && decide (ctx < 64)
  | .slimTimeout tile ctx => decide (tile < 4096) && decide (ctx < 64)
  | .staleWithdrawAck tile ctx => decide (tile < 4096) && decide (ctx < 64)
  | .stampSetRequest _ => true
  | .partialEviction tile _ => decide (tile < 4096)
  | .releaseQuery tile ctx => decide (tile < 4096) && decide (ctx < 64)
  | .releaseClearReturn tile ctx => decide (tile < 4096) && decide (ctx < 64)
  | .faultMessage _ => true
  | .pagerWalk _ => true
  | .faultWake _ => true
  | .shootdownRequest _ => true
  | .shootdownComplete => true
  | .tsetWrite part tenant _ => decide (part < 64) && decide (tenant < 16)
  | .tsetRangeSwitch part tenant => decide (part < 64) && decide (tenant < 16)
  | .correctableError slice => decide (slice < 512)
  | .sliceStatClear slice => decide (slice < 512)
  | .commutativeRangeWrite part idx _ => decide (part < 64) && decide (idx < 16)
  | .uncorrectableError _ => true
  | .nocHeaderError router _ => decide (router < 512)
  | .copyCommandEnqueue _ => true
  | .copyGranule die eng q => decide (die < 4) && decide (eng < 16) && decide (q < 8)
  | .copyComplete die eng q => decide (die < 4) && decide (eng < 16) && decide (q < 8)
  | .qfenceRelease die eng q => decide (die < 4) && decide (eng < 16) && decide (q < 8)
  | .copyMergeClose _ => true
  | .completionWordWrite _ => true
  | .flitArrive _ => true
  | .sendRetry tile ctx => decide (tile < 4096) && decide (ctx < 64)
  | .orphanNotice _ => true
  | .routeRowArrive _ => true
  | .routeHandoutResume tile => decide (tile < 4096)
  | .routeDropNotice _ => true
  | .routeReturnArrive _ => true
  | .reassemblyDeadline tile entry => decide (tile < 4096) && decide (entry < 16)
  | .collectiveStepStart _ => true
  | .collectiveContribution c => decide (c.port < 8)
  | .collectiveSendAck _ _ _ => true
  | .watchRetry _ => true
  | .hostWatchPoll _ => true
  | .trapAck vf _ => decide (1 ≤ vf) && decide (vf ≤ 64)
  | .tqHeadWrite vf _ => decide (1 ≤ vf) && decide (vf ≤ 64)
  | .crownTakeTrap tile => decide (tile < 4096)
  | .deferredTrap tile ctx => decide (tile < 4096) && decide (ctx < 64)
  | .registerWrite fn _ _ _ => decide (fn < 65)
  | .uetAcknowledgement _ _ _ => true
  | .stampSetComplete => true
  | .instructionCacheFill tile ctx => decide (tile < 4096) && decide (ctx < 64)
  | .trapQueueEnable vf => decide (1 ≤ vf) && decide (vf ≤ 64)

end Sys2Proof
end

