-- ==== Sys2Proof/Decode.lean ====
section
/-!
DEFINITION. The decoder and the encoder of R280 to R290. A word is read as the number its four little-endian bytes make
(R278); decoding is total and rejects by name.
-/
namespace Sys2Proof

/-- Why a word is no instruction (R291, check 1): no such major opcode (R285), no such cell of the space (R286 to R290), or
a field the map marks zero that is not, or a numbered field beyond its range (R282, R283). -/
inductive Reject | majorOpcode | selector | reserved
  deriving DecidableEq, Repr

/-- An instruction whose reserved fields must satisfy c (R282). -/
def req (c : Prop) [Decidable c] (i : Instr) : Except Reject Instr := if c then .ok i else .error .reserved

/-- R280: the I immediate of fields f7 and b. -/
def immI (f7 b : Nat) : BitVec 12 := BitVec.ofNat 12 (32 * f7 + b)
/-- R280: the S immediate of fields f7 and d. -/
def immS (f7 d : Nat) : BitVec 12 := BitVec.ofNat 12 (32 * f7 + d)
/-- R280: the B immediate: bit 31 holds imm[12], bits 30..25 imm[10:5], bits 11..8 imm[4:1] and bit 7 imm[11]. -/
def immB (f7 d : Nat) : BitVec 13 :=
  BitVec.ofNat 13 (4096 * (f7 / 64) + 2048 * (d % 2) + 32 * (f7 % 64) + 2 * (d / 2))
/-- R280: the U immediate, bits 31..12. -/
def immU (f7 f3 a b : Nat) : BitVec 20 := BitVec.ofNat 20 (8192 * f7 + 256 * b + 8 * a + f3)
/-- R280: the J immediate: bits 31..12 hold imm[20], imm[10:1], imm[11] and imm[19:12]. -/
def immJ (f7 f3 a b : Nat) : BitVec 21 :=
  BitVec.ofNat 21 (1048576 * (f7 / 64) + 32768 * a + 4096 * f3 + 2048 * (b % 2) + 32 * (f7 % 64) + 2 * (b / 2))


/-- R286: the Load space, by its fields: f7 bits 31..25, f3 bits 14..12, d bits 11..7, a bits 19..15, b bits 24..20. -/
def decLoad (f7 f3 d a b : Nat) : Except Reject Instr :=
  if f3 = 0 then
    .ok (.lb d a (immI f7 b))
  else if f3 = 1 then
    .ok (.lh d a (immI f7 b))
  else if f3 = 2 then
    .ok (.lw d a (immI f7 b))
  else if f3 = 3 then
    .ok (.ld d a (immI f7 b))
  else if f3 = 4 then
    .ok (.lbu d a (immI f7 b))
  else if f3 = 5 then
    .ok (.lhu d a (immI f7 b))
  else if f3 = 6 then
    .ok (.lwu d a (immI f7 b))
  else .error .selector

/-- R286: the Store space, by its fields: f7 bits 31..25, f3 bits 14..12, d bits 11..7, a bits 19..15, b bits 24..20. -/
def decStore (f7 f3 d a b : Nat) : Except Reject Instr :=
  if f3 = 0 then
    .ok (.sb a b (immS f7 d))
  else if f3 = 1 then
    .ok (.sh a b (immS f7 d))
  else if f3 = 2 then
    .ok (.sw a b (immS f7 d))
  else if f3 = 3 then
    .ok (.sd a b (immS f7 d))
  else .error .selector

/-- R286: the Branch space, by its fields: f7 bits 31..25, f3 bits 14..12, d bits 11..7, a bits 19..15, b bits 24..20. -/
def decBranch (f7 f3 d a b : Nat) : Except Reject Instr :=
  if f3 = 0 then
    .ok (.beq a b (immB f7 d))
  else if f3 = 1 then
    .ok (.bne a b (immB f7 d))
  else if f3 = 4 then
    .ok (.blt a b (immB f7 d))
  else if f3 = 5 then
    .ok (.bge a b (immB f7 d))
  else if f3 = 6 then
    .ok (.bltu a b (immB f7 d))
  else if f3 = 7 then
    .ok (.bgeu a b (immB f7 d))
  else .error .selector

/-- R286: the OpImm space, by its fields: f7 bits 31..25, f3 bits 14..12, d bits 11..7, a bits 19..15, b bits 24..20. -/
def decOpImm (f7 f3 d a b : Nat) : Except Reject Instr :=
  if f3 = 0 then
    .ok (.addi d a (immI f7 b))
  else if f3 = 1 then
    if f7 / 2 = 0 then .ok (.slli d a (f7 % 2 * 32 + b))
    else .error .selector
  else if f3 = 2 then
    .ok (.slti d a (immI f7 b))
  else if f3 = 3 then
    .ok (.sltiu d a (immI f7 b))
  else if f3 = 4 then
    .ok (.xori d a (immI f7 b))
  else if f3 = 5 then
    if f7 / 2 = 0 then .ok (.srli d a (f7 % 2 * 32 + b))
    else if f7 / 2 = 16 then .ok (.srai d a (f7 % 2 * 32 + b))
    else .error .selector
  else if f3 = 6 then
    .ok (.ori d a (immI f7 b))
  else if f3 = 7 then
    .ok (.andi d a (immI f7 b))
  else .error .selector

/-- R286: the OpImm32 space, by its fields: f7 bits 31..25, f3 bits 14..12, d bits 11..7, a bits 19..15, b bits 24..20. -/
def decOpImm32 (f7 f3 d a b : Nat) : Except Reject Instr :=
  if f3 = 0 then
    .ok (.addiw d a (immI f7 b))
  else if f3 = 1 then
    if f7 = 0 then .ok (.slliw d a b)
    else .error .selector
  else if f3 = 5 then
    if f7 = 0 then .ok (.srliw d a b)
    else if f7 = 32 then .ok (.sraiw d a b)
    else .error .selector
  else .error .selector

/-- R286: the Op space, by its fields: f7 bits 31..25, f3 bits 14..12, d bits 11..7, a bits 19..15, b bits 24..20. -/
def decOp (f7 f3 d a b : Nat) : Except Reject Instr :=
  if f3 = 0 then
    if f7 = 0 then .ok (.add d a b)
    else if f7 = 32 then .ok (.sub d a b)
    else if f7 = 1 then .ok (.mul d a b)
    else .error .selector
  else if f3 = 1 then
    if f7 = 0 then .ok (.sll d a b)
    else if f7 = 1 then .ok (.mulh d a b)
    else .error .selector
  else if f3 = 2 then
    if f7 = 0 then .ok (.slt d a b)
    else if f7 = 1 then .ok (.mulhsu d a b)
    else .error .selector
  else if f3 = 3 then
    if f7 = 0 then .ok (.sltu d a b)
    else if f7 = 1 then .ok (.mulhu d a b)
    else .error .selector
  else if f3 = 4 then
    if f7 = 0 then .ok (.xor d a b)
    else if f7 = 1 then .ok (.div d a b)
    else .error .selector
  else if f3 = 5 then
    if f7 = 0 then .ok (.srl d a b)
    else if f7 = 32 then .ok (.sra d a b)
    else if f7 = 1 then .ok (.divu d a b)
    else .error .selector
  else if f3 = 6 then
    if f7 = 0 then .ok (.or d a b)
    else if f7 = 1 then .ok (.rem d a b)
    else .error .selector
  else if f3 = 7 then
    if f7 = 0 then .ok (.and d a b)
    else if f7 = 1 then .ok (.remu d a b)
    else .error .selector
  else .error .selector

/-- R286: the Op32 space, by its fields: f7 bits 31..25, f3 bits 14..12, d bits 11..7, a bits 19..15, b bits 24..20. -/
def decOp32 (f7 f3 d a b : Nat) : Except Reject Instr :=
  if f3 = 0 then
    if f7 = 0 then .ok (.addw d a b)
    else if f7 = 32 then .ok (.subw d a b)
    else if f7 = 1 then .ok (.mulw d a b)
    else .error .selector
  else if f3 = 1 then
    if f7 = 0 then .ok (.sllw d a b)
    else .error .selector
  else if f3 = 4 then
    if f7 = 1 then .ok (.divw d a b)
    else .error .selector
  else if f3 = 5 then
    if f7 = 0 then .ok (.srlw d a b)
    else if f7 = 32 then .ok (.sraw d a b)
    else if f7 = 1 then .ok (.divuw d a b)
    else .error .selector
  else if f3 = 6 then
    if f7 = 1 then .ok (.remw d a b)
    else .error .selector
  else if f3 = 7 then
    if f7 = 1 then .ok (.remuw d a b)
    else .error .selector
  else .error .selector

/-- R287: the Custom0 space, by its fields: f7 bits 31..25, f3 bits 14..12, d bits 11..7, a bits 19..15, b bits 24..20. -/
def decCustom0 (f7 f3 d a b : Nat) : Except Reject Instr :=
  if f3 = 0 then
    if f7 % 16 = 0 then .ok (.fadd (f7 / 16) d a b)
    else if f7 % 16 = 1 then .ok (.fsub (f7 / 16) d a b)
    else if f7 % 16 = 2 then .ok (.fmul (f7 / 16) d a b)
    else if f7 % 16 = 3 then .ok (.fdiv (f7 / 16) d a b)
    else if f7 % 16 = 4 then .ok (.fmin (f7 / 16) d a b)
    else if f7 % 16 = 5 then .ok (.fmax (f7 / 16) d a b)
    else if f7 % 16 = 6 then .ok (.feq (f7 / 16) d a b)
    else if f7 % 16 = 7 then .ok (.flt (f7 / 16) d a b)
    else if f7 % 16 = 8 then .ok (.fle (f7 / 16) d a b)
    else if f7 % 16 = 9 then .ok (.fsgnj (f7 / 16) d a b)
    else if f7 % 16 = 10 then .ok (.fsgnjn (f7 / 16) d a b)
    else if f7 % 16 = 11 then .ok (.fsgnjx (f7 / 16) d a b)
    else if f7 % 16 = 12 then .ok (.fmac (f7 / 16) d a b)
    else .error .selector
  else if f3 = 1 then
    if f7 % 16 = 0 ∧ b = 0 then .ok (.fsqrt (f7 / 16) d a)
    else if f7 % 16 = 0 ∧ b = 1 then .ok (.fclass (f7 / 16) d a)
    else if f7 % 16 = 0 ∧ b = 2 then .ok (.fcvtws (f7 / 16) d a)
    else if f7 % 16 = 0 ∧ b = 3 then .ok (.fcvtsw (f7 / 16) d a)
    else if f7 % 16 = 0 ∧ b = 4 then .ok (.fcvtls (f7 / 16) d a)
    else if f7 % 16 = 0 ∧ b = 5 then .ok (.fcvtsl (f7 / 16) d a)
    else if f7 % 16 = 0 ∧ b = 6 then .ok (.fexp2 (f7 / 16) d a)
    else if f7 % 16 = 0 ∧ b = 7 then .ok (.flog2 (f7 / 16) d a)
    else if f7 % 16 = 0 ∧ b = 8 then .ok (.frcp (f7 / 16) d a)
    else if f7 % 16 = 0 ∧ b = 9 then .ok (.frsq (f7 / 16) d a)
    else .error .selector
  else if f3 = 2 then
    if f7 % 2 = 0 then req (f7 % 16 < 2) (.fpack (f7 / 16) d a b)
    else if f7 % 2 = 1 then req (f7 % 16 < 2) (.funpk (f7 / 16) d a b)
    else .error .selector
  else if f3 = 3 then
    req (f7 % 16 = 0 ∧ b < 3 ∧ d = 0) (.bfmt (f7 / 16) b a)
  else if f3 = 4 then
    if f7 % 16 / 8 = 0 then req (b < 8 ∧ d = 0 ∧ f7 % 8 = 0) (.pset (f7 / 16) a b)
    else if f7 % 16 / 8 = 1 then req (b < 8 ∧ a = 0 ∧ f7 % 8 = 0) (.pget (f7 / 16) d b)
    else .error .selector
  else if f3 = 5 then
    req (f7 % 16 = 0 ∧ b = 0) (.setvl (f7 / 16) d a)
  else if f3 = 6 then
    if f7 % 16 / 8 = 0 then req (b < 8 ∧ d = 0 ∧ f7 % 8 = 0) (.sbind (f7 / 16) a b)
    else if f7 % 16 / 8 = 1 then req (b < 8 ∧ d = 0 ∧ a = 0 ∧ f7 % 8 = 0) (.sunbind (f7 / 16) b)
    else .error .selector
  else if f3 = 7 then
    req (f7 % 16 < 8 ∧ d = 0 ∧ a = 0) (.sdrain (f7 / 16) (f7 % 16 * 32 + b))
  else .error .selector

/-- R289: the Custom2 space, by its fields: f7 bits 31..25, f3 bits 14..12, d bits 11..7, a bits 19..15, b bits 24..20. -/
def decCustom2 (f7 f3 d a b : Nat) : Except Reject Instr :=
  if f3 = 0 then
    .ok (.ldaW (f7 / 16) d a (f7 % 16 * 32 + b))
  else if f3 = 1 then
    if f7 % 16 = 0 then req (b = 0) (.ldaN (f7 / 16) d a)
    else if f7 % 16 = 1 then req (d = 0) (.stc (f7 / 16) a b)
    else .error .selector
  else if f3 = 2 then
    if f7 % 16 = 0 then .ok (.amoaddD (f7 / 16) d a b)
    else if f7 % 16 = 1 then .ok (.amomaxD (f7 / 16) d a b)
    else if f7 % 16 = 2 then .ok (.amominD (f7 / 16) d a b)
    else if f7 % 16 = 3 then .ok (.amoswpD (f7 / 16) d a b)
    else if f7 % 16 = 4 then .ok (.amocasD (f7 / 16) d a b)
    else if f7 % 16 = 5 then .ok (.amoandD (f7 / 16) d a b)
    else if f7 % 16 = 6 then .ok (.amoorD (f7 / 16) d a b)
    else if f7 % 16 = 7 then .ok (.amoxorD (f7 / 16) d a b)
    else .error .selector
  else if f3 = 3 then
    if f7 % 16 = 0 then .ok (.amoaddW (f7 / 16) d a b)
    else if f7 % 16 = 1 then .ok (.amomaxW (f7 / 16) d a b)
    else if f7 % 16 = 2 then .ok (.amominW (f7 / 16) d a b)
    else if f7 % 16 = 3 then .ok (.amoswpW (f7 / 16) d a b)
    else if f7 % 16 = 4 then .ok (.amocasW (f7 / 16) d a b)
    else if f7 % 16 = 5 then .ok (.amoandW (f7 / 16) d a b)
    else if f7 % 16 = 6 then .ok (.amoorW (f7 / 16) d a b)
    else if f7 % 16 = 7 then .ok (.amoxorW (f7 / 16) d a b)
    else if f7 % 16 = 8 then .ok (.amofadd (f7 / 16) d a b)
    else if f7 % 16 = 9 then .ok (.amofmax (f7 / 16) d a b)
    else .error .selector
  else if f3 = 4 then
    if f7 % 16 / 2 = 0 then req (d = 0 ∧ a = 0 ∧ f7 % 2 = 0 ∧ b < 6) (.fenceS (f7 / 16) b)
    else if f7 % 16 / 2 = 1 then req (d = 0 ∧ a = 0 ∧ f7 % 2 = 0 ∧ b = 0) (.rel (f7 / 16))
    else if f7 % 16 / 2 = 2 then req (d = 0 ∧ a = 0 ∧ f7 % 2 = 0 ∧ b < 6) (.acq (f7 / 16) b)
    else .error .selector
  else if f3 = 5 then
    if f7 % 16 = 0 then req (d = 0) (.wbr (f7 / 16) a b)
    else if f7 % 16 = 1 then req (d = 0) (.invr (f7 / 16) a b)
    else if f7 % 16 = 2 then req (a = 0 ∧ b = 0) (.fempty (f7 / 16) d)
    else if f7 % 16 = 3 then req (b = 0) (.fest (f7 / 16) d a)
    else if f7 % 16 = 4 then req (b = 0) (.elect (f7 / 16) d a)
    else .error .selector
  else if f3 = 6 then
    if f7 % 16 / 4 = 0 then .ok (.waitw (f7 / 16) d a b (f7 % 4))
    else if f7 % 16 / 4 = 1 then .ok (.waitc (f7 / 16) d a b (f7 % 4))
    else .error .selector
  else if f3 = 7 then
    if f7 % 16 = 0 then req (d = 0) (.barinit (f7 / 16) a b)
    else if f7 % 16 = 1 then req (d = 0 ∧ b = 0) (.barrive (f7 / 16) a)
    else if f7 % 16 = 2 then req (d = 0) (.barwait (f7 / 16) a b)
    else if f7 % 16 = 3 then req (b < 8 ∧ d = 0 ∧ a = 0) (.semw (f7 / 16) b)
    else if f7 % 16 = 4 then req (b < 8 ∧ d = 0 ∧ a = 0) (.semp (f7 / 16) b)
    else .error .selector
  else .error .selector

/-- R290: the Custom3 space, by its fields: f7 bits 31..25, f3 bits 14..12, d bits 11..7, a bits 19..15, b bits 24..20. -/
def decCustom3 (f7 f3 d a b : Nat) : Except Reject Instr :=
  if f3 = 0 then
    if f7 % 16 = 0 then req (d = 0 ∧ b = 0) (.qcfg (f7 / 16) a)
    else if f7 % 16 = 1 then req (d = 0 ∧ b = 0) (.qdest (f7 / 16) a)
    else if f7 % 16 = 2 then req (d = 0) (.copy (f7 / 16) a b)
    else if f7 % 16 = 3 then req (d = 0) (.qfence (f7 / 16) a b)
    else .error .selector
  else if f3 = 1 then
    if f7 % 16 = 0 then req (b < 8 ∧ a < 8 ∧ d < 16) (.route (f7 / 16) d a b)
    else if f7 % 16 = 1 then req (b < 8 ∧ d < 16) (.rtopen (f7 / 16) d a b)
    else if f7 % 16 = 2 then req (b < 8 ∧ d = 0) (.rtret (f7 / 16) a b)
    else if f7 % 16 = 3 then req (d = 0 ∧ b = 0) (.rtretDrop (f7 / 16) a)
    else if f7 % 16 = 4 then req (a < 16 ∧ b = 0) (.rtstat (f7 / 16) d a)
    else if f7 % 16 = 5 then req (d = 0 ∧ b = 0) (.rttgt (f7 / 16) a)
    else .error .selector
  else if f3 = 2 then
    if f7 % 16 = 0 then req (d = 0 ∧ b = 0) (.cset (f7 / 16) a)
    else if f7 % 16 = 1 then req (d = 0) (.csend (f7 / 16) a b)
    else if f7 % 16 = 2 then req (d = 0) (.crecv (f7 / 16) a b)
    else if f7 % 16 = 3 then req (d = 0) (.crrs (f7 / 16) a b)
    else if f7 % 16 = 4 then req (d = 0) (.ccopy (f7 / 16) a b)
    else if f7 % 16 = 5 then req (d = 0 ∧ a = 0 ∧ b = 0) (.cwait (f7 / 16))
    else .error .selector
  else if f3 = 3 then
    req (d < 4 ∧ a = 0) (.cloop (f7 / 16) d (BitVec.ofNat 9 (f7 % 16 * 32 + b)))
  else if f3 = 4 then
    if f7 % 16 = 0 then .ok (.spawn (f7 / 16) d a b)
    else if f7 % 16 = 1 then req (b = 0) (.spawnDie (f7 / 16) d a)
    else if f7 % 16 = 2 then req (b = 0) (.reap (f7 / 16) d a)
    else if f7 % 16 = 3 then req (d = 0 ∧ a = 0 ∧ b = 0) (.yield (f7 / 16))
    else if f7 % 16 = 4 then req (d = 0 ∧ a = 0 ∧ b = 0) (.halt (f7 / 16))
    else if f7 % 16 = 5 then req (d = 0 ∧ b = 0) (.ckpt (f7 / 16) a)
    else if f7 % 16 = 6 then req (d = 0 ∧ b = 0) (.iterset (f7 / 16) a)
    else if f7 % 16 = 7 then req (a = 0 ∧ b = 0) (.iterinc (f7 / 16) d)
    else if f7 % 16 = 8 then req (d = 0 ∧ b = 0) (.trap (f7 / 16) a)
    else if f7 % 16 = 9 then req (d = 0 ∧ b = 0) (.tret (f7 / 16) a)
    else if f7 % 16 = 10 then req (d = 0) (.segld (f7 / 16) a b)
    else if f7 % 16 = 11 then req (a = 0 ∧ b = 0) (.rdcyc (f7 / 16) d)
    else .error .selector
  else if f3 = 6 then
    req (a = 0 ∧ isSysReg (f7 % 16 * 32 + b)) (.srd (f7 / 16) d (f7 % 16 * 32 + b))
  else if f3 = 7 then
    req (d = 0 ∧ isSysReg (f7 % 16 * 32 + b)) (.swr (f7 / 16) a (f7 % 16 * 32 + b))
  else .error .selector

/-- R288: the vector operations of custom-1 (kind 0), by vop, mod (m), D, A, B and S. -/
def decVector (vop m d a b s : Nat) : Except Reject Instr :=
  if vop = 0 then req (m = 0) (.vadd s d a b)
  else if vop = 1 then req (m = 0) (.vsub s d a b)
  else if vop = 2 then req (m = 0) (.vmul s d a b)
  else if vop = 3 then req (m = 0) (.vfma s d a b)
  else if vop = 4 then req (m = 0) (.vmax s d a b)
  else if vop = 5 then req (m = 0) (.vmin s d a b)
  else if vop = 6 then req (m = 0) (.vamax s d a b)
  else if vop = 7 then req (b = 0 ∧ m = 0) (.vabs s d a)
  else if vop = 8 then req (b = 0 ∧ m = 0) (.vneg s d a)
  else if vop = 9 then req (b = 0 ∧ m = 0) (.vexp2 s d a)
  else if vop = 10 then req (b = 0 ∧ m = 0) (.vrcp s d a)
  else if vop = 11 then req (b = 0 ∧ m = 0) (.vrsq s d a)
  else if vop = 12 then req (m = 0) (.vscl s d b a)
  else if vop = 13 then req (m = 0) (.vadds s d b a)
  else if vop = 14 then req (m = 0) (.vmaxs s d b a)
  else if vop = 15 then req (b = 0 ∧ m = 0) (.vcpy s d a)
  else if vop = 16 then req (a = 0 ∧ m = 0) (.vset s d b)
  else if vop = 17 then req (m < 6) (.vsel s d a b m)
  else if vop = 18 then req (b = 0 ∧ m = 0) (.vreds s d a)
  else if vop = 19 then req (m < 2 ∧ b = 0) (.vredm s d a m)
  else .error .selector

/-- R288: the matrix operations of custom-1 (kind 1), by vop, mod (m), D, A, B and S. -/
def decMatrix (vop m d a b s : Nat) : Except Reject Instr :=
  if vop = 0 then req (d < 8 ∧ m = 0) (.mma s d a b)
  else if vop = 1 then req (d < 8 ∧ a = 0 ∧ b = 0 ∧ m = 0) (.mzero s d)
  else if vop = 2 then req (d < 8 ∧ b = 0 ∧ m = 0) (.mload s d a)
  else if vop = 3 then req (d < 8 ∧ m < 2 ∧ b = 0) (.mdrain s d a m)
  else if vop = 4 then req (d < 8 ∧ m < 2 ∧ a = 0 ∧ b = 0) (.macq s d m)
  else if vop = 5 then req (d < 8 ∧ m < 2 ∧ a = 0 ∧ b = 0) (.mstat s d m)
  else .error .selector

/-- R285: the word of fields, by its major opcode. -/
def decFields (op f7 f3 d a b : Nat) : Except Reject Instr :=
  if op = 3 then decLoad f7 f3 d a b
  else if op = 11 then decCustom0 f7 f3 d a b
  else if op = 19 then decOpImm f7 f3 d a b
  else if op = 23 then .ok (.auipc d (immU f7 f3 a b))
  else if op = 27 then decOpImm32 f7 f3 d a b
  else if op = 35 then decStore f7 f3 d a b
  else if op = 51 then decOp f7 f3 d a b
  else if op = 55 then .ok (.lui d (immU f7 f3 a b))
  else if op = 59 then decOp32 f7 f3 d a b
  else if op = 91 then decCustom2 f7 f3 d a b
  else if op = 99 then decBranch f7 f3 d a b
  else if op = 103 then (if f3 = 0 then .ok (.jalr d a (immI f7 b)) else .error .selector)
  else if op = 111 then .ok (.jal d (immJ f7 f3 a b))
  else if op = 123 then decCustom3 f7 f3 d a b
  else .error .majorOpcode

/-- R281: the fields of an XV word. -/
def decXV (w : Nat) : Except Reject Instr :=
  if w / 128 % 2 = 0 then
    decVector (w / 16777216 % 32) (w / 256 % 16) (w / 4096 % 16) (w / 65536 % 16) (w / 1048576 % 16) (w / 536870912 % 8)
  else decMatrix (w / 16777216 % 32) (w / 256 % 16) (w / 4096 % 16) (w / 65536 % 16) (w / 1048576 % 16) (w / 536870912 % 8)

/-- R285 to R290: the instruction a 32-bit word is, or why it is none. -/
def decodeWord (w : Nat) : Except Reject Instr :=
  if w % 128 = 43 then decXV w
  else decFields (w % 128) (w / 33554432 % 128) (w / 4096 % 8) (w / 128 % 32) (w / 32768 % 32) (w / 1048576 % 32)

/-- R278: an instruction is four little-endian bytes; decoding any bytes gives the instruction and what follows it. -/
def decodeBytes : List Byte → Except Reject (Instr × List Byte)
  | b0 :: b1 :: b2 :: b3 :: rest =>
    match decodeWord (b0.toNat + 256 * b1.toNat + 65536 * b2.toNat + 16777216 * b3.toNat) with
    | .ok i => .ok (i, rest)
    | .error e => .error e
  | _ => .error .majorOpcode

/-- R278: the four bytes of a word, the lowest first. -/
def wordBytes (w : Nat) : List Byte :=
  [BitVec.ofNat 8 w, BitVec.ofNat 8 (w / 256), BitVec.ofNat 8 (w / 65536), BitVec.ofNat 8 (w / 16777216)]

/-- The instruction the decoder reads from a table word of nbits bits, its bytes laid out as memory holds them (R278). A row
without bits is an event of the part, which no word encodes. -/
def decodeTableWord (nbits w : Nat) : Option Instr :=
  match decodeBytes (wordBytes (w % 2 ^ nbits)) with
  | .ok (i, _) => some i
  | .error _ => none

/-! The encoder, from the same tables. -/

/-- R280, R281: formats R, XR and XI from their fields. -/
def encR (op f3 f7 d a b : Nat) : Nat := op + 128 * d + 4096 * f3 + 32768 * a + 1048576 * b + 33554432 * f7
/-- R280: format I. -/
def encI (op f3 d a : Nat) (imm : BitVec 12) : Nat := encR op f3 (imm.toNat / 32) d a (imm.toNat % 32)
/-- R280: format S. -/
def encS (op f3 a b : Nat) (imm : BitVec 12) : Nat := encR op f3 (imm.toNat / 32) (imm.toNat % 32) a b
/-- R280: format B. -/
def encB (op f3 a b : Nat) (imm : BitVec 13) : Nat :=
  encR op f3 (64 * (imm.toNat / 4096) + imm.toNat / 32 % 64) (2 * (imm.toNat / 2 % 16) + imm.toNat / 2048 % 2) a b
/-- R280: format U. -/
def encU (op d : Nat) (imm : BitVec 20) : Nat := op + 128 * d + 4096 * imm.toNat
/-- R280: format J. -/
def encJ (op d : Nat) (imm : BitVec 21) : Nat :=
  encR op (imm.toNat / 4096 % 8) (64 * (imm.toNat / 1048576) + imm.toNat / 32 % 64) d (imm.toNat / 32768 % 32)
    (2 * (imm.toNat / 2 % 16) + imm.toNat / 2048 % 2)
/-- R281: format XV. -/
def encV (kind vop m d a b s : Nat) : Nat :=
  43 + 128 * kind + 256 * m + 4096 * d + 65536 * a + 1048576 * b + 16777216 * vop + 536870912 * s

/-- The word of an instruction (R280 to R290); an event of the part has none. -/
def encode : Instr → Option Nat
  | .lui d imm => some (encU 55 d imm)
  | .auipc d imm => some (encU 23 d imm)
  | .jal d imm => some (encJ 111 d imm)
  | .jalr d a imm => some (encI 103 0 d a imm)
  | .beq a b imm => some (encB 99 0 a b imm)
  | .bne a b imm => some (encB 99 1 a b imm)
  | .blt a b imm => some (encB 99 4 a b imm)
  | .bge a b imm => some (encB 99 5 a b imm)
  | .bltu a b imm => some (encB 99 6 a b imm)
  | .bgeu a b imm => some (encB 99 7 a b imm)
  | .lb d a imm => some (encI 3 0 d a imm)
  | .lh d a imm => some (encI 3 1 d a imm)
  | .lw d a imm => some (encI 3 2 d a imm)
  | .ld d a imm => some (encI 3 3 d a imm)
  | .lbu d a imm => some (encI 3 4 d a imm)
  | .lhu d a imm => some (encI 3 5 d a imm)
  | .lwu d a imm => some (encI 3 6 d a imm)
  | .sb a b imm => some (encS 35 0 a b imm)
  | .sh a b imm => some (encS 35 1 a b imm)
  | .sw a b imm => some (encS 35 2 a b imm)
  | .sd a b imm => some (encS 35 3 a b imm)
  | .addi d a imm => some (encI 19 0 d a imm)
  | .slti d a imm => some (encI 19 2 d a imm)
  | .sltiu d a imm => some (encI 19 3 d a imm)
  | .xori d a imm => some (encI 19 4 d a imm)
  | .ori d a imm => some (encI 19 6 d a imm)
  | .andi d a imm => some (encI 19 7 d a imm)
  | .slli d a h => some (encR 19 1 (0 + h / 32) d a (h % 32))
  | .srli d a h => some (encR 19 5 (0 + h / 32) d a (h % 32))
  | .srai d a h => some (encR 19 5 (32 + h / 32) d a (h % 32))
  | .add d a b => some (encR 51 0 0 d a b)
  | .sub d a b => some (encR 51 0 32 d a b)
  | .sll d a b => some (encR 51 1 0 d a b)
  | .slt d a b => some (encR 51 2 0 d a b)
  | .sltu d a b => some (encR 51 3 0 d a b)
  | .xor d a b => some (encR 51 4 0 d a b)
  | .srl d a b => some (encR 51 5 0 d a b)
  | .sra d a b => some (encR 51 5 32 d a b)
  | .or d a b => some (encR 51 6 0 d a b)
  | .and d a b => some (encR 51 7 0 d a b)
  | .addiw d a imm => some (encI 27 0 d a imm)
  | .slliw d a h => some (encR 27 1 0 d a h)
  | .srliw d a h => some (encR 27 5 0 d a h)
  | .sraiw d a h => some (encR 27 5 32 d a h)
  | .addw d a b => some (encR 59 0 0 d a b)
  | .subw d a b => some (encR 59 0 32 d a b)
  | .sllw d a b => some (encR 59 1 0 d a b)
  | .srlw d a b => some (encR 59 5 0 d a b)
  | .sraw d a b => some (encR 59 5 32 d a b)
  | .mul d a b => some (encR 51 0 1 d a b)
  | .mulh d a b => some (encR 51 1 1 d a b)
  | .mulhsu d a b => some (encR 51 2 1 d a b)
  | .mulhu d a b => some (encR 51 3 1 d a b)
  | .mulw d a b => some (encR 59 0 1 d a b)
  | .div d a b => some (encR 51 4 1 d a b)
  | .divu d a b => some (encR 51 5 1 d a b)
  | .rem d a b => some (encR 51 6 1 d a b)
  | .remu d a b => some (encR 51 7 1 d a b)
  | .divw d a b => some (encR 59 4 1 d a b)
  | .divuw d a b => some (encR 59 5 1 d a b)
  | .remw d a b => some (encR 59 6 1 d a b)
  | .remuw d a b => some (encR 59 7 1 d a b)
  | .fadd s d a b => some (encR 11 0 (16 * s ) d a b)
  | .fsub s d a b => some (encR 11 0 (16 * s + 1) d a b)
  | .fmul s d a b => some (encR 11 0 (16 * s + 2) d a b)
  | .fdiv s d a b => some (encR 11 0 (16 * s + 3) d a b)
  | .fmin s d a b => some (encR 11 0 (16 * s + 4) d a b)
  | .fmax s d a b => some (encR 11 0 (16 * s + 5) d a b)
  | .feq s d a b => some (encR 11 0 (16 * s + 6) d a b)
  | .flt s d a b => some (encR 11 0 (16 * s + 7) d a b)
  | .fle s d a b => some (encR 11 0 (16 * s + 8) d a b)
  | .fsgnj s d a b => some (encR 11 0 (16 * s + 9) d a b)
  | .fsgnjn s d a b => some (encR 11 0 (16 * s + 10) d a b)
  | .fsgnjx s d a b => some (encR 11 0 (16 * s + 11) d a b)
  | .fmac s d a b => some (encR 11 0 (16 * s + 12) d a b)
  | .fsqrt s d a => some (encR 11 1 (16 * s ) d a 0)
  | .fclass s d a => some (encR 11 1 (16 * s ) d a 1)
  | .fcvtws s d a => some (encR 11 1 (16 * s ) d a 2)
  | .fcvtsw s d a => some (encR 11 1 (16 * s ) d a 3)
  | .fcvtls s d a => some (encR 11 1 (16 * s ) d a 4)
  | .fcvtsl s d a => some (encR 11 1 (16 * s ) d a 5)
  | .fexp2 s d a => some (encR 11 1 (16 * s ) d a 6)
  | .flog2 s d a => some (encR 11 1 (16 * s ) d a 7)
  | .frcp s d a => some (encR 11 1 (16 * s ) d a 8)
  | .frsq s d a => some (encR 11 1 (16 * s ) d a 9)
  | .fpack s d a f => some (encR 11 2 (16 * s ) d a f)
  | .funpk s d a f => some (encR 11 2 (16 * s + 1) d a f)
  | .bfmt s n a => some (encR 11 3 (16 * s ) 0 a n)
  | .pset s a p => some (encR 11 4 (16 * s ) 0 a p)
  | .pget s d p => some (encR 11 4 (16 * s + 8) d 0 p)
  | .setvl s d a => some (encR 11 5 (16 * s ) d a 0)
  | .sbind s a p => some (encR 11 6 (16 * s ) 0 a p)
  | .sunbind s p => some (encR 11 6 (16 * s + 8) 0 0 p)
  | .sdrain s m => some (encR 11 7 (16 * s + m / 32) 0 0 (m % 32))
  | .vadd s d a b => some (encV 0 0 0 d a b s)
  | .vsub s d a b => some (encV 0 1 0 d a b s)
  | .vmul s d a b => some (encV 0 2 0 d a b s)
  | .vfma s d a b => some (encV 0 3 0 d a b s)
  | .vmax s d a b => some (encV 0 4 0 d a b s)
  | .vmin s d a b => some (encV 0 5 0 d a b s)
  | .vamax s d a b => some (encV 0 6 0 d a b s)
  | .vabs s d a => some (encV 0 7 0 d a 0 s)
  | .vneg s d a => some (encV 0 8 0 d a 0 s)
  | .vexp2 s d a => some (encV 0 9 0 d a 0 s)
  | .vrcp s d a => some (encV 0 10 0 d a 0 s)
  | .vrsq s d a => some (encV 0 11 0 d a 0 s)
  | .vscl s d x a => some (encV 0 12 0 d a x s)
  | .vadds s d x a => some (encV 0 13 0 d a x s)
  | .vmaxs s d x a => some (encV 0 14 0 d a x s)
  | .vcpy s d a => some (encV 0 15 0 d a 0 s)
  | .vset s d x => some (encV 0 16 0 d 0 x s)
  | .vsel s d a b c => some (encV 0 17 c d a b s)
  | .vreds s x a => some (encV 0 18 0 x a 0 s)
  | .vredm s x a m => some (encV 0 19 m x a 0 s)
  | .mma s n a b => some (encV 1 0 0 n a b s)
  | .mzero s n => some (encV 1 1 0 n 0 0 s)
  | .mload s n a => some (encV 1 2 0 n a 0 s)
  | .mdrain s n a m => some (encV 1 3 m n a 0 s)
  | .macq s n r => some (encV 1 4 r n 0 0 s)
  | .mstat s n c => some (encV 1 5 c n 0 0 s)
  | .ldaW s d a l => some (encR 91 0 (16 * s + l / 32) d a (l % 32))
  | .ldaN s d a => some (encR 91 1 (16 * s ) d a 0)
  | .stc s a b => some (encR 91 1 (16 * s + 1) 0 a b)
  | .amoaddD s d a b => some (encR 91 2 (16 * s ) d a b)
  | .amomaxD s d a b => some (encR 91 2 (16 * s + 1) d a b)
  | .amominD s d a b => some (encR 91 2 (16 * s + 2) d a b)
  | .amoswpD s d a b => some (encR 91 2 (16 * s + 3) d a b)
  | .amocasD s d a b => some (encR 91 2 (16 * s + 4) d a b)
  | .amoandD s d a b => some (encR 91 2 (16 * s + 5) d a b)
  | .amoorD s d a b => some (encR 91 2 (16 * s + 6) d a b)
  | .amoxorD s d a b => some (encR 91 2 (16 * s + 7) d a b)
  | .amoaddW s d a b => some (encR 91 3 (16 * s ) d a b)
  | .amomaxW s d a b => some (encR 91 3 (16 * s + 1) d a b)
  | .amominW s d a b => some (encR 91 3 (16 * s + 2) d a b)
  | .amoswpW s d a b => some (encR 91 3 (16 * s + 3) d a b)
  | .amocasW s d a b => some (encR 91 3 (16 * s + 4) d a b)
  | .amoandW s d a b => some (encR 91 3 (16 * s + 5) d a b)
  | .amoorW s d a b => some (encR 91 3 (16 * s + 6) d a b)
  | .amoxorW s d a b => some (encR 91 3 (16 * s + 7) d a b)
  | .amofadd s d a b => some (encR 91 3 (16 * s + 8) d a b)
  | .amofmax s d a b => some (encR 91 3 (16 * s + 9) d a b)
  | .fenceS s c => some (encR 91 4 (16 * s ) 0 0 c)
  | .rel s => some (encR 91 4 (16 * s + 2) 0 0 0)
  | .acq s c => some (encR 91 4 (16 * s + 4) 0 0 c)
  | .wbr s a b => some (encR 91 5 (16 * s ) 0 a b)
  | .invr s a b => some (encR 91 5 (16 * s + 1) 0 a b)
  | .fempty s d => some (encR 91 5 (16 * s + 2) d 0 0)
  | .fest s d n => some (encR 91 5 (16 * s + 3) d n 0)
  | .elect s d a => some (encR 91 5 (16 * s + 4) d a 0)
  | .waitw s d a b c => some (encR 91 6 (16 * s + 0 + c) d a b)
  | .waitc s d a b c => some (encR 91 6 (16 * s + 4 + c) d a b)
  | .barinit s a b => some (encR 91 7 (16 * s ) 0 a b)
  | .barrive s a => some (encR 91 7 (16 * s + 1) 0 a 0)
  | .barwait s a b => some (encR 91 7 (16 * s + 2) 0 a b)
  | .semw s n => some (encR 91 7 (16 * s + 3) 0 0 n)
  | .semp s n => some (encR 91 7 (16 * s + 4) 0 0 n)
  | .qcfg s a => some (encR 123 0 (16 * s ) 0 a 0)
  | .qdest s a => some (encR 123 0 (16 * s + 1) 0 a 0)
  | .copy s a b => some (encR 123 0 (16 * s + 2) 0 a b)
  | .qfence s a b => some (encR 123 0 (16 * s + 3) 0 a b)
  | .route s n a b => some (encR 123 1 (16 * s ) n a b)
  | .rtopen s n a b => some (encR 123 1 (16 * s + 1) n a b)
  | .rtret s a b => some (encR 123 1 (16 * s + 2) 0 a b)
  | .rtretDrop s a => some (encR 123 1 (16 * s + 3) 0 a 0)
  | .rtstat s d n => some (encR 123 1 (16 * s + 4) d n 0)
  | .rttgt s a => some (encR 123 1 (16 * s + 5) 0 a 0)
  | .cset s a => some (encR 123 2 (16 * s ) 0 a 0)
  | .csend s a b => some (encR 123 2 (16 * s + 1) 0 a b)
  | .crecv s a b => some (encR 123 2 (16 * s + 2) 0 a b)
  | .crrs s a b => some (encR 123 2 (16 * s + 3) 0 a b)
  | .ccopy s a b => some (encR 123 2 (16 * s + 4) 0 a b)
  | .cwait s => some (encR 123 2 (16 * s + 5) 0 0 0)
  | .cloop s j imm => some (encR 123 3 (16 * s + imm.toNat / 32) j 0 (imm.toNat % 32))
  | .spawn s d a b => some (encR 123 4 (16 * s ) d a b)
  | .spawnDie s d a => some (encR 123 4 (16 * s + 1) d a 0)
  | .reap s d a => some (encR 123 4 (16 * s + 2) d a 0)
  | .yield s => some (encR 123 4 (16 * s + 3) 0 0 0)
  | .halt s => some (encR 123 4 (16 * s + 4) 0 0 0)
  | .ckpt s a => some (encR 123 4 (16 * s + 5) 0 a 0)
  | .iterset s a => some (encR 123 4 (16 * s + 6) 0 a 0)
  | .iterinc s d => some (encR 123 4 (16 * s + 7) d 0 0)
  | .trap s a => some (encR 123 4 (16 * s + 8) 0 a 0)
  | .tret s a => some (encR 123 4 (16 * s + 9) 0 a 0)
  | .segld s a b => some (encR 123 4 (16 * s + 10) 0 a b)
  | .rdcyc s d => some (encR 123 4 (16 * s + 11) d 0 0)
  | .srd s d r => some (encR 123 6 (16 * s + r / 32) d 0 (r % 32))
  | .swr s a r => some (encR 123 7 (16 * s + r / 32) 0 a (r % 32))
  | .illegalInstruction _ => none
  | .pfReset => none
  | .bootVerifyDone => none
  | .firmwareBringupDone _ => none
  | .recoveryBufferWrite _ _ => none
  | .recoveryGo _ => none
  | .recoveryVerifyDone => none
  | .slotWriteDone _ => none
  | .spdmGetVersion => none
  | .spdmGetCapabilities => none
  | .spdmNegotiateAlgorithms _ _ => none
  | .spdmGetDigests => none
  | .spdmGetCertificate _ _ _ => none
  | .spdmChallenge _ _ => none
  | .spdmGetMeasurements _ => none
  | .spdmUnsupportedRequest _ => none
  | .powerWindow _ _ => none
  | .thermalRecovery => none
  | .clockChangeComplete => none
  | .clusterPowerGate _ => none
  | .clusterUngate _ => none
  | .clusterGateComplete => none
  | .endpointBind _ _ => none
  | .endpointUnbind _ => none
  | .sdKeyWrite _ _ _ => none
  | .sdCtlWrite _ _ => none
  | .epStatusClear _ => none
  | .keyFlush _ => none
  | .keyFlushComplete _ => none
  | .peerConfigWrite _ _ => none
  | .noRouteClear => none
  | .portStatClear _ => none
  | .ethLinkChange _ _ => none
  | .deliveryContextAllocate _ => none
  | .uetMessageSend _ => none
  | .uetWritePacket _ => none
  | .uetReadPacket _ => none
  | .uetSendPacket _ => none
  | .uetTaggedSend _ => none
  | .uetAtomicPacket _ => none
  | .ethHeldPlacement _ => none
  | .arrivalCounterAdd _ => none
  | .evUnusableExpire _ => none
  | .packetRelay _ _ => none
  | .combineContribution _ _ => none
  | .combineTimeout _ => none
  | .mrtEnable _ => none
  | .mrtDisable _ => none
  | .mrtDisableComplete _ => none
  | .cxlLinkDown _ => none
  | .driverQueueSubmit _ _ _ _ => none
  | .driverQueueCompletion _ _ _ _ _ => none
  | .dqCtlWrite _ _ _ => none
  | .dqClearDiscards _ _ => none
  | .dqCqHeadWrite _ _ _ => none
  | .namespaceEntryWrite _ _ => none
  | .freeFramePush _ _ => none
  | .storageFault _ => none
  | .storageReadComplete _ _ _ _ => none
  | .storageTimeout _ => none
  | .ssdLinkDown _ => none
  | .commandWindowWrite _ _ _ _ => none
  | .windowDiscardsClear _ _ => none
  | .launch _ _ => none
  | .arm _ _ => none
  | .hostCopy _ _ _ _ => none
  | .handleRegister _ _ => none
  | .handleRetire _ _ => none
  | .handleRetireComplete _ _ => none
  | .signal _ _ _ => none
  | .waitv _ _ => none
  | .waitvTimeout _ _ => none
  | .badOpCommand _ _ => none
  | .launchComplete _ _ => none
  | .cqHeadWrite _ _ => none
  | .windowAbort _ _ => none
  | .featureAccept _ => none
  | .partitionEnable _ => none
  | .partitionDisable _ => none
  | .functionLevelReset _ => none
  | .windowBRead _ _ _ => none
  | .windowBWrite _ _ _ => none
  | .launchPlacement _ => none
  | .displacedGroupResume _ _ _ => none
  | .groupMigrateRequest _ => none
  | .ckptLimitExpire _ _ _ => none
  | .migrationQuiesce _ _ _ => none
  | .migrationSave _ _ _ => none
  | .migrationRestore _ _ _ => none
  | .rotationTableApply _ => none
  | .swapThresholdReached _ _ => none
  | .contextSwap _ => none
  | .contextRecordWriteback _ _ => none
  | .streamPrefetch _ _ _ => none
  | .streamOutputDrain _ _ _ => none
  | .remoteReadClose _ => none
  | .registerFill _ => none
  | .loadResultLand _ => none
  | .divideResultLand _ => none
  | .fpDivideResultLand _ => none
  | .vectorUnitStart _ => none
  | .vectorResultLand _ => none
  | .matrixOperandFill _ => none
  | .matrixStepLand _ => none
  | .homeStoreApply _ => none
  | .homeLoad _ => none
  | .homeAtomic _ => none
  | .stampedWriteApply _ => none
  | .stampedWriteAck _ => none
  | .stampedLoadAtHome _ => none
  | .stampedLoadRetry _ _ => none
  | .slimTimeout _ _ => none
  | .staleWithdrawAck _ _ => none
  | .stampSetRequest _ => none
  | .partialEviction _ _ => none
  | .releaseQuery _ _ => none
  | .releaseClearReturn _ _ => none
  | .faultMessage _ => none
  | .pagerWalk _ => none
  | .faultWake _ => none
  | .shootdownRequest _ => none
  | .shootdownComplete => none
  | .tsetWrite _ _ _ => none
  | .tsetRangeSwitch _ _ => none
  | .correctableError _ => none
  | .sliceStatClear _ => none
  | .commutativeRangeWrite _ _ _ => none
  | .uncorrectableError _ => none
  | .nocHeaderError _ _ => none
  | .copyCommandEnqueue _ => none
  | .copyGranule _ _ _ => none
  | .copyComplete _ _ _ => none
  | .qfenceRelease _ _ _ => none
  | .copyMergeClose _ => none
  | .completionWordWrite _ => none
  | .flitArrive _ => none
  | .sendRetry _ _ => none
  | .orphanNotice _ => none
  | .routeRowArrive _ => none
  | .routeHandoutResume _ => none
  | .routeDropNotice _ => none
  | .routeReturnArrive _ => none
  | .reassemblyDeadline _ _ => none
  | .collectiveStepStart _ => none
  | .collectiveContribution _ => none
  | .collectiveSendAck _ _ _ => none
  | .watchRetry _ => none
  | .hostWatchPoll _ => none
  | .trapAck _ _ => none
  | .tqHeadWrite _ _ => none
  | .crownTakeTrap _ => none
  | .deferredTrap _ _ => none
  | .registerWrite _ _ _ _ => none
  | .uetAcknowledgement _ _ _ => none
  | .stampSetComplete => none
  | .instructionCacheFill _ _ => none
  | .trapQueueEnable _ => none

end Sys2Proof
end

