-- ==== Sys2Proof/Config.lean ====
section
/-!
DEFINITION. The constants of the part and the values the spec leaves open. A free value is an opaque constant: nothing in
Lean can evaluate it, so a statement about it holds whatever it is (notes/assumptions).
-/
namespace Sys2Proof.Config

/-- Free value (log 3): the byte a scratchpad window holds where the spec calls its contents undefined (R95, R120), by the
group placement or restore that left it undefined and by address. -/
opaque freeSpadByte : Nat → Nat → Byte
/-- Free value (log 4): a value the spec leaves open after an event, by the use it is put to and a counter of uses. -/
opaque freeWord : Nat → Nat → Word
/-- Free value (log 5): what the unique chip secret and the firmware make of a message (SHAKE256, R25 to R31). -/
opaque shake256 : List Byte → Nat → List Byte
/-- Free value (log 5): the SHA3-512 digest of a message (R30). -/
opaque sha3 : List Byte → List Byte
/-- Free value (log 5): the Ed448 signature of a message by the private half of a public key (R28 to R30). -/
opaque ed448Sign : List Byte → List Byte → List Byte
/-- Free value (log 5): the public half of the alias key that the chip's secret and the DIGEST of the running image give (R29). -/
opaque aliasKey : List Byte → List Byte
/-- Free value (log 5): the part of the X.509 certificate of a public key that its issuer signs (R30). -/
opaque certBody : List Byte → List Byte
/-- Free value (log 5): whether an Ed448 signature verifies under a key. -/
opaque ed448Verify : List Byte → List Byte → List Byte → Bool
/-- Free value (log 5): whether a packet's integrity check value is the one its key gives (R37). -/
opaque icvOk : List Byte → W32 → Nat → Bool
/-- Free value (log 5): the public keys in the boot ROM (0 firmware signing, 1 configuration signing), the identity public key (2), the
certificates of the root, the device authority and the identity key (3) and the contents of the boot ROM (4) (R24 to R31). -/
opaque romKey : Nat → List Byte
/-- Free value (log 5): the entropy base that the hub assigns to a packet delivery context (R45), by the context's number. -/
opaque flowHash : Nat → Nat
/-- Free value (log 5): the integrity check value that the security sublayer adds to bytes sent under a key and an identifier (R37). -/
opaque icv : List Byte → W32 → List Byte → Nat
/-- Free value (log 5): the nonce that the security processor puts into a signed answer (R30), by a counter of uses. -/
opaque nonce : Nat → BitVec 256
/-- Free value (log 21): what the responder says of itself in SPDM's CAPABILITIES (R30): 0 its cryptographic timeout exponent, 1 the size of a transfer and
2 of a message. -/
opaque spdmSize : Nat → Nat
/-- Free value (log 21): the 16 bytes that a requester says of itself in SPDM's GET_CAPABILITIES (R30), by a counter of uses: the event carries none. -/
opaque requester : Nat → BitVec 128
/-- Free value (log 55): the largest transfer (MDTS) of the controller of an SSD, 2^n pages of 4 KiB (R60). -/
opaque mdts : Nat → Nat

/-- R2: clusters, tiles and dies of the package. -/
def tiles : Nat := 4096
/-- R165: first byte of the scratchpad windows. -/
def spadBase : Nat := 0x1000000000
/-- R165: first byte of CXL memory. -/
def cxlBase : Nat := 0x1000000000000
/-- R165: first byte of host memory and peer devices. -/
def hostBase : Nat := 0x8000000000000
/-- R165: bytes of the physical address space. -/
def paTop : Nat := 0x10000000000000

end Sys2Proof.Config
end

