-- ==== Sys2Proof/Machine/Table.lean ====
section
/-!
DEFINITION. Sparse tables: lists of key and value in strictly rising key order, so that equal tables are equal lists; and arrays of a fixed number of
entries.
-/
namespace Sys2Proof

/-- A sparse table. -/
abbrev Table (α : Type) := List (Nat × α)

namespace Tbl

/-- The entry of key k. -/
def find? {α : Type} : Table α → Nat → Option α
  | [], _ => none
  | (j, v) :: t, k => if j = k then some v else if k < j then none else find? t k

/-- The entry of key k, or d. -/
def getD {α : Type} (t : Table α) (k : Nat) (d : α) : α := (find? t k).getD d

/-- The table with v at key k. -/
def put {α : Type} : Table α → Nat → α → Table α
  | [], k, v => [(k, v)]
  | (j, w) :: t, k, v => if j = k then (k, v) :: t else if k < j then (k, v) :: (j, w) :: t else (j, w) :: put t k v

/-- The table without key k. -/
def erase {α : Type} : Table α → Nat → Table α
  | [], _ => []
  | (j, w) :: t, k => if j = k then t else if k < j then (j, w) :: t else (j, w) :: erase t k

/-- The table with every entry changed by f. -/
def mapV {α : Type} (f : Nat → α → α) (t : Table α) : Table α := t.map fun p => (p.1, f p.1 p.2)

/-- Keys strictly rise. -/
def ordered {α : Type} : Table α → Bool
  | [] => true
  | [_] => true
  | (j, _) :: (k, v) :: t => decide (j < k) && ordered ((k, v) :: t)

end Tbl

/-- A list of exactly n entries: a file of registers, of accumulators. -/
structure Fixed (α : Type) (n : Nat) where
  els : List α
  len : els.length = n
  deriving DecidableEq, Repr

/-- n entries v. -/
def Fixed.fill {α : Type} (n : Nat) (v : α) : Fixed α n := ⟨List.replicate n v, List.length_replicate⟩
/-- Entry i, or d beyond the last. -/
def Fixed.getD {α : Type} {n : Nat} (f : Fixed α n) (i : Nat) (d : α) : α := f.els.getD i d
/-- Entry i replaced; beyond the last nothing changes. -/
def Fixed.set {α : Type} {n : Nat} (f : Fixed α n) (i : Nat) (v : α) : Fixed α n := ⟨f.els.set i v, by rw [List.length_set]; exact f.len⟩
/-- Every entry changed by g. -/
def Fixed.map {α β : Type} {n : Nat} (g : α → β) (f : Fixed α n) : Fixed β n := ⟨f.els.map g, by rw [List.length_map]; exact f.len⟩
/-- The n entries that g gives. -/
def Fixed.ofFn {α : Type} (n : Nat) (g : Nat → α) : Fixed α n := ⟨(List.range n).map g, by rw [List.length_map, List.length_range]⟩

end Sys2Proof
end

