-- ==== Sys2Proof/Machine/State.lean ====
section
/-!
DEFINITION. The state of the JV-4096 package: every register, memory, queue and table the spec gives it, as plain data.
-/
namespace Sys2Proof.Machine

/-- Why a run stops with a fault. No step of this model raises one: every outcome the spec describes is a next state. -/
inductive Fault
  /-- Raised by nobody: kept so that the type is inhabited. Safe. -/
  | none
  deriving DecidableEq, Repr

/-- Why a step is refused. -/
inductive Refusal
  /-- An arm of exec that has no meaning yet; raised by exec alone. Safe: the run stops. -/
  | notModelled (mnemonic : String)
  deriving DecidableEq, Repr

/-! ## One context (R117, R126 to R135) -/

/-- The full/empty state of an x register (R126). -/
inductive RegState | full | pending | open
  deriving DecidableEq, Repr

/-- An x register: its value, its full/empty state, its poison (R265), its dirty bit (R115), and the fixed-latency results
of the context that have not landed, newest first, each with the cycle from which it can be read (R140, R141). -/
structure Reg where
  val : Word := 0
  st : RegState := .full
  poison : Bool := false
  dirty : Bool := false
  late : List (Nat × Word) := []
  deriving DecidableEq, Repr

/-- A vector of a stream: prefetched from memory, or produced and on its way to the physical address checked at production
(R131), with what its write carries (R200, R326) and the instruction that produced it; old: it was produced before the
shootdown in progress began (R180). tail is where the bytes beyond the first line go when it does not lie in one line: physical address,
stamped, shared-uncached and tenant. -/
structure StreamVec where
  data : Vec
  poison : Bool := false
  pa : Nat := 0
  stamped : Bool := false
  shu : Bool := false
  tenant : Nat := 0
  tail : Option (Nat × Bool × Bool × Nat) := none
  iter : W32 := 0
  pc : Word := 0
  insn : W32 := 0
  old : Bool := false
  deriving DecidableEq, Repr

/-- A stream binding (R130). unit is whether it holds a stream unit (R131); ahead holds the vectors prefetched beyond POS or
the vectors produced and not yet performed, with their poison. -/
structure Stream where
  bound : Bool := false
  base : Nat := 0
  fmt : Nat := 0
  out : Bool := false
  dims : List (Nat × Int) := []
  pos : Nat := 0
  unit : Bool := false
  ahead : List StreamVec := []
  deriving DecidableEq, Repr

/-- A segment register, its two words (R133). -/
structure Seg where
  w0 : Word := 0
  w1 : Word := 0
  deriving DecidableEq, Repr

/-- The retry latch (R111, R117): instruction word, address, progress, timer and L_AUX. fetch: it is the fetch of the word at that address that is tried
again (R179). sent: it is a write of x30 whose flit has left and is not accepted (R230). takes: it reads x31, and the flit leaves the receive queue when it
completes. next: where its context goes on once it has completed, when that has issued on meanwhile (R346). -/
structure Latch where
  fetch : Bool := false
  sent : Bool := false
  takes : Bool := false
  next : Option Word := none
  insn : W32 := 0
  pc : Word := 0
  prog : Nat := 0
  timer : Nat := 0
  aux : Nat := 0
  deriving DecidableEq, Repr

/-- R105. -/
inductive CtxState | free | slotted | cached | halted | stopped
  deriving DecidableEq, Repr

/-- A message flit (R230 to R232): sender, destination, generation, fill form, payload. -/
structure Flit where
  srcTile : Nat := 0
  srcCtx : Nat := 0
  fill : Bool := false
  freg : Nat := 0
  gen : Nat := 0
  val : Word := 0
  poison : Bool := false
  deriving DecidableEq, Repr

/-- A flit or a copy-engine fill on its way (R225, R230), with the queue, identifier and status of the copy that a fill completes (R195). -/
structure FlitMsg where
  id : Nat
  launch : Nat
  srcGroup : Nat := 0
  dstGroup : Nat
  dstCtx : Nat
  f : Flit
  engine : Bool := false
  notice : Bool := false
  since : Option Nat := none
  copy : Option (Nat × Nat × Nat) := none
  deriving DecidableEq, Repr

/-- What FENCE.S, REL and ACQ, and a WBR or INVR in progress, hold at the cluster port (R191 to R193, R353); link is the system-scope fence whose
read on H0's link is out (R192). -/
inductive FenceKind | tile | query | acq | range | link
  deriving DecidableEq, Repr

/-- A port hold: id is the place in program order; loads tells whether later loads are held too; round is the release round that a query closed, and
sys whether its scope is system. -/
structure Fence where
  id : Nat
  kind : FenceKind
  loads : Bool
  round : Nat := 0
  sys : Bool := false
  deriving DecidableEq, Repr

/-- A trap found after the port accepted an access (R256). -/
structure Deferred where
  cause : Nat
  pc : Word := 0
  insn : W32 := 0
  addr : Word := 0
  deriving DecidableEq, Repr

/-- A context (R117): its registers, its place (R105, R107), its retry latch and what the cluster port holds of it. busy: the context is not ready, without
being parked, until the instruction in its latch is answered (R204, R357, R365, R367). waitOn is the register that a context with PARK 1 waits for; sentBy
the instruction whose result x30 last sent (R230). saved lists by offset what the record in the save area holds of the registers other than x registers: one
is dirty where it differs (R115, log 58); recWait is whether the write of the record waits for a page (R115). fills holds the fills that landed in the cycle
of the last one: the cycle and what came (R127). -/
structure Ctx where
  state : CtxState := .free
  slot : Option Nat := none
  gen : Nat := 0
  x : Fixed Reg 32 := Fixed.fill 32 {}
  ptr : Fixed Word 8 := Fixed.fill 8 0
  str : Fixed Stream 8 := Fixed.fill 8 {}
  seg : Fixed Seg 8 := Fixed.fill 8 {}
  pc : Word := 0
  iter : W32 := 0
  rnd : Byte := 0
  ffl : Byte := 0
  fflLate : List (Nat × Byte) := []
  vl : Nat := 1
  slim : W32 := 0xFFFFFFFF
  qmap : Word := 0
  qdest : Word := 0
  role : Word := 0
  schk : Bool := false
  orph : Nat := 0
  rtmap : Word := 0
  park : Nat := 0
  waitOn : Nat := 0
  sentBy : Latch := {}
  saved : Table Nat := []
  recWait : Bool := false
  parkedAt : Nat := 0
  readyAt : Nat := 0
  swapNow : Bool := false
  busy : Bool := false
  latch : Option Latch := none
  lastCkpt : Word := 0
  issued : Fixed Nat 4 := Fixed.fill 4 0
  spill : Fixed Nat 4 := Fixed.fill 4 0
  closed : Fixed Bool 4 := Fixed.fill 4 false
  clearing : Fixed Bool 4 := Fixed.fill 4 false
  relRnd : Nat := 0
  fences : List Fence := []
  rxq : List Flit := []
  fills : List (Nat × FlitMsg) := []
  txPend : Option Flit := none
  deferred : Option Deferred := none
  ckptStop : Bool := false
  reduced : List Word := []
  deriving DecidableEq, Repr

/-! ## One tile -/

/-- A memory access under way (R185 to R191, R204 to R206, R350, R357), or one of another kind that a hold keeps at the port (R348, R352, R353, R359). -/
inductive ReqKind | load | sbind | store | amo | elect | ldaW | ldaN | waitw | waitc | stc | barinit | barrive | barwait | wbr | invr
  deriving DecidableEq, Repr

/-- Where an access is: held at the port, in the store buffer, on its way to its home, entered in a wait list or watch,
refused there, withdrawn, or answered. -/
inductive ReqStage | port | buffer | flight | waiting | refused | withdrawing | reply
  deriving DecidableEq, Repr

/-- An access of a context. id gives program order; entry is its place among what has left the tile's port (R188); since is when it began to wait, and
spent what a stamped load had counted of SLIM before (R181, R210); pva is the address that was translated. spadGrp is the group, of the same launch, whose
scratchpad a LOCAL or REMOTE segment led to (R134). -/
structure Req where
  id : Nat
  tile : Nat
  ctx : Nat
  gen : Nat
  kind : ReqKind
  stage : ReqStage := .flight
  va : Nat := 0
  pva : Nat := 0
  pa : Nat := 0
  n : Nat := 8
  sgn : Bool := false
  dst : Nat := 0
  data : Nat := 0
  cmp : Nat := 0
  op : Nat := 0
  lag : Nat := 0
  stamped : Bool := false
  shu : Bool := false
  tenant : Nat := 0
  iter : W32 := 0
  rnd : Byte := 0
  poison : Bool := false
  val : Word := 0
  age : W32 := 0
  flags : Byte := 0
  stale : Bool := false
  round : Nat := 0
  entry : Nat := 0
  since : Nat := 0
  spent : Nat := 0
  pc : Word := 0
  insn : W32 := 0
  spadGrp : Option Nat := none
  deriving DecidableEq, Repr

/-- A line of a tile's L1 (R169, R203): its bytes, its poison, of a stamped line its stamp, and the ASID and PVA by which it was filled. -/
structure L1Line where
  data : Vec
  asid : Nat := 0
  pva : Nat := 0
  poison : Bool := false
  stamp : Option W32 := none
  deriving DecidableEq, Repr

/-- A commutative partial (R194, R348): the operator and format of its range, one entry per element touched (byte offset and
value, FP32 bits or INT32), the largest ITER, the context that combined last and the PVA of the line. -/
structure Partial where
  fmt : Nat
  op : Nat
  els : List (Nat × W32) := []
  stamped : Bool := false
  stamp : W32 := 0
  ctx : Nat := 0
  pva : Nat := 0
  poison : Bool := false
  deriving DecidableEq, Repr

/-- A translation (R175 to R178): the page (2 MiB, or 1 KiB sub-page) of an ASID and what its entry gives. -/
structure Xlat where
  asid : Nat
  sub : Bool
  page : Nat
  frame : Nat
  r : Bool
  w : Bool
  x : Bool
  mig : Bool := false
  shu : Bool := false
  stamp : Bool := false
  store : Bool := false
  tenant : Nat := 0
  deriving DecidableEq, Repr

/-- An ASID's entry as a tile holds it (R174, R176). -/
structure AsidHeld where
  asid : Nat
  root : Word
  part : Nat
  tenant : Nat
  rgn : List (Word × Word) := []
  deriving DecidableEq, Repr

/-- An accumulator (R132): its 256 elements, row-major, its owner and its sticky flags (bit 0 invalid, 1 overflow,
2 saturated, 3 NaN-seen). -/
structure Acc where
  els : List W32 := List.replicate 256 0
  owner : Option Nat := none
  flags : Nat := 0
  deriving DecidableEq, Repr

/-- A trap for the crown (R258): what the crown's registers show of it, the cycle in which it occurred, and what its queue record says (R261): CYC at
its occurrence, DETAIL, AUX and ADDR. -/
structure PendTrap where
  tfpc : Word
  taddr : Word
  tcause : Word
  at_ : Nat := 0
  when : Nat := 0
  detail : Nat := 0
  aux : Word := 0
  addr : Word := 0
  deriving DecidableEq, Repr

/-- A divide under way (R308), or a variable-latency scalar float (R126): destination, result and flags. -/
structure UnitOp where
  ctx : Nat
  gen : Nat
  dst : Nat
  val : Word
  flags : Byte := 0
  deriving DecidableEq, Repr

/-- A swap in progress (R114). -/
structure Swap where
  slot : Nat
  enter : Nat
  till : Nat
  deriving DecidableEq, Repr

/-- An instruction of the vector unit's queue (R328): what it captured at issue (VL, RND, ITER and the bank format registers
as they stood, R322, R137) and its progress in elements. held: its context is not ready until it ends (R255). -/
structure VOp where
  id : Nat := 0
  ctx : Nat
  gen : Nat
  vop : Nat
  d : Nat := 0
  a : Nat := 0
  b : Nat := 0
  mod : Nat := 0
  vl : Nat := 1
  rnd : Byte := 0
  iter : W32 := 0
  fmts : List Word := []
  scalar : Word := 0
  prog : Nat := 0
  pc : Word := 0
  insn : W32 := 0
  held : Bool := false
  deriving DecidableEq, Repr

/-- The vector unit running (R328, R329): the cycle at which it is free, the local banks it uses and the cycle until which it has lost them (R138), the x
result it will land with its flags. -/
structure VRun where
  id : Nat := 0
  banks : List Nat := []
  ctx : Nat
  gen : Nat
  dst : Option (Nat × Word) := none
  flags : Byte := 0
  till : Nat
  lost : Nat := 0
  deriving DecidableEq, Repr

/-- A matrix step in the unit (R337): the accumulator, the elements and flags that land, and when. drain is what an MDRAIN writes then into a bank (R342):
by line, its low bits and how many they are; ffl its exception flags. -/
structure MRun where
  id : Nat := 0
  ctx : Nat
  gen : Nat := 0
  acc : Nat
  els : Option (List W32) := none
  flags : Nat := 0
  drain : List (Nat × Nat × Nat) := []
  ffl : Byte := 0
  till : Nat
  deriving DecidableEq, Repr

/-- The matrix unit's operand buffer for remote pointers and streams (R337): the step that asked, and the rows that lie in it
for A and B, each with poison. -/
structure MBuf where
  ctx : Nat
  pc : Word
  insn : W32 := 0
  a : List (Vec × Bool) := []
  b : List (Vec × Bool) := []
  ready : Bool := false
  trap : Option (Nat × Word) := none
  deriving DecidableEq, Repr

/-- A route target registration (R233); the tile group it belongs to is its tile's. -/
structure RtTgt where
  valid : Bool := false
  tgt : Nat := 0
  wait : Bool := false
  cap : Nat := 0
  wmax : Nat := 0
  ring : Nat := 0
  aword : Nat := 0
  head : Nat := 0
  tail : Nat := 0
  drops : Nat := 0
  deriving DecidableEq, Repr

/-- A reassembly entry (R237). due is the cycle of the deadline while it counts; remain what is left of it while it does not (R244): all ones where there is
no deadline. owner, iter and pc are those of the RTOPEN (R200, R245). closing: the close has begun and STATE is not yet 4; bad: a write of the entry failed,
for which its opener takes ROUTE_CFG once STATE is 4 (R245). -/
structure Reasm where
  desc : List Word := []
  rv : Nat := 0
  state : Nat := 0
  gen : Nat := 0
  wvec : Nat := 0
  remain : Nat := 0
  due : Option Nat := none
  expect : Nat := 0
  ret : Nat := 0
  drop : Nat := 0
  tout : Nat := 0
  sent : Nat := 0
  tilep : Nat := 0
  done : Nat := 0
  cflags : Nat := 0
  disc : Nat := 0
  iter : W32 := 0
  owner : Nat := 0
  pc : Word := 0
  insn : W32 := 0
  closing : Bool := false
  bad : Bool := false
  deriving DecidableEq, Repr

/-- The route unit handing out a tile (R239, R240): the entry, the next pair (4 × row + slot), the row message awaited, and the
pairs with their target numbers and map entries. -/
structure RouteUnit where
  ctx : Nat
  gen : Nat
  entry : Nat
  pc : Word := 0
  next : Nat := 0
  waiting : Option Nat := none
  held : Bool := false
  plan : List (Nat × Nat × Nat) := []
  deriving DecidableEq, Repr

/-- The tile group on a tile: launch key (partition × 65,536 + launch number) and group index (R87). -/
structure GroupRef where
  launch : Nat
  idx : Nat
  deriving DecidableEq, Repr

/-- A tile (chapters 6, 7): its group, contexts, rotation table, accumulators, bank formats, semaphores, units, store buffer
and L1 side state, the cycles until which parties that go first have its banks (R138), and the crown's trap state (held: the instruction that was latched
when the crown entered its handler). rotNext holds a table write until the next cycle that is 0 mod 32 (R108). -/
structure Tile where
  grp : Option GroupRef := none
  ctxs : Table Ctx := []
  rotLo : Word := 0xFEDCBA9876543210
  rotHi : Word := 0xFEDCBA9876543210
  rotNext : Option (Word × Word) := none
  rotAt : Nat := 0
  swap : Option Swap := none
  acc : Fixed Acc 8 := Fixed.fill 8 {}
  bank : Fixed Word 3 := Fixed.fill 3 0x3F80000000000000
  sem : Fixed Nat 8 := Fixed.fill 8 0
  semWait : List (Nat × Nat) := []
  rttgt : Fixed RtTgt 8 := Fixed.fill 8 {}
  reasm : Fixed Reasm 16 := Fixed.fill 16 {}
  route : Option RouteUnit := none
  vq : List VOp := []
  vrun : Option VRun := none
  mrun : Option MRun := none
  mbuf : Option MBuf := none
  mfree : Nat := 0
  bankTill : Fixed Nat 3 := Fixed.fill 3 0
  divq : List UnitOp := []
  fdivq : List UnitOp := []
  l1 : Table L1Line := []
  parts : Table Partial := []
  asids : List AsidHeld := []
  tlb : List Xlat := []
  icache : Table W32 := []
  inH : Bool := false
  inHTrap : Option PendTrap := none
  held : Option Latch := none
  pend : List PendTrap := []
  tepc : Word := 0
  tfpc : Word := 0
  taddr : Word := 0
  tcause : Word := 0
  junk : Nat := 0
  quiet : Bool := false
  deriving DecidableEq, Repr

/-! ## Launches (chapter 5) -/

/-- The fields of a launch record (R88). -/
structure Record where
  cls : Nat := 1
  tiles : Nat := 1
  dies : Nat := 1
  clusters : Nat := 1
  ctx : Nat := 1
  nranks : Nat := 0
  myrank : Nat := 0
  entry : Word := 0
  handler : Word := 0
  arg0 : Word := 0
  args : Word := 0
  save : Nat := 0
  saveLen : Nat := 0
  hlist : Nat := 0
  nhandles : Nat := 0
  swapTh : Nat := 4096
  ckptLimit : Nat := 200000
  ranktab : Nat := 0
  cword : Nat := 0
  cval : Word := 0
  seg : Fixed Seg 8 := Fixed.fill 8 {}
  trole : List Nat := []
  crole : List Nat := []
  drole : List Nat := []
  deriving DecidableEq, Repr

/-- A rank table entry (R89). -/
structure Rank where
  addr : BitVec 128 := 0
  ep : Nat := 0
  lep : Nat := 0
  key : Word := 0
  deriving DecidableEq, Repr

/-- Where a tile group stands (R87, R98, R118). -/
inductive GroupPlace | running | migrating | displaced
  deriving DecidableEq, Repr

/-- For whom a replayable record waits (R260): a context, a copy queue, a collective step, a save, a completion word, or a
SIGNAL or WAITV. -/
inductive AckFor | ctx | copy | collective | save | cword | signal | eth
  deriving DecidableEq, Repr

/-- A trap queue record (R261) before or after it is written, with the party its acknowledgement goes to. -/
structure TrapRec where
  kind : Nat
  code : Nat
  detail : Nat := 0
  launch : Nat := 0
  group : Nat := 0
  ctx : Nat := 0
  gen : Nat := 0
  tile : Nat := 0xFFFF
  insn : W32 := 0
  pc : Word := 0
  addr : Word := 0
  aux : Word := 0
  at_ : Nat := 0
  who : AckFor := .ctx
  ref : Nat := 0
  deriving DecidableEq, Repr

/-- A placed tile group (R118 to R124): its tile now, the phase of its migration (1 wait, 2 quiesce, 3 off its tile, 4 saved), whether the wait is skipped
or was cut short, the tile chosen for it, and what was saved: the slab's fields (R123) as the tile they were saved from, the bytes of the save set by offset
with its poisoned lines, whether that is the whole scratchpad (R120), the fields that are still to be written to the save area, acknowledgements given
meanwhile, the terminal traps of its contexts during the migration, at whose end they end the launch (R124), and the accesses of its contexts that stay held
behind a wait (R346). -/
structure GroupSt where
  tile : Nat
  place : GroupPlace := .running
  phase : Nat := 0
  full : Bool := false
  since : Nat := 0
  target : Option Nat := none
  slab : Option Tile := none
  spad : List Host.Cell := []
  spadBad : List Nat := []
  whole : Bool := false
  out : List ((Nat × Nat × Nat) × Bool) := []
  acks : List (Nat × Nat) := []
  ends : List TrapRec := []
  reqs : List Req := []
  deriving DecidableEq, Repr

/-- R97, R101: a launch waits for room, runs, ends by a terminal trap or a halt, or is over. -/
inductive LaunchSt | waiting | running | ending | finished
  deriving DecidableEq, Repr

/-- A launch (R96 to R102): its record, its placed groups by group index, its handles, the launch that started it, what
its completion reports to (the window of a LAUNCH; VF, window, SEQ and FLAGS of a fired ARM), its place among the users of
handles (R83), and when the last of those before it completed (R84). -/
structure Launch where
  part : Nat
  num : Nat
  r : Record
  st : LaunchSt := .waiting
  seq : Nat := 0
  placedAt : Nat := 0
  groups : Table GroupSt := []
  handles : List (Nat × Nat) := []
  ranks : List Rank := []
  parent : Option Nat := none
  cmd : Option (Nat × Nat) := none
  fired : Option (Nat × Nat × Nat × Nat) := none
  uid : Nat := 0
  deps : List Nat := []
  acceptedAt : Nat := 0
  startAt : Option Nat := none
  halted : Bool := false
  trapped : Bool := false
  deriving DecidableEq, Repr

/-! ## Faults, traps and records (chapters 9, 16) -/

/-- A context waiting on a translation (R179): the page asked for, the virtual address that faulted (R258), the rights needed (rd, wr, xq; rw for a write,
atomic or STC), where its message is (router coordinates on its die), and its stage: 0 on its way, 1 absorbed by a router's entry, 2 at the pager, 4 held
for a shootdown, 5 bound for the storage engines, 6 woken, 7 answered while its group is away (R124), by a wake or by the trap that it names with its
detail. An engine's wait carries who it is and starts at 4 or 5. -/
structure PageFault where
  id : Nat
  asid : Nat
  part : Nat
  pva : Nat
  va : Nat := 0
  sub : Bool := false
  tile : Nat
  ctx : Nat
  gen : Nat
  launch : Nat
  group : Nat
  rd : Bool := false
  wr : Bool := false
  xq : Bool := false
  rw : Bool := false
  rx : Nat := 0
  ry : Nat := 0
  stage : Nat := 0
  trap : Option (Nat × Nat) := none
  who : AckFor := .ctx
  ref : Nat := 0
  deriving DecidableEq, Repr

/-- A fault-combining entry of a router (R179): its key and the ports recorded. -/
structure Combine where
  asid : Nat
  page : Nat
  sub : Bool
  ports : List Nat
  deriving DecidableEq, Repr

/-- A partition's trap queue (R260, R262). -/
structure TrapQ where
  base : Word := 0
  en : Bool := false
  tail : Nat := 0
  head : Nat := 0
  lost : Nat := 0
  waitRecs : List TrapRec := []
  live : Table TrapRec := []
  deriving DecidableEq, Repr

/-! ## Engines (chapters 13 to 15) -/

/-- A shape block (R220) as a copy command holds it. -/
structure Shape where
  src : Word := 0
  dst : Word := 0
  sfmt : Nat := 0
  dfmt : Nat := 0
  ndim : Nat := 0
  space : Bool := false
  cfill : Bool := false
  rsvd : Bool := false
  dims : List (Nat × Int × Int) := []
  deriving DecidableEq, Repr

/-- A copy command (R219), a queue fence (R224) or a host COPY (R79). role is its die role; bar the pointer image of its barrier
object; counted the bytes the barrier still counts for it; widths the containers of its two sides at its issue (R137); done the
destination bytes moved; after the commands a fence waits for; lead the copy that it is merged with, and openTill the end of its
window (R226); ended is whether its completion is on its way. -/
structure CopyCmd where
  id : Nat
  die : Nat
  eng : Nat
  q : Nat
  fence : Bool := false
  after : List Nat := []
  part : Nat := 0
  launch : Nat := 0
  group : Nat := 0
  tile : Nat := 0
  ctx : Nat := 0
  gen : Nat := 0
  host : Option (Nat × Nat × Nat) := none
  shape : Shape := {}
  shapeP : Word := 0
  bar : Option Nat := none
  inward : Bool := false
  counted : Nat := 0
  cword : Word := 0
  cval : Word := 0
  rnd : Byte := 0
  iter : W32 := 0
  segs : Fixed Seg 8 := Fixed.fill 8 {}
  widths : List Nat := []
  done : Nat := 0
  status : Nat := 0
  badField : Bool := false
  role : Nat := 0
  lead : Option Nat := none
  openTill : Nat := 0
  ended : Bool := false
  deriving DecidableEq, Repr

/-- A completion word on its way (R225, R414): where it goes and by whose address space, and what completes with it. -/
structure CWord where
  id : Nat
  part : Nat
  launch : Nat
  addr : Word
  segs : Option (Fixed Seg 8) := none
  tile : Nat := 0
  group : Nat := 0
  val : Word
  status : Option Nat := none
  iter : W32 := 0
  copy : Option (Nat × Nat × Nat) := none
  entry : Option (Nat × Nat) := none
  launchEnd : Option Nat := none
  behalf : Option (Nat × Nat) := none
  host : Option (Nat × Nat × Nat × Nat) := none
  abandoned : Bool := false
  deriving DecidableEq, Repr

/-- A route message: a row for a target (kind 0), a return (1), or a drop notice (2) (R234, R240 to R242): who sent it, the rank it is bound
for, the group it goes to, and the origin that its header names. -/
structure RouteMsg where
  id : Nat
  kind : Nat
  part : Nat
  skey : Nat := 0
  sgroup : Nat := 0
  sctx : Option Nat := none
  rank : Option Nat := none
  dkey : Nat := 0
  dgroup : Nat := 0
  roles : Nat := 0
  orank : Nat := 0xFFFF
  launch : Nat := 0
  group : Nat := 0
  entry : Nat := 0
  gen : Nat := 0
  rs : Nat := 0
  tgt : Nat := 0
  wvec : Nat := 1
  weight : W32 := 0
  data : List (Vec × Bool) := []
  deriving DecidableEq, Repr

/-- A remote read on the cluster network (R139): the group read, on the tile where it lies, and its bank's format register as it stood at the read (R327). -/
structure RemoteRead where
  id : Nat
  fmt : Word := 0
  launch : Nat := 0
  group : Nat := 0
  tile : Nat
  bank : Nat
  first : Nat
  stride : Int
  count : Nat
  users : List (Nat × Nat)
  openAt : Nat
  data : List (Vec × Bool) := []
  closed : Bool := false
  deriving DecidableEq, Repr

/-- A posted collective step (R249). todo lists its chunks still to do, acks the chunks sent and not acknowledged. -/
structure CollStep where
  id : Nat
  launch : Nat
  group : Nat
  blk : Nat
  kind : Nat
  num : Nat
  cid : Nat
  op : Nat := 0
  fmt : Nat := 0
  chunk : Nat := 64
  evb : Nat := 0
  lbuf : Word := 0
  roff : Word := 0
  arr : Word := 0
  expect : Nat := 1
  red : Bool := false
  width : Nat := 1
  peerA : Nat := 0
  peerB : Nat := 0
  todo : List Nat := []
  acks : List Nat := []
  failed : Bool := false
  iter : W32 := 0
  segs : Fixed Seg 8 := Fixed.fill 8 {}
  pc : Word := 0
  insn : W32 := 0
  deriving DecidableEq, Repr

/-- A cuff's current block, by launch and group index (R374). -/
structure CollCur where
  launch : Nat
  group : Nat
  blk : Nat
  cid : Nat
  deriving DecidableEq, Repr

/-- A release count held at a home for a (tile, context, round) tag (R190), least recently used first. -/
structure RelCount where
  home : Nat
  tile : Nat
  ctx : Nat
  round : Nat
  n : Nat
  deriving DecidableEq, Repr

/-! ## Memory -/

/-- A line of a cache part (R57, R166, R171): its slice, set and way, its bytes, whether memory lacks them, the tenant in whose range it lies, and its
poison (R58). -/
structure CLine where
  home : Nat
  set : Nat
  way : Nat
  data : Vec
  dirty : Bool := false
  tenant : Nat := 0
  poison : Bool := false
  deriving DecidableEq, Repr

/-- The bytes of the package (R165): cells lists every byte that differs from what an unlisted byte reads as, a CXL byte by its port and device
address (R56); cxl holds the lines of the cache parts by physical line (R171) and plru the replacement bits of their sets (16,384 × slice + set);
stamps are by physical line (R199), poison by 64 bytes of cells (R264). -/
structure Mem where
  cells : List Host.Cell := []
  cxl : Table CLine := []
  plru : Table Nat := []
  stamps : Table W32 := []
  poison : List Nat := []
  deriving DecidableEq, Repr

/-- A partition as the command processor holds it (R69, R86, R96, R97, R263): enabled, halted with its HALT_SUM, the next launch
number, the virtual times of classes 1 to 3, and its home list (slices) and bucket map (R167) as moved from the initial deal. -/
structure Part where
  enabled : Bool := false
  halted : Bool := false
  haltSum : Word := 0
  nextNum : Nat := 1
  vt : List Nat := [0, 0, 0]
  homes : List Nat := []
  moved : Table Nat := []
  chosen : Option Nat := none
  deriving DecidableEq, Repr

/-- The security processor (R24 to R31): BOOT_STAT, RCV_CTL, the flash slot, the recovery buffer and the running image by byte,
the configuration block in force, the feature offer, whether a COMMIT write of the slot is under way, and the responder's answers with what its
signatures cover: the messages that agree on a version and algorithms, those about certificates and those about measurements. -/
structure Boot where
  phase : Nat := 0
  fail : Nat := 0
  secVer : Nat := 0
  rcvLen : Nat := 0
  commit : Bool := false
  slot : Table Byte := []
  rcv : Table Byte := []
  image : Table Byte := []
  writing : Bool := false
  tileHarv : Nat := 0
  sliceHarv : Nat := 0
  ethLanes : List Nat := []
  storBif : List Nat := []
  retireCe : Nat := 0
  offer : Nat := 0
  accepted : Bool := false
  replies : List (List Byte) := []
  transcript : List Byte := []
  certs : List Byte := []
  meas : List Byte := []
  deriving DecidableEq, Repr

/-- The power manager (R16 to R23): CLK_STATE and the setting a change in progress goes to, the last window, THERM_EV, whether
narrow matrix steps ran in this window and in the last, windows below 1,800 W and below 95 °C, and the shutdown. -/
structure Power where
  clk : Nat := 0
  target : Nat := 0
  tj : Nat := 0
  watts : Nat := 0
  thermEv : Bool := false
  narrow : Bool := false
  narrowAct : Bool := false
  lowWin : Nat := 0
  coolWin : Nat := 0
  shut : Bool := false
  deriving DecidableEq, Repr

/-! ## Ethernet (chapter 2) -/

/-- A memory key entry as cached in the hub (R40, R42). -/
structure KeyEntry where
  base : Word := 0
  limit : Word := 0
  check : W32 := 0
  rights : Nat := 0
  typ : Nat := 0
  cntMode : Nat := 0
  bank : Nat := 0
  cntAddr : Word := 0
  deriving DecidableEq, Repr

/-- An endpoint context's counters, its cached key entries and whether a flush is under way (R38, R42). Its table entry (R36) lies
in the PF registers. -/
structure Endpoint where
  authFail : Nat := 0
  keyFail : Nat := 0
  tagDrop : Nat := 0
  cfgErr : Bool := false
  cache : Table KeyEntry := []
  flushing : Bool := false
  deriving DecidableEq, Repr

/-- A secure domain (R37): two key slots, their valid bits, TXSLOT and the SDI. -/
structure Domain where
  key0 : List Byte := []
  key1 : List Byte := []
  valid0 : Bool := false
  valid1 : Bool := false
  tx : Bool := false
  sdi : W32 := 0
  deriving DecidableEq, Repr

/-- An armed entry (R78, R102): its record, the sends still to match (count), and the matched sends that are still arriving. -/
structure Armed where
  id : Nat
  part : Nat
  ep : Nat
  tag : Word
  buf : Word
  len : Nat
  count : Nat
  vf : Nat
  win : Nat
  seq : Nat
  flags : Nat
  r : Record
  handles : List (Nat × Nat) := []
  ranks : List Rank := []
  inflight : Nat := 0
  retiring : Bool := false
  deriving DecidableEq, Repr

/-- A message being received (R43, R44, R52): its key entry as read at its first packet, the packets placed, and, for a tagged send, where its payload goes
and the armed entry that it matched. done: its last byte has been applied or it has failed, and it is kept so that its packets are known when they come
again. reread: its entry is read afresh, for a flush has completed (R42). refused: those of its packets that failed their check (R41). body: the packets of
a route message, which the hub puts together. -/
structure RxMsg where
  id : Nat
  src : BitVec 128
  ep : Nat
  pdc : Nat := 0
  msg : Nat
  kind : Nat
  count : Nat
  bytes : Nat := 0
  got : List Nat := []
  refused : List Nat := []
  bad : Bool := false
  key : KeyEntry := {}
  buf : Nat := 0
  armed : Option Armed := none
  body : List (Nat × List Byte × Bool) := []
  done : Bool := false
  old : Bool := false
  reread : Bool := false
  deriving DecidableEq, Repr

/-- What an outbound message carries for the device (R234, R241, R248): a collective chunk or a route message. -/
inductive Carries | chunk (step chunk : Nat) | row (id : Nat)
  deriving DecidableEq, Repr

/-- A packet delivery context (R33): whether this package initiated it, its endpoint context here, the peer with its endpoint context or, for a received flow,
with the number the peer gives the context, its delivery mode, whether RCCC controls it, and the next number of its sequence window: the next to send, or
under ROD the next to place (R43). -/
structure Pdc where
  id : Nat
  out : Bool := true
  ep : Nat
  peer : BitVec 128
  peerNum : Nat := 0
  mode : Delivery := .rud
  rccc : Bool := false
  next : Nat := 0
  deriving DecidableEq, Repr

/-- An outbound message (R33, R45 to R49): its endpoint, peer, delivery mode, spread of entropy values, bytes, the packet delivery context that it takes and
its first sequence number there, whether it has been sent, the cabling as it stood when it started (R49), and what it carries. -/
structure TxMsg where
  id : Nat
  ep : Nat
  dst : BitVec 128
  dstEp : Nat := 0
  key : Word := 0
  off : Nat := 0
  ev : Nat := 0
  width : Nat := 1
  mode : Delivery := .rud
  pdc : Option Nat := none
  psn : Option Nat := none
  sent : Bool := false
  data : List Byte := []
  poison : Bool := false
  contrib : Option Contribution := none
  aop : Nat := 0
  path : Option (Nat × List (BitVec 128)) := none
  carries : Carries
  deriving DecidableEq, Repr

/-- What leaves the Ethernet ports: the port, the destination, the entropy value, and a packet with all that it carries, a contribution or an answer. slot
is the key slot under which it is sealed (R37). -/
structure Wire where
  port : Nat := 0
  dst : BitVec 128
  ev : Nat := 0
  msg : Nat := 0
  idx : Nat := 0
  answer : Option AckKind := none
  contrib : Option Contribution := none
  src : BitVec 128 := 0
  ep : Nat := 0
  mode : Delivery := .rud
  pdc : Nat := 0
  psn : Nat := 0
  count : Nat := 1
  key : Word := 0
  off : Nat := 0
  total : Nat := 0
  tag : Word := 0
  aop : Nat := 0
  operand : Word := 0
  compare : Word := 0
  relayed : Bool := false
  sealed : Bool := false
  slot : Nat := 0
  kid : W32 := 0
  icv : Nat := 0
  data : List Byte := []
  poison : Bool := false
  deriving DecidableEq, Repr

/-- A packet held in the hub until its page is serviced (R53): op is what it is (0 write, 1 read, 2 send, 3 tagged send, 4 atomic, 5 the
contribution that it holds). -/
structure HeldPacket where
  id : Nat
  part : Nat
  pva : Nat
  op : Nat
  failed : Bool := false
  p : Packet
  deriving DecidableEq, Repr

/-- A combining entry of the port switch (R50): its chunk, what it has buffered, and when it opened in hub cycles. An entry with
pass set is a chunk whose contributions pass uncombined (R51). -/
structure CombEntry where
  id : Nat
  dst : BitVec 128
  ep : Nat := 0
  key : Word := 0
  launch : Nat
  part : Nat
  cid : Nat
  step : Nat
  chunk : Nat
  openAt : Nat := 0
  pass : Bool := false
  got : List Contribution := []
  deriving DecidableEq, Repr

/-! ## Storage (chapter 3) -/

/-- A driver queue pair (R61): submission entries not completed, completions not written, the completion tail with its pass, and
DQ_CTL, DISCARDS. -/
structure DriverQ where
  subs : List Vec := []
  comps : List (Vec × Nat) := []
  tail : Nat := 0
  passes : Nat := 0
  en : Bool := false
  off : Bool := false
  irq : Bool := false
  discards : Nat := 0
  deriving DecidableEq, Repr

/-- A Read command on a paging queue (R60, R65): its queue pair, namespace identifier, first logical block, number of blocks, and the PRP list: the 4 KiB
pages of the frame that it fills. -/
structure PageRead where
  queue : Nat
  nsid : Nat
  slba : Nat
  blocks : Nat
  prps : List Nat
  deriving DecidableEq, Repr

/-- A page in service at the storage engines (R65): its faults, what they fault for, the entry as it faulted, its frame, its Reads once they are submitted
and when that was, in hub cycles. -/
structure PageSvc where
  id : Nat
  part : Nat
  asid : Nat
  pva : Nat
  entry : Nat
  ns : Nat := 0
  lba : Nat := 0
  ssd : Nat := 0
  frame : Option Nat := none
  reads : List PageRead := []
  since : Nat := 0
  faults : List PageFault := []
  deriving DecidableEq, Repr

/-- A free-frame pool (R63, R64). -/
structure Pool where
  frames : List Nat := []
  rej : Bool := false
  deriving DecidableEq, Repr

/-! ## Commands (chapter 4) -/

/-- What a LAUNCH or ARM read at its acceptance (R88): a record with its handles and ranks, or the status that it fails with. -/
inductive ReadRecord | none | ok (r : Record) (handles : List (Nat × Nat)) (ranks : List Rank) | bad (status : Nat)
  deriving DecidableEq, Repr

/-- A command packet (R73 to R76): its 64 bytes, its acceptance time and order, the record read then, the handles it names and the
users it waits for (R83), the handle that it retires (R86), and the status that it was doomed to when it was accepted (R72, R86), or 0. -/
structure Cmd where
  uid : Nat
  bytes : Vec
  at_ : Nat := 0
  rec_ : ReadRecord := .none
  names : List (Nat × Nat) := []
  deps : List Nat := []
  noHandle : Bool := false
  closes : Option Nat := none
  doom : Nat := 0
  deriving DecidableEq, Repr

/-- The command a window runs: its start, what it waits on (a launch, a copy, a translated WAITV word with the tenant and SHU of its page, a page), and
whether it has completed and its record waits. -/
structure Run where
  cmd : Cmd
  start : Nat := 0
  launch : Nat := 0
  pa : Option Nat := none
  tenant : Nat := 0
  shu : Bool := false
  page : Option Nat := none
  finished : Bool := false
  deriving DecidableEq, Repr

/-- A command window (R73). -/
structure Window where
  q : List Cmd := []
  run : Option Run := none
  discards : Nat := 0
  deriving DecidableEq, Repr

/-- A completion record waiting for its ring (R84). holds is whether its window waits for it. -/
structure Completion where
  win : Nat
  seq : Nat
  op : Nat
  flags : Nat
  status : Nat
  detail : Nat := 0
  queued : Nat := 0
  elapsed : Nat := 0
  holds : Bool := true
  deriving DecidableEq, Repr

/-- A buffer handle (R80, R83), by partition × 65,536 + HID, with its uncompleted writers and readers in acceptance order. gone: a retirement that is not
over has been accepted (R86). -/
structure Handle where
  reg : Bool := false
  gone : Bool := false
  kind : Nat := 0
  base : Word := 0
  len : Word := 0
  writers : List Nat := []
  readers : List Nat := []
  deriving DecidableEq, Repr

/-! ## Management (chapters 1, 9) -/

/-- A shootdown in progress (R180): what it covers and the stores of earlier epochs; the stream vectors of earlier epochs are marked old. -/
structure Shoot where
  asid : Nat
  all : Bool
  page : Nat
  n : Nat
  stores : List Nat
  deriving DecidableEq, Repr

/-- SLICE_STAT of a slice (R173). -/
structure Slice where
  count : Nat := 0
  ret : Bool := false
  last : Bool := false
  deriving DecidableEq, Repr


/-! ## The package -/

/-- The context that issues in this cycle, and the word it issues (R110, R111). -/
structure Cur where
  tile : Nat
  ctx : Nat
  insn : W32 := 0
  deriving DecidableEq, Repr

/-- What the next step is: a named event of the part, an issue on a tile, or the passing of a cycle. -/
inductive Turn
  | event (i : Instr)
  | issue (tile : Nat)
  | tick
  deriving DecidableEq, Repr

/-- The whole package. agenda names the steps to come and is consumed by step; when it is empty the part's own order of notes/assumptions (log 1) decides.
cyc counts core cycles and ref6 sixths of a period of the 1.4 GHz reference, of which CYC is ref6 / 6 (R17); issuedNow the tiles that issued in this cycle;
uses counts free values. -/
structure State where
  cyc : Nat := 0
  agenda : List Turn := []
  issuedNow : List Nat := []
  cur : Option Cur := none
  nextId : Nat := 1
  uses : Nat := 0
  pf : Table Word := []
  vfr : Table Word := []
  mem : Mem := {}
  tiles : Table Tile := []
  reqs : List Req := []
  counts : List RelCount := []
  tlb2 : List (Nat × Xlat) := []
  faults : List PageFault := []
  combine : Table (List Combine) := []
  launches : Table Launch := []
  trapqs : Table TrapQ := []
  copyMsgs : List CopyCmd := []
  queues : Table (List CopyCmd) := []
  cwords : List CWord := []
  flits : List FlitMsg := []
  rmsgs : List RouteMsg := []
  rreads : List RemoteRead := []
  steps : List CollStep := []
  collCur : List CollCur := []
  arrived : List Contribution := []
  ref6 : Nat := 0
  feats : Nat := 0
  parts : Table Part := []
  barWait : List (Nat × Nat × Nat × Nat) := []
  boot : Boot := {}
  power : Power := {}
  msix : List (Nat × Nat) := []
  gated : Nat := 0
  gate : Option (Nat × Bool) := none
  endpoints : Table Endpoint := []
  domains : Table Domain := []
  rx : List RxMsg := []
  tx : List TxMsg := []
  wire : List Wire := []
  pdcs : List Pdc := []
  heldPackets : List HeldPacket := []
  combining : List CombEntry := []
  evBad : Table Nat := []
  ethDown : Nat := 0
  cxlDown : Nat := 0
  driverQs : Table DriverQ := []
  pages : List PageSvc := []
  pageWait : List PageFault := []
  pools : Table Pool := []
  engAsids : List AsidHeld := []
  ssdDown : Nat := 0
  windows : Table Window := []
  rings : Table (List Completion) := []
  handles : Table Handle := []
  users : List Nat := []
  armed : List Armed := []
  shoot : Option Shoot := none
  stset : Bool := false
  tset : List (Nat × Nat × Word) := []
  slices : Table Slice := []
  engLast : Table Nat := []
  savedCopies : List CopyCmd := []
  reads : List (List Byte) := []
  deriving DecidableEq, Repr

/-- The machine right after reset (R11, R25): every field at the value its structure states (INVENTORY.md, ## State). -/
def State.reset : State := {}

end Sys2Proof.Machine
end

