-- ==== Sys2Proof/Machine/Ops.lean ====
section
/-!
DEFINITION. The named operations every meaning is written from: the places of the state, bytes of memory, the operand rules of
R294, the write of a register, the frame of an issue (R109, R111, R284), taking a trap (R255 to R262) and returning from one.
-/
namespace Sys2Proof.Machine

/-! ## Places -/

/-- Tile t. -/
def State.tile (s : State) (t : Nat) : Tile := Tbl.getD s.tiles t {}
/-- The state with tile t replaced. -/
def State.setTile (s : State) (t : Nat) (v : Tile) : State := { s with tiles := Tbl.put s.tiles t v }
/-- The state with tile t changed. -/
def State.updTile (s : State) (t : Nat) (f : Tile → Tile) : State := s.setTile t (f (s.tile t))
/-- Context c of a tile. -/
def Tile.ctx (v : Tile) (c : Nat) : Ctx := Tbl.getD v.ctxs c {}
/-- Context c of tile t. -/
def State.ctx (s : State) (t c : Nat) : Ctx := (s.tile t).ctx c
/-- The tile with context c changed. -/
def Tile.updCtx (v : Tile) (c : Nat) (f : Ctx → Ctx) : Tile := { v with ctxs := Tbl.put v.ctxs c (f (v.ctx c)) }
/-- The state with context c of tile t changed. -/
def State.updCtx (s : State) (t c : Nat) (f : Ctx → Ctx) : State := s.updTile t fun v => v.updCtx c f
/-- CYC (R17): periods of the 1.4 GHz reference. -/
def State.CYC (s : State) : Nat := s.ref6 / 6
/-- Hub cycles (R16): periods of 1.0 GHz. -/
def State.hub (s : State) : Nat := s.ref6 * 5 / 42
/-- An interrupt vector of a function (0 the PF, n VF n) is raised (R71). -/
def State.raise (s : State) (fn vec : Nat) : State := { s with msix := s.msix ++ [(fn, vec)] }
/-- A fresh identifier, which also gives program order. -/
def State.fresh (s : State) : State := { s with nextId := s.nextId + 1 }
/-- Entry n of a list, or d. -/
def nth {α : Type} (l : List α) (n : Nat) (d : α) : α := l.getD n d
/-- The bits hi..lo of a number. -/
def bits (v hi lo : Nat) : Nat := v / 2 ^ lo % 2 ^ (hi + 1 - lo)
/-- Bit n of a number. -/
def bit (v n : Nat) : Bool := v / 2 ^ n % 2 = 1
/-- A Bool as a number. -/
def b2n (b : Bool) : Nat := if b then 1 else 0
/-- The n-bit value v read as signed. -/
def sgn (n v : Nat) : Int := if v % 2 ^ n < 2 ^ (n - 1) then (v % 2 ^ n : Int) else (v % 2 ^ n : Int) - (2 ^ n : Int)
/-- An integer wrapped to n bits. -/
def wrap (n : Nat) (v : Int) : Nat := (v % (2 ^ n : Int)).toNat

/-! ## Device registers -/

/-- Reset values of PF window C registers other than 0: CLASS_W (R97) and STOR_TMO (R66). -/
def pfReset (off : Nat) : Word := if 0xA000 ≤ off ∧ off < 0xA200 then 0x010204 else if off = 0x6800 then 1000000000 else 0
/-- The PF window C register at an offset (8 bytes). -/
def State.pfr (s : State) (off : Nat) : Word := Tbl.getD s.pf off (pfReset off)
/-- The PF window C register written. -/
def State.setPf (s : State) (off : Nat) (v : Word) : State := { s with pf := Tbl.put s.pf off v }
/-- Reset values of VF window C registers other than 0: CQ_CTL (R70). -/
def vfReset (off : Nat) : Word := if off = 0x48 then 6 else 0
/-- The register at an offset of VF v's window C. -/
def State.vfReg (s : State) (v off : Nat) : Word := Tbl.getD s.vfr (v * 0x10000 + off) (vfReset off)
/-- That register written. -/
def State.setVf (s : State) (v off : Nat) (w : Word) : State := { s with vfr := Tbl.put s.vfr (v * 0x10000 + off) w }
/-- R25: the virtual functions are enabled in phase 3 only; in any other, an access to one reaches nothing. -/
def State.vfOn (s : State) : Bool := decide (s.boot.phase = 3)

/-- Whether MRT entry k is enabled, or its disabling is still in progress (R55, R58). -/
def State.mrtOn (s : State) (k : Nat) : Bool := let v := (s.pfr (0x4018 + 32 * k)).toNat; bit v 0 || bit v 1
/-- BASE, SIZE and PART of MRT entry k (R55). -/
def State.mrtBase (s : State) (k : Nat) : Nat := (s.pfr (0x4000 + 32 * k)).toNat % 2 ^ 52 / 2 ^ 30 * 2 ^ 30
def State.mrtSize (s : State) (k : Nat) : Nat := (s.pfr (0x4008 + 32 * k)).toNat % 2 ^ 45 / 2 ^ 30 * 2 ^ 30
def State.mrtPart (s : State) (k : Nat) : Nat := bits (s.pfr (0x4010 + 32 * k)).toNat 29 24
/-! ## Launches and roles (R87, R91) -/

/-- The launch a tile's group belongs to. -/
def State.launchOf (s : State) (t : Nat) : Option Launch :=
  match (s.tile t).grp with
  | some g => Tbl.find? s.launches g.launch
  | none => none
/-- The group index of the group on tile t. -/
def State.groupIdx (s : State) (t : Nat) : Nat := match (s.tile t).grp with | some g => g.idx | none => 0
/-- The partition a tile's group runs in. -/
def State.partOf (s : State) (t : Nat) : Nat := match s.launchOf t with | some l => l.part | none => 0
/-- The launch with its key changed by f. -/
def State.updLaunch (s : State) (k : Nat) (f : Launch → Launch) : State :=
  match Tbl.find? s.launches k with
  | some l => { s with launches := Tbl.put s.launches k (f l) }
  | none => s
/-- A group of a launch changed. -/
def State.updGroup (s : State) (k g : Nat) (f : GroupSt → GroupSt) : State :=
  s.updLaunch k fun l => match Tbl.find? l.groups g with
    | some x => { l with groups := Tbl.put l.groups g (f x) }
    | none => l

/-- GRP_MIG_STAT's BUSY clears when the request that names a group of launch k has ended (R118). -/
def State.moveEnds (s : State) (k : Nat) : State :=
  let w := (s.pfr 0xA400).toNat
  if bits w 53 48 * 65536 + bits w 47 32 = k then s.setPf 0xA408 (s.pfr 0xA408 &&& 6) else s
/-- The tile where group g of a launch now lies. -/
def Launch.tileOf (l : Launch) (g : Nat) : Option Nat := (Tbl.find? l.groups g).map (·.tile)
/-- The group index of members (d, c, t) (R87). -/
def Record.groupOf (r : Record) (d c t : Nat) : Nat := (d * r.clusters + c) * r.tiles + t
/-- The members of group g (R87). -/
def Record.members (r : Record) (g : Nat) : Nat × Nat × Nat :=
  (g / r.tiles / r.clusters, g / r.tiles % r.clusters, g % r.tiles)
/-- What a role byte names, or none when unbound (R91). -/
def roleByte (l : List Nat) (r : Nat) : Option Nat := let b := l.getD r 255; if b = 255 then none else some b
/-- The tile a tile role names for the group on tile t, in its own cluster group (R92). -/
def State.tileRole (s : State) (t role : Nat) : Option Nat :=
  match s.launchOf t with
  | some l => match roleByte l.r.trole role with
    | some m => let (d, c, _) := l.r.members (s.groupIdx t); l.tileOf (l.r.groupOf d c m)
    | none => none
  | none => none
/-- The group that die, cluster and tile roles name together (R92, R235): a cluster role in the user's own die group, a die role
among the package group. -/
def Launch.roleGroup (l : Launch) (dr cr tr : Nat) : Option Nat :=
  match roleByte l.r.drole dr, roleByte l.r.crole cr, roleByte l.r.trole tr with
  | some d, some c, some m => some (l.r.groupOf d c m)
  | _, _, _ => none
/-- Whether a group of launch k is off its tile, or on its way off with its tile quiet (R119, R229). -/
def State.groupAway (s : State) (k g : Nat) : Bool :=
  match Tbl.find? s.launches k with
  | some l => match Tbl.find? l.groups g with
    | some x => decide (x.place = .displaced) || x.slab.isSome || (s.tile x.tile).quiet
    | none => false
  | none => false
/-- Whether a group of launch k is off its tile: it has been saved (R98, R119). -/
def State.groupOff (s : State) (k g : Nat) : Bool :=
  match (Tbl.find? s.launches k).bind fun l => Tbl.find? l.groups g with
  | some x => decide (x.place = .displaced) || x.slab.isSome
  | none => false
/-- The tile of a group of launch k, where it is on it. -/
def State.tileHere (s : State) (k g : Nat) : Option Nat := if s.groupAway k g then none else (Tbl.find? s.launches k).bind (·.tileOf g)
/-- R124: whether a group migrates or is displaced: no message is delivered to it. -/
def State.groupMoves (s : State) (k g : Nat) : Bool :=
  s.groupAway k g || (match (Tbl.find? s.launches k).bind fun l => Tbl.find? l.groups g with | some x => decide (x.place = .migrating) | none => false)
/-- Whether the group on a tile is migrating (R119). -/
def State.migrating (s : State) (t : Nat) : Bool :=
  match (s.tile t).grp with
  | some g => match (Tbl.find? s.launches g.launch).bind fun l => Tbl.find? l.groups g.idx with
    | some x => decide (x.place = .migrating)
    | none => false
  | none => false
/-- Whether the group on a tile waits to migrate (R119). -/
def State.ckptWait (s : State) (t : Nat) : Bool :=
  match (s.tile t).grp with
  | some g => match (Tbl.find? s.launches g.launch).bind fun l => Tbl.find? l.groups g.idx with
    | some x => decide (x.place = .migrating) && decide (x.phase = 1) && !x.full
    | none => false
  | none => false
/-- The group a tile role names for the group on tile t, in its own cluster group (R92). -/
def State.roleGroup (s : State) (t role : Nat) : Option Nat :=
  match s.launchOf t with
  | some l => (roleByte l.r.trole role).map fun m => let (d, c, _) := l.r.members (s.groupIdx t); l.r.groupOf d c m
  | none => none
/-- Context c of group g of launch k, on its tile or as it was saved. -/
def State.groupCtx (s : State) (k g c : Nat) : Ctx :=
  match Tbl.find? s.launches k with
  | some l => match Tbl.find? l.groups g with
    | some x => match x.slab with | some v => v.ctx c | none => s.ctx x.tile c
    | none => {}
  | none => {}
/-- Whether the group a tile role names for the group on tile t is away. -/
def State.roleAway (s : State) (t role : Nat) : Bool :=
  match (s.tile t).grp, s.roleGroup t role with
  | some g, some n => s.groupAway g.launch n
  | _, _ => false
/-- The die a die role names (R91). -/
def State.dieRole (s : State) (t role : Nat) : Option Nat :=
  match s.launchOf t with
  | some l => match roleByte l.r.drole role with
    | some d => (l.tileOf (l.r.groupOf d 0 0)).map (· / 1024)
    | none => none
  | none => none

/-! ## Bytes of memory (R165) -/

/-- Whether an address lies in a scratchpad window. -/
def isSpad (pa : Nat) : Bool := decide (Config.spadBase ≤ pa) && decide (pa < Config.spadBase + 0x80000000)
/-- The tile and offset of a scratchpad-window address. -/
def spadTile (pa : Nat) : Nat := (pa - Config.spadBase) / 0x80000
/-- The physical address of byte off of tile t's scratchpad. -/
def spadPa (t off : Nat) : Nat := Config.spadBase + t * 0x80000 + off
/-- Whether an address is host memory or a peer device (R165). -/
def isHost (pa : Nat) : Bool := decide (Config.hostBase ≤ pa) && decide (pa < Config.paTop)
/-- Whether an address is CXL memory (R165). -/
def isCxl (pa : Nat) : Bool := decide (Config.cxlBase ≤ pa) && decide (pa < 0x1100000000000)
/-- Whether an address is in a vault window (R165). -/
def isVault (pa : Nat) : Bool := decide (pa < 0x100000000)
/-- PORTS, the granule in bytes and the device-side base of MRT entry k (R55). -/
def State.mrtPorts (s : State) (k : Nat) : List Nat := (List.range 8).filter (bit (s.pfr (0x4010 + 32 * k)).toNat)
def State.mrtGran (s : State) (k : Nat) : Nat := if bit (s.pfr (0x4010 + 32 * k)).toNat 16 then 4096 else 256
def State.mrtHdm (s : State) (k : Nat) : Nat := bits (s.pfr (0x4018 + 32 * k)).toNat 63 52 * 2 ^ 40
/-- The enabled range that holds an address: ranges lie in CXL memory (R55). -/
def State.mrtOf (s : State) (pa : Nat) : Option Nat :=
  if isCxl pa then (List.range 64).find? fun k => s.mrtOn k && decide (s.mrtBase k ≤ pa) && decide (pa < s.mrtBase k + s.mrtSize k) else none
/-- R58: whether an address lies in an OFFLINE range: reads return poisoned lines and writes are discarded. -/
def State.offline (s : State) (pa : Nat) : Bool :=
  match s.mrtOf pa with
  | some k => bit (s.pfr (0x4018 + 32 * k)).toNat 3
  | none => false

/-- R56: the port Mk and the device-side address of address pa of range k. -/
def State.cxlPort (s : State) (k pa : Nat) : Nat × Nat :=
  let off := pa - s.mrtBase k
  let g := s.mrtGran k
  let ps := s.mrtPorts k
  let q := off / g
  (ps.getD (q % ps.length) 0, s.mrtHdm k + q / ps.length * g + off % g)
/-- Where a byte of a port's device is listed among the cells: above every physical address. -/
def portKey (m a : Nat) : Nat := 2 ^ 54 * (m + 1) + a
/-- Partition p's record of the command processor. -/
def State.part (s : State) (p : Nat) : Part := Tbl.getD s.parts p {}
/-- Whether partition p holds cluster n, taken as 128 × die + cluster (R69). -/
def State.partHas (s : State) (p n : Nat) : Bool := bit (s.pfr (0x8000 + 128 * p + 8 * (n / 64))).toNat (n % 64)
/-- VAULT of partition p (R69). -/
def State.vault (s : State) (p : Nat) : Nat := bits (s.pfr (0x8040 + 128 * p)).toNat 4 2
/-- The partition that holds cluster n: an enabled one, else one that is disabled and still names it (R69). -/
def State.holder (s : State) (n : Nat) : Option Nat :=
  match s.parts.find? fun q => q.2.enabled && s.partHas q.1 n with
  | some q => some q.1
  | none => (List.range 64).find? fun p => s.partHas p n
/-- R69, R165: the bytes of the vault part of slice n; none where no partition holds its cluster. -/
def State.vaultBytes (s : State) (n : Nat) : Nat := match s.holder n with | some p => s.vault p * 0x200000 | none => 0
/-- Whether an address lies in the vault part of its slice (R165). -/
def State.inVault (s : State) (pa : Nat) : Bool := isVault pa && decide (pa % 0x800000 < s.vaultBytes (pa / 0x800000))
/-- Where the byte at a physical address is kept (R56, R165): itself, a byte of a CXL port's device, or none where there is nothing. -/
def State.memKey (s : State) (pa : Nat) : Option Nat :=
  if isSpad pa || isHost pa || s.inVault pa then some pa
  else (s.mrtOf pa).map fun k => let (m, a) := s.cxlPort k pa; portKey m a
/-- The address of range k that is kept under a key, where the range has its port and reaches it (R56). -/
def State.keyPa (s : State) (k key : Nat) : Option Nat :=
  let ps := s.mrtPorts k
  let g := s.mrtGran k
  match ps.findIdx? fun m => decide (m + 1 = key / 2 ^ 54) with
  | some i =>
    let a := key % 2 ^ 54
    if a < s.mrtHdm k then none else some (s.mrtBase k + ((a - s.mrtHdm k) / g * ps.length + i) * g + (a - s.mrtHdm k) % g)
  | none => none

namespace Mem

/-- What a byte that no entry lists reads as: a scratchpad byte is a free value (log 3); every other byte is 0 (log 2). -/
def unlisted (seed pa : Nat) : Byte := if isSpad pa then Config.freeSpadByte seed (if seed = 0 then pa else pa % 0x80000) else 0

/-- The cells with byte pa set: a byte of RAM that reads as unlisted RAM does is not listed. -/
def putCell (cells : List Host.Cell) (pa : Nat) (v : Byte) : List Host.Cell :=
  if isSpad pa then Tbl.put cells pa v else if v = 0 then Tbl.erase cells pa else Tbl.put cells pa v

/-- The canonical form of the cells: addresses strictly rise, and no byte of RAM is listed with the value an unlisted one
has. What an unlisted scratchpad byte reads as is a free value, so a written one stays listed. -/
def wfCells : List Host.Cell → Bool
  | [] => true
  | [(a, v)] => isSpad a || decide (v ≠ 0)
  | (a, v) :: (b, w) :: t => decide (a < b) && (isSpad a || decide (v ≠ 0)) && wfCells ((b, w) :: t)

/-- The memory's canonical form. -/
abbrev wf (m : Mem) : Prop :=
  wfCells m.cells = true ∧ Tbl.ordered m.cxl = true ∧ Tbl.ordered m.plru = true ∧ Tbl.ordered m.stamps = true

end Mem

/-- The byte at a physical address behind every cache (R57, R165). The last 128 KiB of a scratchpad window, and an address where there is nothing,
read zero. -/
def State.memByte (s : State) (pa : Nat) : Byte :=
  if isSpad pa && decide (0x60000 ≤ pa % 0x80000) then 0
  else match s.memKey pa with
    | none => 0
    | some k => match Tbl.find? s.mem.cells k with
      | some v => v
      | none => Mem.unlisted (if isSpad pa then (s.tile (spadTile pa)).junk else 0) k
/-- A CXL line as a cache part holds it (R57). -/
def State.cached (s : State) (line : Nat) : Option CLine := if isCxl (64 * line) then Tbl.find? s.mem.cxl line else none
/-- The byte at a physical address as its home serves it: a line of a cache part first (R171), then memory. -/
def State.peek (s : State) (pa : Nat) : Byte :=
  match s.cached (pa / 64) with
  | some c => BitVec.ofNat 8 (c.data.toNat / 2 ^ (8 * (pa % 64)))
  | none => s.memByte pa

/-- n bytes at a physical address, little-endian (R277). -/
def State.peekN (s : State) (pa : Nat) : Nat → Nat
  | 0 => 0
  | n + 1 => (s.peek pa).toNat + 256 * s.peekN (pa + 1) n

/-- n bytes behind every cache. -/
def State.memN (s : State) (pa : Nat) : Nat → Nat
  | 0 => 0
  | n + 1 => (s.memByte pa).toNat + 256 * s.memN (pa + 1) n

/-- A 64-byte line. -/
def State.line (s : State) (l : Nat) : Vec := BitVec.ofNat 512 (s.peekN (64 * l) 64)

/-- The state with n bytes of v stored behind every cache. The last 128 KiB of a scratchpad window ignore writes (R165), and
an address where there is nothing takes none. -/
def State.pokeRaw (s : State) (pa v : Nat) : Nat → State
  | 0 => s
  | n + 1 =>
    let s1 := if isSpad pa && decide (0x60000 ≤ pa % 0x80000) then s
      else match s.memKey pa with
        | none => s
        | some k => { s with mem := { s.mem with cells := Mem.putCell s.mem.cells k (BitVec.ofNat 8 v) } }
    s1.pokeRaw (pa + 1) (v / 256) n

/-- Whether the 64 bytes of memory that a line names are poisoned (R264), or their range is OFFLINE (R58). -/
def State.memPoisoned (s : State) (l : Nat) : Bool :=
  (match s.memKey (64 * l) with | some k => s.mem.poison.contains (k / 64) | none => false) || s.offline (64 * l)
/-- Whether a line as its home serves it is poisoned. -/
def State.poisoned (s : State) (l : Nat) : Bool :=
  match s.cached l with
  | some c => c.poison || s.offline (64 * l)
  | none => s.memPoisoned l
/-- The state with the poison bit of a line of memory set or cleared. -/
def State.setMemPoison (s : State) (l : Nat) (p : Bool) : State :=
  match s.memKey (64 * l) with
  | none => s
  | some k =>
    let ls := if p then (if s.mem.poison.contains (k / 64) then s.mem.poison else k / 64 :: s.mem.poison)
      else s.mem.poison.filter (· ≠ k / 64)
    { s with mem := { s.mem with poison := ls } }
/-- The state with a line's poison bit set or cleared where the line lies: in a cache part, or in memory. -/
def State.setPoison (s : State) (l : Nat) (p : Bool) : State :=
  match s.cached l with
  | some c => { s with mem := { s.mem with cxl := Tbl.put s.mem.cxl l { c with poison := p } } }
  | none => s.setMemPoison l p

/-! ## Commands and their completion records (R76, R83, R84) -/

/-- Window w of VF v. -/
def State.window (s : State) (v w : Nat) : Window := Tbl.getD s.windows (16 * v + w) {}
/-- That window changed. -/
def State.updWindow (s : State) (v w : Nat) (f : Window → Window) : State :=
  { s with windows := Tbl.put s.windows (16 * v + w) (f (s.window v w)) }

/-- A completion record's 32 bytes as a number (R84). -/
def Completion.bytes (c : Completion) (phase : Nat) : Nat :=
  c.seq + 2 ^ 32 * c.win + 2 ^ 40 * c.op + 2 ^ 48 * c.status + 2 ^ 64 * (c.detail % 2 ^ 64) + 2 ^ 128 * c.queued
    + 2 ^ 160 * (c.elapsed % 2 ^ 64) + 2 ^ 224 * phase

/-- R84: completion records of VF v are written in completion order as the ring has room; a command whose record waits holds its
window. A record that NOREC leaves out, or that meets a disabled ring, only frees its window (R75). -/
def State.flushRing (s : State) (v : Nat) : Nat → State
  | 0 => s
  | n + 1 =>
    match Tbl.getD s.rings v [] with
    | [] => s
    | c :: rest =>
      let ctl := (s.vfReg v 0x48).toNat
      let size := 2 ^ bits ctl 4 0
      let tail := (s.vfReg v 0x50).toNat
      let head := (s.vfReg v 0x58).toNat % 2 ^ 32
      let wanted := bit ctl 8 && !(bit c.flags 1 && decide (c.status = 0))
      if wanted && decide (size ≤ (tail + 2 ^ 32 - head) % 2 ^ 32) then s
      else
        let s := if wanted then
            let s := s.pokeRaw (Config.hostBase + (s.vfReg v 0x40).toNat + 32 * (tail % size))
              (c.bytes ((tail / size + 1) % 2)) 32
            let s := s.setVf v 0x50 (BitVec.ofNat 64 ((tail + 1) % 2 ^ 32))
            if bit c.flags 0 then s.raise v 0 else s
          else s
        let s := { s with rings := Tbl.put s.rings v rest }
        let s := if c.holds then s.updWindow v c.win fun w => { w with run := none } else s
        s.flushRing v n

/-- A completion record enters its ring. -/
def State.complete (s : State) (v : Nat) (c : Completion) : State :=
  let q := Tbl.getD s.rings v [] ++ [c]
  State.flushRing { s with rings := Tbl.put s.rings v q } v q.length

/-- The header of a command packet (R75). -/
def Cmd.op (c : Cmd) : Nat := bits c.bytes.toNat 7 0
def Cmd.flags (c : Cmd) : Nat := bits c.bytes.toNat 15 8
def Cmd.seq (c : Cmd) : Nat := bits c.bytes.toNat 63 32

/-- A command of window w ends with a status: it is no user of a handle any more, a retirement of a handle is over (R86), and its record goes to the ring
(R84: QUEUED saturates). start is the cycle at which it started, or none. -/
def State.endCmd (s : State) (v w : Nat) (c : Cmd) (start : Option Nat) (status detail : Nat) (holds : Bool) : State :=
  let st := start.getD s.CYC
  let s := match c.closes with | some k => { s with handles := Tbl.put s.handles k { Tbl.getD s.handles k {} with gone := false } } | none => s
  State.complete { s with users := s.users.filter (· ≠ c.uid) } v
    { win := w, seq := c.seq, op := c.op, flags := c.flags, status, detail, holds
      queued := min (st - c.at_) 0xFFFFFFFF, elapsed := s.CYC - st }

/-- The command that window w runs completes (R76). -/
def State.completeCmd (s : State) (v w status detail : Nat) : State :=
  match (s.window v w).run with
  | none => s
  | some r =>
    if r.finished then s
    else (s.updWindow v w fun x => { x with run := some { r with finished := true } }).endCmd v w r.cmd (some r.start) status detail true

/-- Every queued and running command of VF v completes with a status (R86); a running LAUNCH names its launch (R84). -/
def State.flushWindows (s : State) (v status : Nat) : State :=
  (List.range 16).foldl (fun s w =>
    let q := (s.window v w).q
    let s := (s.completeCmd v w status (match (s.window v w).run with | some r => r.launch | none => 0)).updWindow v w fun x => { x with q := [] }
    q.foldl (fun s c => s.endCmd v w c none status 0 false) s) s

/-! ## The trap queue (R260 to R262) -/

/-- The state with partition p changed. -/
def State.updPart (s : State) (p : Nat) (f : Part → Part) : State := { s with parts := Tbl.put s.parts p (f (s.part p)) }
/-- Whether partition p is enabled and not halted. -/
def State.partLive (s : State) (p : Nat) : Bool := (s.part p).enabled && !(s.part p).halted
/-- Partition p's trap queue. -/
def State.tq (s : State) (p : Nat) : TrapQ := Tbl.getD s.trapqs p {}
/-- The state with partition p's trap queue replaced. -/
def State.setTq (s : State) (p : Nat) (q : TrapQ) : State := { s with trapqs := Tbl.put s.trapqs p q }

/-- A record's 64 bytes as a number (R261). -/
def TrapRec.bytes (r : TrapRec) (idx : Nat) : Nat :=
  r.kind + 2 ^ 8 * r.code + 2 ^ 16 * r.detail + 2 ^ 32 * r.launch + 2 ^ 48 * r.group + 2 ^ 64 * r.ctx + 2 ^ 72 * r.gen
    + 2 ^ 80 * r.tile + 2 ^ 96 * r.insn.toNat + 2 ^ 128 * r.pc.toNat + 2 ^ 192 * r.addr.toNat + 2 ^ 256 * r.aux.toNat
    + 2 ^ 320 * (r.at_ % 2 ^ 64) + 2 ^ 384 * (idx % 2 ^ 32) + 2 ^ 480 * ((idx / 4096 + 1) % 2)

/-- R377: an entry of a launch that a terminal trap ends closes with nothing further written. -/
def Reasm.shut (e : Reasm) : Reasm := if e.state = 0 then e else { e with state := 4, due := none, closing := false, bad := false }

/-- Stop every context of the groups a launch runs, as a halt or a terminal trap does (R86, R259), with its route unit and its entries (R377). -/
def Tile.stopAll (v : Tile) : Tile :=
  { v with route := none, reasm := v.reasm.map Reasm.shut, ctxs := Tbl.mapV (fun _ x =>
      if x.state = .slotted ∨ x.state = .cached then { x with state := .stopped, park := 0 } else x) v.ctxs }

/-- The state with every tile on which launch k has a group changed by f. -/
def State.onLaunchTiles (s : State) (k : Nat) (f : Tile → Tile) : State :=
  { s with tiles := Tbl.mapV (fun _ v => if v.grp.map (·.launch) = some k then f v else v) s.tiles }

/-- A tile no group runs on: its L1, its translations, its rotation table and its scratchpad stay. No old word of its code outlives the launch there (R279). -/
def Tile.vacate (v : Tile) : Tile :=
  { rotLo := v.rotLo, rotHi := v.rotHi, rotNext := v.rotNext, rotAt := v.rotAt, l1 := v.l1, asids := v.asids, tlb := v.tlb
    bank := v.bank, junk := v.junk }

/-- The number a launch has among its partition's, by launch key. -/
def launchNum (k : Nat) : Nat := k % 65536

/-- The record of a launch that an armed entry fired (R78, R84): QUEUED runs until the users before it have completed. -/
def State.firedOver (s : State) (l : Launch) (status : Nat) : State :=
  match l.fired with
  | some (v, w, seq, fl) =>
    let st := l.startAt.getD s.CYC
    s.complete v { win := w, seq, op := 2, flags := fl, status, detail := l.num, holds := false
                   queued := min (st - l.acceptedAt) 0xFFFFFFFF, elapsed := s.CYC - st }
  | none => s

/-- R179: the faults picked are of nobody any more. The messages of contexts go on, and free the entries that they opened and wake those that joined these; they
find no context themselves, none having generation 256. The waits of engines end. -/
def orphans (pick : PageFault → Bool) (fs : List PageFault) : List PageFault :=
  (fs.filter fun f => decide (f.who = .ctx) || !pick f).map fun f => if pick f then { f with gen := 256 } else f

/-- R263, R86: the partition halts. HALT_SUM keeps the first halting event; its launches and commands end HALTED with no
completion word (R96), its armed entries retire, its records not yet written are discarded (R268), and its parked accesses, flits,
copies, routes, steps and page faults go (R210, R253, R361). VF vector 2 is raised (R71). -/
def State.haltPart (s : State) (p code reason tile : Nat) : State :=
  if (s.part p).halted then s else
  let s := s.updPart p fun q => { q with
    halted := true, haltSum := BitVec.ofNat 64 (code * 2 ^ 56 + reason * 2 ^ 52 + tile * 2 ^ 32) }
  let s := s.setTq p { s.tq p with waitRecs := [] }
  let mine : Nat → Bool := fun k => decide (k / 65536 = p)
  let onPart : Nat → Bool := fun t => match (s.tile t).grp with | some g => mine g.launch | none => false
  let s := { s with
    reqs := s.reqs.filter fun r => !onPart r.tile
    rmsgs := s.rmsgs.filter fun m => decide (m.part ≠ p)
    flits := s.flits.filter fun m => !mine m.launch
    rreads := s.rreads.filter fun r => !onPart r.tile
    barWait := s.barWait.filter fun w => !onPart w.2.2.1
    counts := s.counts.filter fun k => !onPart k.tile
    tiles := Tbl.mapV (fun t v => if onPart t then v.vacate else v) s.tiles }
  let s := s.launches.foldl (fun s l => if mine l.1 then s.firedOver l.2 13 else s) s
  let s := { s with
    launches := s.launches.filter fun l => !mine l.1
    steps := s.steps.filter fun x => !mine x.launch
    collCur := s.collCur.filter fun x => !mine x.launch
    arrived := s.arrived.filter fun c => decide (c.part ≠ p)
    copyMsgs := s.copyMsgs.filter fun c => decide (c.part ≠ p)
    users := s.users.filter fun u => !s.launches.any fun l => mine l.1 && decide (l.2.uid = u)
    queues := Tbl.mapV (fun _ q => q.filter fun c => decide (c.part ≠ p)) s.queues
    cwords := s.cwords.filter fun c => decide (c.part ≠ p)
    faults := orphans (fun f => decide (f.part = p)) s.faults
    pageWait := orphans (fun f => decide (f.part = p)) s.pageWait
    pages := s.pages.map fun (x : PageSvc) => if x.part = p then { x with faults := orphans (fun _ => true) x.faults } else x
    savedCopies := s.savedCopies.filter fun c => decide (c.part ≠ p)
    armed := s.armed.filter fun a => decide (a.part ≠ p) }
  let s := if bits (s.pfr 0xA400).toNat 53 48 = p then s.setPf 0xA408 (s.pfr 0xA408 &&& 6) else s
  (s.flushWindows (p + 1) 13).raise (p + 1) 2

/-- Write one record now: 64 bytes at BASE + 64 × (i mod 4096), then TAIL (R262). -/
def State.writeRec (s : State) (p : Nat) (r : TrapRec) : State :=
  let q := s.tq p
  let s := s.pokeRaw (Config.hostBase + q.base.toNat + 64 * (q.tail % 4096)) (r.bytes q.tail) 64
  let s := if q.tail = q.head then s.raise (p + 1) 1 else s
  s.setTq p { q with tail := q.tail + 1, live := if r.kind = 2 then Tbl.put q.live q.tail r else q.live }

/-- R262: a record meets its ring. -/
def State.pushRec (s : State) (p : Nat) (r : TrapRec) : State :=
  let q := s.tq p
  let n := q.tail - q.head
  if r.kind = 2 then
    if q.en && decide (n < 4095) && q.waitRecs.isEmpty then s.writeRec p r
    else s.setTq p { q with waitRecs := q.waitRecs ++ [r] }
  else if r.kind = 3 then
    if q.en && decide (n < 4095) then s.writeRec p r
    else s.setTq p { q with lost := min (q.lost + 1) 0xFFFFFFFF }
  else if q.en && decide (n ≤ 4095) then s.writeRec p r
  else s.haltPart p r.code 1 r.tile

/-- R262: waiting replayable records are written as room frees. -/
def State.drainRecs (s : State) (p : Nat) : Nat → State
  | 0 => s
  | k + 1 =>
    let q := s.tq p
    match q.waitRecs with
    | [] => s
    | r :: rest =>
      if q.en && decide (q.tail - q.head < 4095) then
        ((s.setTq p { q with waitRecs := rest }).writeRec p r).drainRecs p k
      else s

/-! ## Taking a trap (R254 to R259) -/

/-- The causes of R254. -/
def causeStaleTimeout : Nat := 1
def causeStallShort : Nat := 2
def causeSegLimit : Nat := 3
def causePageAbsent : Nat := 4
def causeStorageError : Nat := 5
def causeIllegal : Nat := 16
def causePriv : Nat := 17
def causeSegRights : Nat := 18
def causeMisalign : Nat := 19
def causePageRights : Nat := 20
def causeFormat : Nat := 21
def causePoison : Nat := 22
def causeRole : Nat := 23
def causeRouteCfg : Nat := 24
def causeBarrier : Nat := 25
def causeAccOwner : Nat := 26
def causeUser : Nat := 27
def causeCollective : Nat := 28
def causeQueue : Nat := 29

/-- R254: codes 1 to 5 are replayable. -/
def replayable (cause : Nat) : Bool := decide (1 ≤ cause) && decide (cause ≤ 5)

/-- What a trap says of itself (R258, R261): vaddr is what the crown's TADDR shows where that is not the address of the record, the PVA of a page
fault. -/
structure TrapInfo where
  cause : Nat
  pc : Word := 0
  addr : Word := 0
  insn : W32 := 0
  fetch : Bool := false
  prog : Nat := 0
  detail : Nat := 0
  aux : Word := 0
  vaddr : Option Word := none
  deriving DecidableEq, Repr

/-- The queue record of a trap of context c on tile t. -/
def State.trapRecOf (s : State) (t c : Nat) (i : TrapInfo) : TrapRec :=
  { kind := if replayable i.cause then 2 else 1, code := i.cause, detail := i.detail
    launch := (match s.launchOf t with | some l => l.num | none => 0), group := s.groupIdx t, ctx := c, gen := (s.ctx t c).gen
    tile := t, insn := i.insn, pc := i.pc, addr := i.addr, aux := i.aux, at_ := s.CYC
    ref := (match (s.tile t).grp with | some g => g.launch | none => 0) }

/-- The pending-trap record of R258. -/
def State.pendOf (s : State) (t c : Nat) (i : TrapInfo) : PendTrap :=
  { tfpc := i.pc, taddr := i.vaddr.getD i.addr, at_ := s.cyc, when := s.CYC, detail := i.detail, aux := i.aux, addr := i.addr
    tcause := BitVec.ofNat 64 (i.cause + 2 ^ 8 * c + 2 ^ 16 * (s.ctx t c).gen + 2 ^ 24 * b2n (replayable i.cause)
      + 2 ^ 32 * i.insn.toNat) }

/-- R258: a trap joins those pending in order of occurrence, the lower context number first where two occur in one cycle. -/
def pendAdd (ps : List PendTrap) (p : PendTrap) : List PendTrap :=
  let later := fun (q : PendTrap) => decide (q.at_ = p.at_) && decide (bits p.tcause.toNat 13 8 < bits q.tcause.toNat 13 8)
  ps.filter (fun q => !later q) ++ p :: ps.filter later

/-- The queue record of a pending trap of group g of a launch, on tile t (R258, R268). -/
def PendTrap.rec_ (p : PendTrap) (num g t k : Nat) : TrapRec :=
  let v := p.tcause.toNat
  { kind := 1, code := v % 256, detail := p.detail, launch := num, group := g, ctx := bits v 13 8, gen := bits v 23 16, tile := t
    insn := BitVec.ofNat 32 (v / 2 ^ 32), pc := p.tfpc, addr := p.addr, aux := p.aux, at_ := p.when, ref := k }
/-- R262: a record joins those in order of occurrence. -/
def recAdd (rs : List TrapRec) (r : TrapRec) : List TrapRec := rs.filter (fun q => decide (q.at_ ≤ r.at_)) ++ r :: rs.filter fun q => decide (r.at_ < q.at_)
/-- The records of the terminal traps that a launch still holds: those pending for a crown, on its tile or as it was saved, and those that a migration held
back (R124, R268). -/
def State.heldTraps (s : State) (l : Launch) (k : Nat) : List TrapRec :=
  l.groups.flatMap fun (g, x) =>
    ((match x.slab with | some v => v | none => s.tile x.tile).pend.filter fun (p : PendTrap) => !bit p.tcause.toNat 24).map (fun (p : PendTrap) => p.rec_ l.num g x.tile k) ++ x.ends

/-- R259: launch k ends by the terminal traps rs. Every context of it stops; its terminal traps are recorded in order of occurrence (R262) and its pending
replayable traps discarded (R268); copies, routes and steps end as their events find the launch ending. -/
def State.endLaunch (s : State) (k : Nat) (rs : List TrapRec) : State :=
  match Tbl.find? s.launches k with
  | none => s
  | some l =>
    if l.st = .ending ∨ l.st = .finished then rs.foldl (fun s r => s.pushRec l.part r) s else
    let recs := (s.heldTraps l k ++ rs).foldl recAdd []
    let s := s.updLaunch k fun l => { l with
      st := .ending, trapped := true
      groups := Tbl.mapV (fun _ x => { x with ends := [], slab := x.slab.map fun v => { v with pend := [] } }) l.groups }
    let back := s.savedCopies.filter fun c => decide (c.part * 65536 + c.launch = k)
    let s := { s with savedCopies := s.savedCopies.filter fun c => decide (c.part * 65536 + c.launch ≠ k)
                      cwords := s.cwords.filter fun w => !(w.entry.isSome && decide (w.part * 65536 + w.launch = k)) }
    let s := back.foldl (fun (s : State) c =>
      let key := (c.die * 16 + c.eng) * 8 + c.q
      { s with queues := Tbl.put s.queues key (Tbl.getD s.queues key [] ++ [c]) }) s
    let s := s.onLaunchTiles k fun v => { v.stopAll with pend := [] }
    let q := s.tq l.part
    let s := s.setTq l.part { q with
      waitRecs := q.waitRecs.filter fun r => !(r.who = .ctx && r.ref = k)
      live := q.live.filter fun (_, r) => !(r.who = .ctx && r.ref = k) }
    recs.foldl (fun s r => s.pushRec l.part r) s

/-- A terminal trap of a context on tile t ends launch k: at once, or at the resume where its group is migrating (R124). -/
def State.fatal (s : State) (t k : Nat) (r : TrapRec) : State :=
  if s.migrating t then s.updGroup k (s.groupIdx t) fun g => { g with ends := g.ends ++ [r] } else s.endLaunch k [r]

/-- Whether a trap of context c goes to the crown's handler (R257; a halted crown takes none, R385). -/
def State.toHandler (s : State) (t c cause : Nat) : Bool :=
  cause ≠ 4 && c ≠ 0 && (match s.launchOf t with | some l => l.r.handler ≠ 0 | none => false)
    && (s.ctx t 0).state ≠ .halted

/-- TAKING A TRAP, the one shared operation (R255, R257): the context stops with STATE 4; a replayable trap leaves PARK 10 with
the instruction in the latch and the cause in L_AUX; the trap goes to the crown's handler or to the trap queue, and a terminal
trap in the queue ends the launch, or is kept until the resume where its group is migrating (R124). While the launch ends, a replayable trap is discarded
(R259). -/
def State.takeTrap (s : State) (t c : Nat) (i : TrapInfo) : State :=
  let ending : Bool := match s.launchOf t with | some l => decide (l.st = .ending ∨ l.st = .finished) | none => false
  let s := s.updCtx t c fun x => { x with
    state := .stopped, busy := false, parkedAt := s.cyc, readyAt := s.cyc + 4, deferred := none
    park := if replayable i.cause then 10 else 0
    latch := some { fetch := i.fetch, insn := i.insn, pc := i.pc, prog := i.prog, aux := if replayable i.cause then i.cause else 0
                    next := x.latch.bind fun l => if l.pc = i.pc then l.next else none } }
  if ending then
    if replayable i.cause then s else s.pushRec (s.partOf t) (s.trapRecOf t c i)
  else if s.toHandler t c i.cause then s.updTile t fun v => { v with pend := pendAdd v.pend (s.pendOf t c i) }
  else
    let k := match (s.tile t).grp with | some g => g.launch | none => 0
    let r := s.trapRecOf t c i
    if replayable i.cause then s.pushRec (s.partOf t) r
    else s.fatal t k r

/-- R258: the crown of tile t takes its oldest pending trap. -/
def State.crownTake (s : State) (t : Nat) : State :=
  let v := s.tile t
  let crown := v.ctx 0
  match v.pend with
  | [] => s
  | p :: rest =>
    if v.inH || crown.state ≠ .slotted || crown.busy then s
    else
      let held := crown.latch.filter fun l => !l.sent
      let s := { s with barWait := s.barWait.filter fun w => !(decide (w.2.2.1 = t) && decide (w.2.2.2 = 0)) }
      (s.setTile t { v with
        pend := rest, inH := true, inHTrap := some p, held
        semWait := v.semWait.filter fun w => decide (w.2 ≠ 0)
        tepc := (match held with | some l => l.pc | none => crown.pc)
        tfpc := p.tfpc, taddr := p.taddr, tcause := p.tcause }).updCtx t 0 fun x =>
          { x with pc := (match s.launchOf t with | some l => l.r.handler | none => 0), park := 0, latch := none }

/-- The cycle by which every fixed-latency result of a context has landed (R140). -/
def Ctx.landed (x : Ctx) : Nat :=
  (x.x.els.flatMap fun r => r.late.map (·.1)).foldl max (x.fflLate.foldl (fun n p => max n p.1) 0)

/-- R255, R268: the replay of a stopped context: it issues first the instruction in its latch, or fetches again the word whose fetch trapped. A short read
issues again when the result has landed (R141). -/
def State.replay (s : State) (t c : Nat) : State :=
  s.updCtx t c fun x => if x.state = .stopped && decide (x.park = 10) then
    let short := match x.latch with | some l => decide (l.aux = causeStallShort) | none => false
    { x with state := if x.slot.isSome then .slotted else .cached, park := 0, ckptStop := x.ckptStop || s.ckptWait t
             readyAt := max (max x.readyAt (s.cyc + 1)) (if short then x.landed else 0)
             latch := (x.latch.filter fun l => !l.fetch).map fun l => { l with aux := 0 } } else x

/-- R258, R389: returning from the crown's handler with an action: the crown resumes at TEPC; the trap taken is replayed, or made
terminal, or the launch ends. -/
def State.trapReturn (s : State) (t action : Nat) : State :=
  let v := s.tile t
  let k := match v.grp with | some g => g.launch | none => 0
  let s1 := (s.setTile t { v with inH := false, inHTrap := none, held := none }).updCtx t 0 fun x => { x with
    pc := v.tepc, latch := match v.held with | some l => if l.pc = v.tepc then some l else none | none => none }
  match v.inHTrap with
  | none => s1
  | some p =>
    let c := bits p.tcause.toNat 13 8
    if bit p.tcause.toNat 24 && action = 0 then s1.replay t c
    else (s1.updCtx t c fun x => { x with park := 0 }).fatal t k
      (p.rec_ (match s.launchOf t with | some l => l.num | none => 0) (s.groupIdx t) t k)

/-! ## Registers and operands (R126, R127, R294) -/

/-- The value of a register that a read at cycle n returns: the newest fixed-latency result that has landed (R141). -/
def Reg.seen (r : Reg) (n : Nat) : Word :=
  match r.late.find? (fun p => decide (p.1 ≤ n)) with
  | some p => p.2
  | none => r.val
/-- Whether a read at cycle n is short (R141). -/
def Reg.isShort (r : Reg) (n : Nat) : Bool := match r.late with | p :: _ => decide (n < p.1) | [] => false
/-- Whether QMAP maps the message queues (R230). -/
def Ctx.mapped (x : Ctx) : Bool := x.qmap.toNat % 2 = 1
/-- Register r of a context. -/
def Ctx.reg (x : Ctx) (r : Nat) : Reg := x.x.getD r {}
/-- The context with register r replaced. -/
def Ctx.setReg (x : Ctx) (r : Nat) (v : Reg) : Ctx := { x with x := x.x.set r v }

/-- What reading a source register gives (R141, R294). -/
inductive Src | ok (v : Word) | illegal | empty | short (v : Word) | poison
  deriving DecidableEq, Repr

/-- Reading source register r at cycle n. -/
def Ctx.src (x : Ctx) (n r : Nat) : Src :=
  if r = 0 then .ok 0
  else if x.mapped && r = 30 then .illegal
  else if x.mapped && r = 31 then
    match x.rxq with
    | [] => .empty
    | f :: _ => if f.poison then .poison else .ok f.val
  else
    let g := x.reg r
    if g.st ≠ .full then .empty
    else if g.poison then .poison
    else if g.isShort n then .short (g.seen n)
    else .ok (g.seen n)

/-- The value a source carries, where it carries one. -/
def Src.value : Src → Word
  | .ok v => v
  | .short v => v
  | _ => 0

/-- The source is SHORT. -/
def Src.isShort : Src → Bool
  | .short _ => true
  | _ => false

/-- How one issue ends: complete, complete with a jump, complete with the context as the state says, a trap, a park with its progress and timer, not ready
after all, or issued and holding its context not ready until it is answered, where busyRx has read x31. -/
inductive Iss
  | done (s : State)
  | jump (s : State) (pc : Word)
  | ret (s : State)
  | trap (s : State) (cause : Nat) (addr : Word) (prog : Nat)
  | park (s : State) (k prog timer : Nat)
  | hold (s : State)
  | busy (s : State)
  | busyRx (s : State)

/-- The trap of a cause with no address. -/
def Iss.fail (s : State) (cause : Nat) : Iss := .trap s cause 0 0

/-- The number of contexts of the group on tile t (R88). -/
def State.ctxN (s : State) (t : Nat) : Nat := match s.launchOf t with | some l => l.r.ctx | none => 0

/-- The group a QDEST names (R379, R91): its die, cluster and tile roles together. -/
def State.qdestGroup (s : State) (t : Nat) (q : Nat) : Option Nat :=
  match s.launchOf t with
  | some l => l.roleGroup (bits q 20 19) (bits q 18 12) (bits q 11 6)
  | none => none

/-- R254, R363: a QDEST value that makes a write of x30 trap QUEUE. -/
def qdestBad (n q : Nat) : Bool :=
  bits q 63 40 ≠ 0 || bits q 31 30 ≠ 0 || bits q 23 21 ≠ 0 || (bit q 24 && (bits q 29 25 = 0 || bits q 29 25 > 29))
    || decide (n ≤ bits q 5 0)

/-- PARK 1: the context waits for register r (R111). -/
def parkOn (s : State) (t c r : Nat) : Iss := .park (s.updCtx t c fun x => { x with waitOn := r }) 1 0 0

/-- The destination half of the operand rules (R127, R230, R294): none when register d may be written now. -/
def State.dstStop (s : State) (t c d : Nat) : Option Iss :=
  let x := s.ctx t c
  if d = 0 then none
  else if x.mapped && d = 31 then some (.fail s causeIllegal)
  else if x.mapped && d = 30 then
    if qdestBad (s.ctxN t) x.qdest.toNat then some (.fail s causeQueue)
    else if (s.qdestGroup t x.qdest.toNat).isNone then some (.fail s causeRole)
    else if x.txPend.isSome || (x.reg 30).st = .pending then some (parkOn s t c 30)
    else none
  else if (x.reg d).st = .pending then some (parkOn s t c d)
  else none

/-- An issue that does not complete, because its context is not ready, parks, traps or waits to be answered, has taken no flit from the receive queue, which is
as it was: the flit leaves when the instruction completes (log 57). -/
def Iss.unread (t c : Nat) (q : List Flit) : Iss → Iss
  | .hold s => .hold (s.updCtx t c fun x => { x with rxq := q })
  | .park s k prog timer => .park (s.updCtx t c fun x => { x with rxq := q }) k prog timer
  | .trap s cause addr prog => .trap (s.updCtx t c fun x => { x with rxq := q }) cause addr prog
  | .busy s => .busyRx (s.updCtx t c fun x => { x with rxq := q })
  | i => i

/-- The operand rules of R294 over sources srcs and destinations dsts: in the order illegal use, empty source, pending
destination, short read under SCHK, poison. A read of x31 under QMAP takes one flit; a write of x30 is remembered as what sends (R230). -/
def withOps (s : State) (t c : Nat) (srcs dsts : List Nat) (k : List Word → State → Iss) : Iss :=
  let x := s.ctx t c
  let vs := srcs.map (x.src s.cyc)
  if vs.contains .illegal then .fail s causeIllegal
  else match dsts.findSome? (s.dstStop t c) with
    | some (.trap s' ca ad pr) => .trap s' ca ad pr
    | stop =>
      if vs.contains .empty then parkOn s t c ((srcs.find? fun r => x.src s.cyc r = .empty).getD 0)
      else match stop with
        | some i => i
        | none =>
          if x.schk && vs.any Src.isShort then .fail s causeStallShort
          else if vs.contains .poison then .fail s causePoison
          else
            let s := if x.mapped && dsts.contains 30 then s.updCtx t c fun x =>
                { x with sentBy := { insn := (match s.cur with | some u => u.insn | none => 0), pc := x.pc } } else s
            if x.mapped && srcs.contains 31 then
              (k (vs.map Src.value) (s.updCtx t c fun x => { x with rxq := x.rxq.tail })).unread t c x.rxq
            else k (vs.map Src.value) s

/-- A flit leaves for the context QDEST names (R230). It carries the generation QDEST gives; id is its place in program order. -/
def State.sendFlit (s : State) (t c : Nat) (v : Word) (poison : Bool) : State :=
  let x := s.ctx t c
  let q := x.qdest.toNat
  let f : Flit := { srcTile := t, srcCtx := c, fill := bit q 24, freg := bits q 29 25, gen := bits q 39 32, val := v, poison }
  match s.qdestGroup t q, (s.tile t).grp with
  | some d, some g =>
    let m : FlitMsg := { id := s.nextId, launch := g.launch, srcGroup := g.idx, dstGroup := d, dstCtx := bits q 5 0, f }
    (State.fresh { s with flits := s.flits ++ [m] }).updCtx t c fun x => { x with txPend := some f }
  | _, _ => s

/-- R126, R140, R230: the result v of latency lat lands in register d. x0 discards it; x30 under QMAP sends it. A result whose
latency is at most the issue spacing of 4 cycles is there for the context's next issue. -/
def State.setX (s : State) (t c d : Nat) (v : Word) (lat : Nat) : State :=
  if d = 0 then s
  else if (s.ctx t c).mapped && d = 30 then s.sendFlit t c v false
  else s.updCtx t c fun x =>
    let r := x.reg d
    if lat ≤ 4 then x.setReg d { r with val := v, st := .full, poison := false, dirty := true, late := [] }
    else x.setReg d { r with val := r.val, st := .full, poison := false, dirty := true, late := (s.cyc + lat, v) :: r.late }

/-- R126: register d awaits a variable-latency result. -/
def State.setPending (s : State) (t c d : Nat) : State :=
  if d = 0 then s else s.updCtx t c fun x =>
    let r := x.reg d
    x.setReg d { r with st := .pending, val := (match r.late with | p :: _ => p.2 | [] => r.val), late := [], dirty := true }

/-- Whether register d is open, remembered by an access that may end in a trap, which leaves the register as it was (R255). -/
def State.wasOpen (s : State) (t c d : Nat) : Bool := decide (((s.ctx t c).reg d).st = .open)
/-- R255: the destination of an instruction that traps after all is as it was. -/
def State.unPend (s : State) (t c d : Nat) (wasOpen : Bool) : State :=
  if d = 0 then s else s.updCtx t c fun x =>
    let r := x.reg d
    if r.st = .pending then x.setReg d { r with st := if wasOpen then .open else .full } else x

/-- A context woken in cycle n is ready from n + 1 (R109). -/
def Ctx.wake (x : Ctx) (n : Nat) : Ctx := { x with park := 0, readyAt := max x.readyAt (n + 1), swapNow := false }

/-- R127: a variable-latency result, a fill or a flit lands in register d, which becomes full; a context parked on an empty
register wakes. A result for x30 under QMAP leaves as a flit (R294). -/
def State.landX (s : State) (t c d : Nat) (v : Word) (poison : Bool) : State :=
  if d = 0 then s
  else
    let s := s.updCtx t c fun x =>
      let x := x.setReg d { val := v, st := .full, poison, dirty := true }
      if x.park = 1 ∧ x.waitOn = d then x.wake s.cyc else x
    if (s.ctx t c).mapped && d = 30 then s.sendFlit t c v poison else s

/-- FFL at cycle n: the flags set and those of fixed-latency results that have landed (R141, R156). -/
def Ctx.fflAt (x : Ctx) (n : Nat) : Byte := x.fflLate.foldl (fun f p => if p.1 ≤ n then f ||| p.2 else f) x.ffl

/-- R156: exception flags of the context are set, at once or when a fixed-latency result lands; its landing is kept where it raises none (R311). -/
def State.addFfl (s : State) (t c : Nat) (f : Byte) (lat : Nat) : State :=
  s.updCtx t c fun x =>
    if lat = 0 then { x with ffl := x.ffl ||| f }
    else { x with ffl := x.fflAt s.cyc, fflLate := x.fflLate.filter (fun p => decide (s.cyc < p.1)) ++ [(s.cyc + lat, f)] }

/-! ## The frame of an issue (R109, R111, R255, R284) -/

/-- Where a context goes on once a WAITW or WAITC at its pc has been issued again: past it, or where it had issued to meanwhile (R346). -/
def Ctx.onward (x : Ctx) : Word := match x.latch.bind (·.next) with | some p => p | none => x.pc + 4

/-- The context u has issued and is not ready until its instruction is answered. -/
def State.holdCtx (s : State) (u : Cur) (S : Nat) (takes : Bool) : State :=
  s.updCtx u.tile u.ctx fun x =>
    { x with busy := true, park := 0, readyAt := s.cyc + 4 * (1 + S)
             latch := some { insn := u.insn, pc := x.pc, takes, next := x.latch.bind (·.next), timer := (match x.latch with | some l => l.timer | none => 0) } }

/-- The end of an issue with stall count S by the context u. A context that is not ready after all has not issued in this cycle, and the tile's turn passes
on (R110). -/
def finish (S : Nat) (u : Cur) : Iss → State
  | .done s => s.updCtx u.tile u.ctx fun x =>
      { x with pc := x.pc + 4, latch := none, park := 0, readyAt := s.cyc + 4 * (1 + S) }
  | .jump s pc => s.updCtx u.tile u.ctx fun x =>
      { x with pc := pc, latch := none, park := 0, readyAt := s.cyc + 4 * (1 + S) }
  | .ret s => s.updCtx u.tile u.ctx fun x => { x with readyAt := s.cyc + 4 * (1 + S) }
  | .park s k prog timer => s.updCtx u.tile u.ctx fun x =>
      { x with park := k, parkedAt := s.cyc, readyAt := s.cyc + 4 * (1 + S), ckptStop := x.ckptStop || s.ckptWait u.tile
               latch := some { insn := u.insn, pc := x.pc, prog, timer, next := x.latch.bind (·.next) } }
  | .hold s => { (s.updCtx u.tile u.ctx fun x => { x with readyAt := s.cyc + 1 }) with issuedNow := s.issuedNow.filter fun t => decide (t ≠ u.tile) }
  | .busy s => s.holdCtx u S false
  | .busyRx s => s.holdCtx u S true
  | .trap s cause addr prog =>
      s.takeTrap u.tile u.ctx { cause, addr, prog, insn := u.insn, pc := (s.ctx u.tile u.ctx).pc }

/-- A context parks with reason k, its retry latch being l; while its group waits to migrate it counts as stopped (R111, R119). -/
def State.parkWith (s : State) (t c k : Nat) (l : Option Latch) : State :=
  s.updCtx t c fun x => { x with busy := false, park := k, parkedAt := s.cyc, latch := l, ckptStop := x.ckptStop || s.ckptWait t }

/-- The latched instruction of a context completes when its answer comes: the pc moves on and the context wakes. -/
def State.completeLatched (s : State) (t c : Nat) : State :=
  s.updCtx t c fun x =>
    if x.state = .slotted ∨ x.state = .cached then
      let takes := match x.latch with | some l => l.takes | none => false
      { (x.wake s.cyc) with
        pc := (match x.latch with | some l => l.next.getD (l.pc + 4) | none => x.pc + 4), latch := none, busy := false
        rxq := if takes then x.rxq.tail else x.rxq }
    else x

/-- The instruction at pc of a context completes when its answer comes, be it the one in the latch or, for a crown in its handler, the one
that was latched at its entry: TEPC then moves past it (R258, R268). -/
def State.completeAt (s : State) (t c : Nat) (pc : Word) : State :=
  let v := s.tile t
  let at_ : Option Latch → Bool := fun l => match l with | some l => decide (l.pc = pc) | none => false
  if at_ (s.ctx t c).latch then s.completeLatched t c
  else if v.inH && decide (c = 0) && at_ v.held then
    (s.setTile t { v with held := none, tepc := if v.tepc = pc then (v.held.bind (·.next)).getD (pc + 4) else v.tepc }).updCtx t 0 fun x =>
      if (match v.held with | some l => l.takes | none => false) then { x with rxq := x.rxq.tail } else x
  else s

/-- The instruction at pc of a busy context parks with reason k. -/
def State.parkLatched (s : State) (t c : Nat) (pc : Word) (k timer : Nat) : State :=
  s.updCtx t c fun x => if (match x.latch with | some l => decide (l.pc ≠ pc) | none => true) then x else 
    { x with busy := false, park := k, parkedAt := s.cyc, ckptStop := x.ckptStop || s.ckptWait t, latch := x.latch.map fun l => { l with timer := timer } }

/-- An issue of the current context: f gives how it ends. With no context issuing, an instruction does not occur. -/
def issue (S : Nat) (s : State) (f : State → Nat → Nat → Iss) : Host.Outcome State Fault Refusal :=
  match s.cur with
  | none => .next s
  | some u => .next (finish S u (f s u.tile u.ctx))

/-- The timer in the latch of the instruction that re-issues (R111, R119). -/
def State.timerOf (s : State) (t c : Nat) : Nat := match (s.ctx t c).latch with | some l => l.timer | none => 0

/-- The progress recorded in the latch of the instruction that re-issues (R111). -/
def State.progOf (s : State) (t c : Nat) : Nat := match (s.ctx t c).latch with | some l => l.prog | none => 0

/-- A fixed-latency instruction of sources srcs and destination d. -/
def fixedOp (S : Nat) (s : State) (srcs : List Nat) (d lat : Nat) (f : List Word → Word) : Host.Outcome State Fault Refusal :=
  issue S s fun s t c => withOps s t c srcs [d] fun vs s => .done (s.setX t c d (f vs) lat)

/-- Whether feature bit b is accepted (R72). -/
def State.feature (s : State) (b : Nat) : Bool := bit s.feats b

end Sys2Proof.Machine
end

