-- ==== Sys2Proof/Machine/Integer.lean ====
section
/-!
DEFINITION. The integer and control-flow instructions of R293 to R309, except loads and stores.
-/
namespace Sys2Proof.Machine

/-- An outcome of an instruction or event. -/
abbrev Out := Host.Outcome State Fault Refusal

/-! ## Results -/

/-- R280: the 12-bit immediate sign-extended. -/
def imm12 (i : BitVec 12) : Word := i.signExtend 64
/-- R306: a 32-bit result sign-extended. -/
def sx32 (v : W32) : Word := v.signExtend 64
/-- The low 32 bits. -/
def lo32 (v : Word) : W32 := v.setWidth 32
/-- R303: 1 where the condition holds. -/
def flag (b : Bool) : Word := if b then 1 else 0
/-- R307: bits 127..64 of a product of integers. -/
def hi64 (v : Int) : Word := BitVec.ofInt 64 (v / 2 ^ 64)
/-- R308: the signed quotient, toward zero; a zero divisor gives all bits set and the overflow case the dividend. -/
def divS (w : Nat) (a b : BitVec w) : BitVec w := if b = 0 then BitVec.ofInt w (-1) else a.sdiv b
/-- R308: the unsigned quotient. -/
def divU (w : Nat) (a b : BitVec w) : BitVec w := if b = 0 then BitVec.ofInt w (-1) else a / b
/-- R308: the signed remainder, with the sign of the dividend. -/
def remS (w : Nat) (a b : BitVec w) : BitVec w := if b = 0 then a else a.srem b
/-- R308: the unsigned remainder. -/
def remU (w : Nat) (a b : BitVec w) : BitVec w := if b = 0 then a else a % b

/-- First and second operand of a list of two. -/
def arg1 (vs : List Word) : Word := vs.headD 0
def arg2 (vs : List Word) : Word := vs.tail.headD 0
def arg3 (vs : List Word) : Word := vs.tail.tail.headD 0

/-- A base instruction over one register (R303, R304, R306): latency 2. -/
def aluI (s : State) (d a : Nat) (f : Word → Word) : Out := fixedOp 0 s [a] d 2 fun vs => f (arg1 vs)
/-- A base instruction over two registers (R305 to R307). -/
def aluR (s : State) (d a b lat : Nat) (f : Word → Word → Word) : Out :=
  fixedOp 0 s [a, b] d lat fun vs => f (arg1 vs) (arg2 vs)

/-! ## LUI, AUIPC, jumps and branches (R296 to R298) -/

/-- LUI (R296). -/
def execLui (d : Nat) (imm : BitVec 20) (s : State) : Out := fixedOp 0 s [] d 2 fun _ => (imm ++ (0 : BitVec 12)).signExtend 64
/-- AUIPC (R296). -/
def execAuipc (d : Nat) (imm : BitVec 20) (s : State) : Out :=
  issue 0 s fun s t c => withOps s t c [] [d] fun _ s =>
    .done (s.setX t c d ((s.ctx t c).pc + (imm ++ (0 : BitVec 12)).signExtend 64) 2)

/-- R297, R278: a jump to T that writes the return address; a target not 4-byte aligned traps MISALIGN with nothing written. -/
def jumpTo (s : State) (t c d : Nat) (target : Word) : Iss :=
  if target.toNat % 4 ≠ 0 then .trap s causeMisalign target 0
  else .jump (s.setX t c d ((s.ctx t c).pc + 4) 2) target

/-- JAL (R297). -/
def execJal (d : Nat) (imm : BitVec 21) (s : State) : Out :=
  issue 0 s fun s t c => withOps s t c [] [d] fun _ s => jumpTo s t c d ((s.ctx t c).pc + imm.signExtend 64)
/-- JALR (R297): bit 0 of the sum is cleared, then the target is checked. -/
def execJalr (d a : Nat) (imm : BitVec 12) (s : State) : Out :=
  issue 0 s fun s t c => withOps s t c [a] [d] fun vs s => jumpTo s t c d ((arg1 vs + imm12 imm) &&& ~~~1)

/-- R298: a branch; one not taken never checks its target. -/
def branch (s : State) (a b : Nat) (imm : BitVec 13) (p : Word → Word → Bool) : Out :=
  issue 0 s fun s t c => withOps s t c [a, b] [] fun vs s =>
    let target := (s.ctx t c).pc + imm.signExtend 64
    if p (arg1 vs) (arg2 vs) then
      if target.toNat % 4 ≠ 0 then .trap s causeMisalign target 0 else .jump s target
    else .done s

/-- BEQ (R298). -/
def execBeq (a b : Nat) (imm : BitVec 13) (s : State) : Out := branch s a b imm fun x y => decide (x = y)
/-- BNE (R298). -/
def execBne (a b : Nat) (imm : BitVec 13) (s : State) : Out := branch s a b imm fun x y => decide (x ≠ y)
/-- BLT (R298). -/
def execBlt (a b : Nat) (imm : BitVec 13) (s : State) : Out := branch s a b imm fun x y => x.slt y
/-- BGE (R298). -/
def execBge (a b : Nat) (imm : BitVec 13) (s : State) : Out := branch s a b imm fun x y => !x.slt y
/-- BLTU (R298). -/
def execBltu (a b : Nat) (imm : BitVec 13) (s : State) : Out := branch s a b imm fun x y => x.ult y
/-- BGEU (R298). -/
def execBgeu (a b : Nat) (imm : BitVec 13) (s : State) : Out := branch s a b imm fun x y => !x.ult y

/-! ## Immediate arithmetic and logic (R303) -/

/-- ADDI (R303). -/
def execAddi (d a : Nat) (imm : BitVec 12) (s : State) : Out := aluI s d a fun x => x + imm12 imm
/-- SLTI (R303). -/
def execSlti (d a : Nat) (imm : BitVec 12) (s : State) : Out := aluI s d a fun x => flag (x.slt (imm12 imm))
/-- SLTIU (R303). -/
def execSltiu (d a : Nat) (imm : BitVec 12) (s : State) : Out := aluI s d a fun x => flag (x.ult (imm12 imm))
/-- XORI (R303). -/
def execXori (d a : Nat) (imm : BitVec 12) (s : State) : Out := aluI s d a fun x => x ^^^ imm12 imm
/-- ORI (R303). -/
def execOri (d a : Nat) (imm : BitVec 12) (s : State) : Out := aluI s d a fun x => x ||| imm12 imm
/-- ANDI (R303). -/
def execAndi (d a : Nat) (imm : BitVec 12) (s : State) : Out := aluI s d a fun x => x &&& imm12 imm

/-! ## Shifts by immediate (R304, R306) -/

/-- SLLI (R304). -/
def execSlli (d a h : Nat) (s : State) : Out := aluI s d a fun x => x <<< h
/-- SRLI (R304). -/
def execSrli (d a h : Nat) (s : State) : Out := aluI s d a fun x => x >>> h
/-- SRAI (R304). -/
def execSrai (d a h : Nat) (s : State) : Out := aluI s d a fun x => x.sshiftRight h
/-- ADDIW (R306). -/
def execAddiw (d a : Nat) (imm : BitVec 12) (s : State) : Out := aluI s d a fun x => sx32 (lo32 (x + imm12 imm))
/-- SLLIW (R306). -/
def execSlliw (d a h : Nat) (s : State) : Out := aluI s d a fun x => sx32 (lo32 x <<< h)
/-- SRLIW (R306). -/
def execSrliw (d a h : Nat) (s : State) : Out := aluI s d a fun x => sx32 (lo32 x >>> h)
/-- SRAIW (R306). -/
def execSraiw (d a h : Nat) (s : State) : Out := aluI s d a fun x => sx32 ((lo32 x).sshiftRight h)

/-! ## Register arithmetic, word forms and multiplies (R305 to R307) -/

/-- ADD (R305). -/
def execAdd (d a b : Nat) (s : State) : Out := aluR s d a b 2 fun x y => x + y
/-- SUB (R305). -/
def execSub (d a b : Nat) (s : State) : Out := aluR s d a b 2 fun x y => x - y
/-- SLL (R305). -/
def execSll (d a b : Nat) (s : State) : Out := aluR s d a b 2 fun x y => x <<< (y.toNat % 64)
/-- SLT (R305). -/
def execSlt (d a b : Nat) (s : State) : Out := aluR s d a b 2 fun x y => flag (x.slt y)
/-- SLTU (R305). -/
def execSltu (d a b : Nat) (s : State) : Out := aluR s d a b 2 fun x y => flag (x.ult y)
/-- XOR (R305). -/
def execXor (d a b : Nat) (s : State) : Out := aluR s d a b 2 fun x y => x ^^^ y
/-- SRL (R305). -/
def execSrl (d a b : Nat) (s : State) : Out := aluR s d a b 2 fun x y => x >>> (y.toNat % 64)
/-- SRA (R305). -/
def execSra (d a b : Nat) (s : State) : Out := aluR s d a b 2 fun x y => x.sshiftRight (y.toNat % 64)
/-- OR (R305). -/
def execOr (d a b : Nat) (s : State) : Out := aluR s d a b 2 fun x y => x ||| y
/-- AND (R305). -/
def execAnd (d a b : Nat) (s : State) : Out := aluR s d a b 2 fun x y => x &&& y
/-- ADDW (R306). -/
def execAddw (d a b : Nat) (s : State) : Out := aluR s d a b 2 fun x y => sx32 (lo32 x + lo32 y)
/-- SUBW (R306). -/
def execSubw (d a b : Nat) (s : State) : Out := aluR s d a b 2 fun x y => sx32 (lo32 x - lo32 y)
/-- SLLW (R306). -/
def execSllw (d a b : Nat) (s : State) : Out := aluR s d a b 2 fun x y => sx32 (lo32 x <<< (y.toNat % 32))
/-- SRLW (R306). -/
def execSrlw (d a b : Nat) (s : State) : Out := aluR s d a b 2 fun x y => sx32 (lo32 x >>> (y.toNat % 32))
/-- SRAW (R306). -/
def execSraw (d a b : Nat) (s : State) : Out := aluR s d a b 2 fun x y => sx32 ((lo32 x).sshiftRight (y.toNat % 32))
/-- MUL (R307). -/
def execMul (d a b : Nat) (s : State) : Out := aluR s d a b 4 fun x y => x * y
/-- MULH (R307). -/
def execMulh (d a b : Nat) (s : State) : Out := aluR s d a b 4 fun x y => hi64 (x.toInt * y.toInt)
/-- MULHSU (R307). -/
def execMulhsu (d a b : Nat) (s : State) : Out := aluR s d a b 4 fun x y => hi64 (x.toInt * (y.toNat : Int))
/-- MULHU (R307). -/
def execMulhu (d a b : Nat) (s : State) : Out := aluR s d a b 4 fun x y => hi64 ((x.toNat : Int) * (y.toNat : Int))
/-- MULW (R307). -/
def execMulw (d a b : Nat) (s : State) : Out := aluR s d a b 4 fun x y => sx32 (lo32 x * lo32 y)

/-! ## Division (R308) -/

/-- R308: a divide enters the tile's divider, which serves divides in issue order; its destination is pending until it lands. -/
def divOp (s : State) (d a b : Nat) (f : Word → Word → Word) : Out :=
  issue 0 s fun s t c => withOps s t c [a, b] [d] fun vs s =>
    let op : UnitOp := { ctx := c, gen := (s.ctx t c).gen, dst := d, val := f (arg1 vs) (arg2 vs) }
    .done ((s.setPending t c d).updTile t fun v => { v with divq := v.divq ++ [op] })

/-- DIV (R308). -/
def execDiv (d a b : Nat) (s : State) : Out := divOp s d a b fun x y => divS 64 x y
/-- DIVU (R308). -/
def execDivu (d a b : Nat) (s : State) : Out := divOp s d a b fun x y => divU 64 x y
/-- REM (R308). -/
def execRem (d a b : Nat) (s : State) : Out := divOp s d a b fun x y => remS 64 x y
/-- REMU (R308). -/
def execRemu (d a b : Nat) (s : State) : Out := divOp s d a b fun x y => remU 64 x y
/-- DIVW (R308). -/
def execDivw (d a b : Nat) (s : State) : Out := divOp s d a b fun x y => sx32 (divS 32 (lo32 x) (lo32 y))
/-- DIVUW (R308). -/
def execDivuw (d a b : Nat) (s : State) : Out := divOp s d a b fun x y => sx32 (divU 32 (lo32 x) (lo32 y))
/-- REMW (R308). -/
def execRemw (d a b : Nat) (s : State) : Out := divOp s d a b fun x y => sx32 (remS 32 (lo32 x) (lo32 y))
/-- REMUW (R308). -/
def execRemuw (d a b : Nat) (s : State) : Out := divOp s d a b fun x y => sx32 (remU 32 (lo32 x) (lo32 y))

/-- Whether the context that issued something still waits for it: same generation, and not over (R232, R259). -/
def State.alive (s : State) (t c gen : Nat) : Bool :=
  let x := s.ctx t c
  decide (x.gen = gen) && x.state ≠ .free && x.state ≠ .halted

/-- A unit's result lands in its register, with its flags (R126, R308). -/
def State.landUnit (s : State) (t : Nat) (op : UnitOp) : State :=
  if s.alive t op.ctx op.gen then (s.landX t op.ctx op.dst op.val false).addFfl t op.ctx op.flags 0 else s

/-- DIVIDE_RESULT_LAND (R308): the oldest divide of the tile lands. -/
def execDivideResultLand (tile : Nat) (s : State) : Out :=
  match (s.tile tile).divq with
  | [] => .next s
  | op :: rest => .next ((s.updTile tile fun v => { v with divq := rest }).landUnit tile op)

/-- FP_DIVIDE_RESULT_LAND (R126, R311): the oldest FDIV or FSQRT of the tile lands, with its flags. -/
def execFpDivideResultLand (tile : Nat) (s : State) : Out :=
  match (s.tile tile).fdivq with
  | [] => .next s
  | op :: rest => .next ((s.updTile tile fun v => { v with fdivq := rest }).landUnit tile op)

/-- ILLEGAL_INSTRUCTION (R285, R291): the word the context fetched is no instruction; ILLEGAL, before anything else. -/
def execIllegalInstruction (_w : W32) (s : State) : Out := issue 0 s fun s _ _ => .fail s causeIllegal

end Sys2Proof.Machine
end

