-- ==== Sys2Proof/Machine/Num.lean ====
section
/-!
DEFINITION. Number formats and arithmetic (chapter 8): decoding and encoding of the 24 formats, one rounding of an exact value,
exact sums, the correctly rounded functions and the rescaling merge. An exact value is a NaN, an infinity, or a sign, an integer
and a power of two; an inexact real (a quotient, a root, a power, a logarithm) is carried to far more bits than any format
holds with an odd last bit that marks the rest, so that its one rounding (R155) is that of the real.
-/
namespace Sys2Proof.Machine

/-- A value before rounding: NaN, an infinity by sign, or (−1)^neg × m × 2^e. -/
inductive Val | nan | inf (neg : Bool) | fin (neg : Bool) (m : Nat) (e : Int)
  deriving DecidableEq, Repr

/-- Bits of FFL (R156). -/
def NV : Nat := 1
def DZ : Nat := 2
def OF : Nat := 4
def UF : Nat := 8
def NX : Nat := 16
def SATD : Nat := 32

namespace Num

/-- 2^n for n ≥ 0, 1 below. -/
def pow2 (n : Int) : Nat := 2 ^ n.toNat
/-- Number of bits of m, minus 1. -/
def top (m : Nat) : Int := (Nat.log2 m : Int)

/-! ## Formats (R142, R144) -/

/-- Container width of a format code (R142); 0 for the reserved codes. -/
def width (c : Nat) : Nat :=
  match c with
  | 0 | 1 | 9 => 32
  | 2 | 3 | 10 => 16
  | 4 | 5 | 6 | 7 | 11 | 12 | 19 | 21 | 23 => 8
  | 8 | 13 | 14 | 17 | 18 | 20 | 22 => 4
  | 15 => 2
  | 16 => 1
  | _ => 0
/-- Whether a format is in the integer domain (R142). -/
def isInt (c : Nat) : Bool := decide (9 ≤ c) && decide (c ≤ 16)
/-- Whether a format is a block format (R149). -/
def isBlock (c : Nat) : Bool := decide (18 ≤ c) && decide (c ≤ 21)
/-- Whether a format is a LUT format (R152). -/
def isLut (c : Nat) : Bool := c = 22 || c = 23

/-- A floating format: exponent bits, mantissa bits, bias, its special patterns (0 with infinities, 1 E4M3, 2 none) and where
its bits begin in the container (R143, R144). -/
structure FloatFmt where
  eb : Nat
  mb : Nat
  bias : Int
  special : Nat
  pad : Nat
  deriving DecidableEq, Repr

/-- R144: the floating formats by code. -/
def floatFmt (c : Nat) : FloatFmt :=
  match c with
  | 0 => ⟨8, 23, 127, 0, 0⟩
  | 1 => ⟨8, 10, 127, 0, 13⟩
  | 2 => ⟨8, 7, 127, 0, 0⟩
  | 3 => ⟨5, 10, 15, 0, 0⟩
  | 4 => ⟨4, 3, 7, 1, 0⟩
  | 5 => ⟨5, 2, 15, 0, 0⟩
  | 6 => ⟨3, 2, 3, 2, 0⟩
  | 7 => ⟨2, 3, 1, 2, 0⟩
  | _ => ⟨2, 1, 1, 2, 0⟩

/-- R144: the value of a floating pattern. -/
def decodeFloat (f : FloatFmt) (bits : Nat) : Val :=
  let v := bits / 2 ^ f.pad
  let m := v % 2 ^ f.mb
  let e := v / 2 ^ f.mb % 2 ^ f.eb
  let neg := v / 2 ^ (f.mb + f.eb) % 2 = 1
  let all := e = 2 ^ f.eb - 1
  if f.special = 0 ∧ all then (if m = 0 then .inf neg else .nan)
  else if f.special = 1 ∧ all ∧ m = 7 then .nan
  else if e = 0 then .fin neg m (1 - f.bias - f.mb)
  else .fin neg (2 ^ f.mb + m) ((e : Int) - f.bias - f.mb)

/-- R147: the NQ4 levels, in 1024ths. -/
def nq4 : List Int := [-1024, -713, -538, -404, -291, -189, -93, 0, 81, 165, 252, 346, 451, 576, 740, 1024]

/-- An integer as a value. -/
def ofInt (v : Int) : Val := .fin (decide (v < 0)) v.natAbs 0

/-- R146: the integer of an integer-domain pattern, and whether it is the invalid TERN2 pattern. -/
def decodeInt (c bits : Nat) : Int × Bool :=
  match c with
  | 9 => (sgn 32 bits, false)
  | 10 => (sgn 16 bits, false)
  | 11 => (sgn 8 bits, false)
  | 12 => ((bits % 256 : Nat), false)
  | 13 => (sgn 4 bits, false)
  | 14 => ((bits % 16 : Nat), false)
  | 15 => if bits % 4 = 1 then (1, false) else if bits % 4 = 3 then (-1, false) else (0, bits % 4 = 2)
  | _ => (if bits % 2 = 1 then 1 else -1, false)

/-- The value of a lone element of format c, 0 to 17, and whether decoding it is invalid (R144 to R147). -/
def decode (c bits : Nat) : Val × Bool :=
  if isInt c then let (v, bad) := decodeInt c bits; (ofInt v, bad)
  else if c = 17 then
    let n := nq4.getD (bits % 16) 0
    (.fin (decide (n < 0)) n.natAbs (-10), false)
  else (decodeFloat (floatFmt c) bits, false)

/-! ## Exact arithmetic -/

/-- The integer of m × 2^e over 2^g, for g ≤ e. -/
def scaled (neg : Bool) (m : Nat) (e g : Int) : Int :=
  let v : Int := (m * pow2 (e - g) : Nat)
  if neg then -v else v

/-- The value of an integer times 2^g. -/
def ofScaled (v g : Int) : Val := .fin (decide (v < 0)) v.natAbs g

/-- Whether two values compare: less, equal; a NaN compares with nothing. −0 equals +0. -/
def cmp (a b : Val) : Option Ordering :=
  match a, b with
  | .nan, _ => none
  | _, .nan => none
  | .inf x, .inf y => some (if x = y then .eq else if x then .lt else .gt)
  | .inf x, _ => some (if x then .lt else .gt)
  | _, .inf y => some (if y then .gt else .lt)
  | .fin s m e, .fin t n f =>
    let g := min e f
    some (compare (scaled s m e g) (scaled t n f g))

/-- The sign of a value; a NaN has sign 0. -/
def neg? : Val → Bool
  | .nan => false
  | .inf s => s
  | .fin s _ _ => s
/-- Whether a value is a NaN. -/
def isNan : Val → Bool | .nan => true | _ => false
/-- Whether a value is zero. -/
def isZero : Val → Bool | .fin _ m _ => m = 0 | _ => false
/-- Whether a value is an infinity. -/
def isInf : Val → Bool | .inf _ => true | _ => false
/-- −v. -/
def negate : Val → Val
  | .nan => .nan
  | .inf s => .inf (!s)
  | .fin s m e => .fin (!s) m e
/-- |v|. -/
def abs : Val → Val
  | .nan => .nan
  | .inf _ => .inf false
  | .fin _ m e => .fin false m e

/-- a × b and whether it is 0 × ∞ (R156). -/
def mul (a b : Val) : Val × Bool :=
  match a, b with
  | .nan, _ => (.nan, false)
  | _, .nan => (.nan, false)
  | .inf s, .inf t => (.inf (s != t), false)
  | .inf s, .fin t n _ => if n = 0 then (.nan, true) else (.inf (s != t), false)
  | .fin s m _, .inf t => if m = 0 then (.nan, true) else (.inf (s != t), false)
  | .fin s m e, .fin t n f => (.fin (s != t) (m * n) (e + f), false)

/-- The exact sum of terms and whether it is ∞ − ∞ (R155, R156, R161). A zero sum is −0 when every term is −0, and otherwise
+0 except in mode 2. -/
def sum (mode : Nat) (ts : List Val) : Val × Bool :=
  if ts.any isNan then (.nan, false)
  else if ts.contains (.inf true) && ts.contains (.inf false) then (.nan, true)
  else if ts.contains (.inf true) then (.inf true, false)
  else if ts.contains (.inf false) then (.inf false, false)
  else
    let g := ts.foldl (fun g t => match t with | .fin _ m e => if m = 0 then g else min g e | _ => g) (4096 : Int)
    let v := ts.foldl (fun v t => match t with | .fin s m e => if m = 0 then v else v + scaled s m e g | _ => v) (0 : Int)
    if v = 0 then
      (.fin (if !ts.isEmpty && ts.all (fun t => isZero t && neg? t) then true else mode = 2) 0 0, false)
    else (ofScaled v g, false)

/-- An inexact magnitude: m × 2^e and a little more. -/
def sticky (neg : Bool) (m : Nat) (e : Int) (more : Bool) : Val :=
  if more then .fin neg (2 * m + 1) (e - 1) else .fin neg m e

/-- a / b, with its flags (R163). -/
def div (a b : Val) : Val × Nat :=
  match a, b with
  | .nan, _ => (.nan, 0)
  | _, .nan => (.nan, 0)
  | .inf _, .inf _ => (.nan, NV)
  | .inf s, .fin t _ _ => (.inf (s != t), 0)
  | .fin s _ _, .inf t => (.fin (s != t) 0 0, 0)
  | .fin s m e, .fin t n f =>
    if n = 0 then (if m = 0 then (.nan, NV) else (.inf (s != t), DZ))
    else
      let k := 128 + Nat.log2 n
      let q := m * 2 ^ k / n
      (sticky (s != t) q (e - f - k) (decide (m * 2 ^ k % n ≠ 0)), 0)

/-- Integer square root, bit by bit from bit b. -/
def isqrt (x : Nat) : Nat → Nat → Nat
  | 0, r => r
  | b + 1, r => let r' := r + 2 ^ b; isqrt x b (if r' * r' ≤ x then r' else r)

/-- √v, with its flags (R163). -/
def sqrt (v : Val) : Val × Nat :=
  match v with
  | .nan => (.nan, 0)
  | .inf s => if s then (.nan, NV) else (.inf false, 0)
  | .fin s m e =>
    if m = 0 then (.fin s 0 0, 0) else if s then (.nan, NV)
    else
      let (m, e) := if e % 2 = 0 then (m, e) else (2 * m, e - 1)
      let x := m * 2 ^ 256
      let r := isqrt x (Nat.log2 x / 2 + 1) 0
      (sticky false r (e / 2 - 128) (decide (r * r ≠ x)), 0)

/-- The odd part of m and its power of two, found in at most k halvings. -/
def oddPart (m : Nat) : Nat → Nat × Nat
  | 0 => (m, 0)
  | k + 1 => if m % 2 = 0 ∧ m ≠ 0 then let (o, n) := oddPart (m / 2) k; (o, n + 1) else (m, 0)

/-- 1/√v, with its flags (R163). -/
def rsqrt (v : Val) : Val × Nat :=
  match v with
  | .nan => (.nan, 0)
  | .inf s => if s then (.nan, NV) else (.fin false 0 0, 0)
  | .fin s m e =>
    if m = 0 then (.inf s, DZ) else if s then (.nan, NV)
    else
      let (o, n) := oddPart m (Nat.log2 m + 1)
      let e := e + n
      let (o, e) := if e % 2 = 0 then (o, e) else (2 * o, e - 1)
      if o = 1 then (.fin false 1 (-(e / 2)), 0)
      else
        let x := 2 ^ 512 / o
        let r := isqrt x 257 0
        (sticky false r (-(e / 2) - 256) true, 0)

/-- ln 2 in units of 2^-256. -/
def ln2 : Nat := 80260960185991308862233904206310070533990667611589946606122867505419956976171

/-- Terms k, k + 1, … of the exponential series at y / 2^256, the k-th being t. -/
def expSeries (y : Nat) : Nat → Nat → Nat → Nat
  | 0, _, _ => 0
  | n + 1, k, t => t + expSeries y n (k + 1) (t * y / 2 ^ 256 / (k + 1))

/-- 2^v, with its flags: exact for an integer (R163). -/
def exp2 (v : Val) : Val × Nat :=
  match v with
  | .nan => (.nan, 0)
  | .inf s => if s then (.fin false 0 0, 0) else (.inf false, 0)
  | .fin s m e =>
    if m = 0 then (.fin false 1 0, 0)
    else if e + top m > 12 then (.fin false 1 (if s then -5000 else 5000), 0)
    else
      let y := scaled s m e (min e 0)
      let w := pow2 (- min e 0)
      let n : Int := y / (w : Int)
      let f := (y % (w : Int)).toNat
      if f = 0 then (.fin false 1 n, 0)
      else
        let x := f * 2 ^ 256 / w * ln2 / 2 ^ 256
        (sticky false (expSeries x 90 0 (2 ^ 256)) (n - 256) true, 0)

/-- The odd powers z^k/k of the series of ln, z and z² in units of 2^-256. -/
def lnSeries (z2 : Nat) : Nat → Nat → Nat → Nat
  | 0, _, _ => 0
  | n + 1, k, t => t / k + lnSeries z2 n (k + 2) (t * z2 / 2 ^ 256)

/-- log₂ v, with its flags: exact for a power of two (R163). -/
def log2 (v : Val) : Val × Nat :=
  match v with
  | .nan => (.nan, 0)
  | .inf s => if s then (.nan, NV) else (.inf false, 0)
  | .fin s m e =>
    if m = 0 then (.inf true, DZ) else if s then (.nan, NV)
    else
      let l := Nat.log2 m
      let n : Int := e + l
      if m = 2 ^ l then (if n = 0 then (.fin false 0 0, 0) else (ofInt n, 0))
      else
        let z := (m - 2 ^ l) * 2 ^ 256 / (m + 2 ^ l)
        let frac : Nat := 2 * lnSeries (z * z / 2 ^ 256) 90 1 z * 2 ^ 256 / ln2
        let t : Int := n * (2 ^ 256 : Nat) + (frac : Int)
        (sticky (decide (t < 0)) (if t < 0 then (-t).toNat - 1 else t.toNat) (-256) true, 0)

/-! ## Rounding and encoding (R155, R158) -/

/-- Whether sig must be raised by one, for a remainder rem of 2 × half (R155). -/
def roundsUp (mode : Nat) (neg : Bool) (sig rem half : Nat) : Bool :=
  if rem = 0 then false
  else match mode with
    | 0 => decide (rem > half) || (rem = half && sig % 2 = 1)
    | 1 => false
    | 2 => neg
    | 3 => !neg
    | 4 => decide (rem ≥ half)
    | _ => sig % 2 = 0

/-- m × 2^e rounded to a multiple of 2^q: the multiple, and whether it is inexact. -/
def roundAt (mode : Nat) (neg : Bool) (m : Nat) (e q : Int) : Nat × Bool :=
  if q ≤ e then (m * pow2 (e - q), false)
  else
    let w := pow2 (q - e)
    let sig := m / w
    let rem := m % w
    (if roundsUp mode neg sig rem (w / 2) then sig + 1 else sig, decide (rem ≠ 0))

/-- The largest finite significand and its exponent (R144). -/
def FloatFmt.largest (f : FloatFmt) : Nat × Int :=
  match f.special with
  | 0 => (2 ^ (f.mb + 1) - 1, (2 ^ f.eb : Nat) - 2 - f.bias - f.mb)
  | 1 => (14, 2 ^ f.eb - 1 - f.bias - f.mb)
  | _ => (2 ^ (f.mb + 1) - 1, 2 ^ f.eb - 1 - f.bias - f.mb)

/-- The pattern of a sign, exponent field and mantissa. -/
def FloatFmt.pack (f : FloatFmt) (neg : Bool) (e m : Nat) : Nat :=
  ((b2n neg * 2 ^ f.eb + e) * 2 ^ f.mb + m) * 2 ^ f.pad

/-- The canonical NaN (R145); formats without NaN give +0. -/
def FloatFmt.nan (f : FloatFmt) : Nat :=
  match f.special with
  | 0 => f.pack false (2 ^ f.eb - 1) (2 ^ (f.mb - 1))
  | 1 => f.pack false 15 7
  | _ => 0
/-- The pattern of the largest finite value of a sign. -/
def FloatFmt.big (f : FloatFmt) (neg : Bool) : Nat :=
  match f.special with
  | 0 => f.pack neg (2 ^ f.eb - 2) (2 ^ f.mb - 1)
  | 1 => f.pack neg 15 6
  | _ => f.pack neg (2 ^ f.eb - 1) (2 ^ f.mb - 1)

/-- R155: the overflow result of a sign in a mode, with its flags beside OF. -/
def overflow (f : FloatFmt) (sat : Bool) (mode : Nat) (neg : Bool) : Nat × Nat :=
  let toInf := mode = 0 ∨ mode = 4 ∨ (mode = 2 ∧ neg) ∨ (mode = 3 ∧ !neg)
  if toInf then
    if f.special = 2 then (f.big neg, SATD)
    else if sat && f.mb ≠ 23 then (f.big neg, SATD)
    else if f.special = 1 then (f.nan, 0)
    else (f.pack neg (2 ^ f.eb - 1) 0, 0)
  else (f.big neg, 0)

/-- R155: a value rounded into a floating format, with its flags. -/
def encodeFloat (f : FloatFmt) (mode : Nat) (sat : Bool) (v : Val) : Nat × Nat :=
  match v with
  | .nan => (f.nan, if f.special = 2 then NV else 0)
  | .inf s =>
    if f.special = 0 then (f.pack s (2 ^ f.eb - 1) 0, 0)
    else let (b, fl) := overflow f sat mode s; (b, OF + NX + fl)
  | .fin s m e =>
    if m = 0 then (f.pack s 0 0, 0)
    else
      let qmin : Int := 1 - f.bias - f.mb
      let q0 : Int := e + top m - f.mb
      let q := max q0 qmin
      let (sig, inx) := roundAt mode s m e q
      let (lm, le) := f.largest
      let tooBig := if q ≥ le then decide (sig * pow2 (q - le) > lm) else decide (sig > lm * pow2 (le - q))
      if tooBig then let (b, fl) := overflow f sat mode s; (b, OF + NX + fl)
      else
        let (usig, _) := roundAt mode s m e q0
        let tiny := decide (q0 < qmin) && decide (usig < 2 ^ f.mb * pow2 (qmin - q0))
        let fl := (if inx then NX else 0) + (if inx && tiny then UF else 0)
        let (sig, q) := if sig = 2 ^ (f.mb + 1) then (2 ^ f.mb, q + 1) else (sig, q)
        if sig < 2 ^ f.mb then (f.pack s 0 sig, fl)
        else (f.pack s (q + f.mb + f.bias).toNat (sig - 2 ^ f.mb), fl)

/-- A finite value rounded to an integer by MODE, and whether it was none (R158). -/
def roundInt (mode : Nat) (neg : Bool) (m : Nat) (e : Int) : Int × Bool :=
  let (sig, inx) := roundAt mode neg m e 0
  (if neg then -(sig : Int) else sig, inx)

/-- The range of an integer format (R146). -/
def intRange (c : Nat) : Int × Int :=
  match c with
  | 9 => (-2147483648, 2147483647)
  | 10 => (-32768, 32767)
  | 11 => (-128, 127)
  | 12 => (0, 255)
  | 13 => (-8, 7)
  | 14 => (0, 15)
  | 15 => (-1, 1)
  | _ => (-1, 1)

/-- The pattern of an integer in an integer format of width w. -/
def packInt (w : Nat) (v : Int) : Nat := wrap w v

/-- R158: a float value into an integer range of w bits: clamped, with SATD under ISAT and NV without. -/
def floatToInt (lo hi : Int) (mode : Nat) (isat : Bool) (v : Val) : Int × Nat :=
  let clampFl := if isat then SATD else NV
  match v with
  | .nan => (0, NV)
  | .inf s => (if s then lo else hi, clampFl)
  | .fin s m e =>
    let (i, inx) := roundInt mode s m e
    let nx := if inx then NX else 0
    if i < lo then (lo, clampFl + nx) else if hi < i then (hi, clampFl + nx) else (i, nx)

/-- R148: the NQ4 code of a finite value, with SATD beyond ±1. -/
def encodeNq4 (mode : Nat) (neg : Bool) (m : Nat) (e : Int) : Nat × Nat :=
  let g := min e (-10)
  let x := scaled neg m e g
  let w : Int := (pow2 (-10 - g) : Nat)
  let lv : List Int := nq4.map fun n => n * w
  if x < lv.getD 0 0 then (0, SATD + NX)
  else if lv.getD 15 0 < x then (15, SATD + NX)
  else
    let lo := lv.foldl (fun n l => if l ≤ x then n + 1 else n) 0 - 1
    let l := lv.getD lo 0
    if l = x then (lo, 0)
    else
      let h := lv.getD (lo + 1) 0
      let dl := x - l
      let dh := h - x
      let nearest := if dl < dh then lo else if dh < dl then lo + 1
        else if mode = 4 then (if l.natAbs < h.natAbs then lo + 1 else lo)
        else if lo % 2 = 0 then lo else lo + 1
      let c := match mode with
        | 0 => nearest
        | 4 => nearest
        | 1 => if 0 ≤ l then lo else lo + 1
        | 2 => lo
        | 3 => lo + 1
        | _ => if lo % 2 = 1 then lo else lo + 1
      (c, NX)

/-- R154: the fields of RND. -/
def rmode (rnd : Nat) : Nat := rnd % 8
def rsat (rnd : Nat) : Bool := rnd / 8 % 2 = 1
def risat (rnd : Nat) : Bool := rnd / 16 % 2 = 1

/-- R158: a value encoded into format c, 0 to 17, with its flags. -/
def encode (c rnd : Nat) (v : Val) : Nat × Nat :=
  let mode := rmode rnd
  if c = 15 then
    match v with
    | .nan => (0, NV)
    | .inf s => (if s then 3 else 1, SATD)
    | .fin s m e =>
      let (i, inx) := roundInt mode s m e
      let fl := (if inx then NX else 0) + (if i < -1 ∨ 1 < i then SATD else 0)
      (if i < 0 then 3 else if 0 < i then 1 else 0, fl)
  else if c = 16 then
    match v with
    | .nan => (1, NV)
    | .inf s => (if s then 0 else 1, NX)
    | .fin s m e => (if s && m ≠ 0 then 0 else 1, if cmp (.fin false m e) (.fin false 1 0) = some .eq then 0 else NX)
  else if isInt c then
    let (lo, hi) := intRange c
    let (i, fl) := floatToInt lo hi mode (risat rnd) v
    (packInt (width c) i, fl)
  else if c = 17 then
    match v with
    | .nan => (7, NV)
    | .inf s => (if s then 0 else 15, SATD + NX)
    | .fin s m e => encodeNq4 mode s m e
  else encodeFloat (floatFmt c) mode (rsat rnd) v

/-- R158: an integer of the integer domain encoded into format c: the low bits, or clamped with SATD under ISAT. -/
def encodeInt (c rnd : Nat) (v : Int) : Nat × Nat :=
  if c = 15 then (if v < 0 then 3 else if 0 < v then 1 else 0, if v < -1 ∨ 1 < v then SATD else 0)
  else if c = 16 then (if v < 0 then 0 else 1, if v = 1 ∨ v = -1 then 0 else NX)
  else
    let (lo, hi) := intRange c
    if risat rnd then
      (if v < lo then (packInt (width c) lo, SATD) else if hi < v then (packInt (width c) hi, SATD) else (packInt (width c) v, 0))
    else (packInt (width c) v, 0)

/-- R159: 64-bit integers wrap, or saturate with SATD under ISAT. -/
def sat64 (isat : Bool) (v : Int) : Int × Nat :=
  let lo : Int := -9223372036854775808
  let hi : Int := 9223372036854775807
  if v < lo then (if isat then (lo, SATD) else (sgn 64 (wrap 64 v), 0))
  else if hi < v then (if isat then (hi, SATD) else (sgn 64 (wrap 64 v), 0))
  else (v, 0)

/-! ## FP32 (R310) -/

/-- Decode(FP32, ·). -/
def fp32 (b : Nat) : Val := decodeFloat (floatFmt 0) (b % 2 ^ 32)
/-- Encode(FP32, ·) in a mode, with flags. -/
def toFp32 (mode : Nat) (v : Val) : Nat × Nat := encodeFloat (floatFmt 0) mode false v
/-- RNE(v) as a value (R164). -/
def rne (v : Val) : Val × Nat := let (b, f) := toFp32 0 v; (fp32 b, f)

/-- a × b + c with one rounding to come, and its NV (R312). -/
def fma (mode : Nat) (a b c : Val) : Val × Nat :=
  let (p, bad) := mul a b
  let (v, opp) := sum mode [p, c]
  (if bad then .nan else v, if bad || opp then NV else 0)

/-- The greater, with −0 < +0; a NaN if either is (R313). -/
def maxV (a b : Val) : Val :=
  match cmp a b with
  | none => .nan
  | some .lt => b
  | some .gt => a
  | some .eq => if neg? a then b else a
/-- The lesser, with −0 < +0; a NaN if either is (R313). -/
def minV (a b : Val) : Val :=
  match cmp a b with
  | none => .nan
  | some .lt => a
  | some .gt => b
  | some .eq => if neg? a then a else b

/-! ## The rescaling merge (R164) -/

/-- Fields of the result of a merge: FP32 patterns and flags. -/
def lse (x y : List Nat) : List Nat × Nat :=
  let a := x.map fp32
  let b := y.map fp32
  let m1 := a.headD .nan
  let m2 := b.headD .nan
  let n := a.length
  if a.any isNan || b.any isNan then (List.replicate n 0x7FC00000, 0)
  else if m1 = .inf false ∧ m2 = .inf false then (List.replicate n 0x7FC00000, NV)
  else if m1 = .inf true ∧ m2 = .inf true then (0xFF800000 :: List.replicate (n - 1) 0, 0)
  else if m1 = .inf true ∧ x.tail.all (· = 0) then (y, 0)
  else if m2 = .inf true ∧ y.tail.all (· = 0) then (x, 0)
  else
    let m := maxV m1 m2
    let scale := fun (mi : Val) =>
      let (v, bad) := sum 0 [mi, negate m]
      let (d, f1) := rne v
      let (e, f2) := rne (exp2 d).1
      (e, f1 ||| f2 ||| (if bad then NV else 0))
    let (a1, g1) := scale m1
    let (a2, g2) := scale m2
    let go := fun (p q : Val) =>
      let (qa, nv) := mul q a2
      let (t, f1) := rne qa
      let (w, f2) := fma 0 p a1 t
      let (r, f3) := toFp32 0 w
      (r, f1 ||| f2 ||| f3 ||| (if nv then NV else 0))
    let rs := (a.tail.zip b.tail).map fun p => go p.1 p.2
    ((toFp32 0 m).1 :: rs.map (·.1), rs.foldl (fun f r => f ||| r.2) (g1 ||| g2))

/-- R194, R251: one pairwise combine of elements in format fmt (0 FP32, 1 or 2 BF16 by code, 9 INT32) under op 0 add, 1 max,
2 min; with its flags. -/
def combine (fmt op : Nat) (a b : Nat) : Nat × Nat :=
  if fmt = 9 then
    let x := sgn 32 a
    let y := sgn 32 b
    (wrap 32 (if op = 0 then x + y else if op = 1 then max x y else min x y), 0)
  else
    let d := fun (v : Nat) => (decode fmt v).1
    if op = 0 then
      let (s, nv) := sum 0 [d a, d b]
      let (r, f) := encodeFloat (floatFmt fmt) 0 false s
      (r, f ||| (if nv then NV else 0))
    else (encodeFloat (floatFmt fmt) 0 false (if op = 1 then maxV (d a) (d b) else minV (d a) (d b))).1 |> fun r => (r, 0)

end Num
end Sys2Proof.Machine
end

