-- ==== Sys2Proof/Machine/Operands.lean ====
section
/-!
DEFINITION. Operand forms: device registers by offset, segment checks (R134), translation at the cluster port (R174 to R179),
pointer images (R128, R129), stream addresses (R130) and the vectors of a scratchpad.
-/
namespace Sys2Proof.Machine

/-! ## Partition resources (R69, R166) -/

/-- R93: whether a tile is usable: its harvest bit, its slice's, its cluster's gate and TILE_RETIRE. DESIGN CHOICE (log 51): a cluster whose gating
request still waits is usable. -/
def State.usable (s : State) (t : Nat) : Bool :=
  !bit s.boot.tileHarv t && !bit s.boot.sliceHarv (t / 8) && !bit s.gated (t / 8) && !bit (s.pfr (0xA200 + 8 * (t / 64))).toNat (t % 64)
/-- R93, R166: whether a tile's scratchpad window is partition p's own: the tile is usable, or is retired while a group of the partition still runs on it. -/
def State.ownsTile (s : State) (p t : Nat) : Bool :=
  s.partHas p (t / 8) && (s.usable t || (match (s.tile t).grp with | some g => decide (g.launch / 65536 = p) | none => false))
/-- R166: whether n bytes at pa lie in partition p's own resources: a vault part, the windows of usable tiles, or an enabled range. -/
def State.owns (s : State) (p pa n : Nat) : Bool :=
  if isVault pa then
    s.partHas p (pa / 0x800000) && decide (pa % 0x800000 + n ≤ s.vault p * 0x200000)
  else if isSpad pa then
    decide (spadTile (pa + n - 1) < Config.tiles) && (List.range (spadTile (pa + n - 1) + 1 - spadTile pa)).all fun i => s.ownsTile p (spadTile pa + i)
  else match s.mrtOf pa with
    | some k => decide (s.mrtPart k = p) && decide (pa + n ≤ s.mrtBase k + s.mrtSize k)
    | none => false

/-! ## Homes (R167, R168) -/

/-- The bucket of a CXL line address. -/
def bucket (pa : Nat) : Nat := (bits pa 17 6) ^^^ (bits pa 29 18) ^^^ (bits pa 41 30) ^^^ (bits pa 51 42)
/-- H0 among the homes (R167). -/
def homeH0 : Nat := 30000
/-- The home of a line: a slice number 0 to 511, 512 + 4 × tile + bank for a scratchpad bank, homeH0 for H0 (R167). -/
def State.home (s : State) (p pa : Nat) : Nat :=
  if isHost pa then homeH0
  else if isSpad pa then 512 + 4 * spadTile pa + pa % 0x80000 / 0x20000
  else if isVault pa then pa / 0x800000
  else
    let p := match s.mrtOf pa with | some k => s.mrtPart k | none => p
    let q := s.part p
    match Tbl.find? q.moved (bucket pa) with
    | some h => h
    | none => if q.homes.isEmpty then ((List.range 512).find? (s.partHas p)).getD 0
      else q.homes.getD (bucket pa % q.homes.length) 0

/-! ## Segments (R133, R134) -/

/-- Where a segment check leads: a partition virtual address, or a byte of a tile's scratchpad. -/
inductive Place | mem (pva : Nat) | spad (tile off : Nat)
  deriving DecidableEq, Repr

/-- The segment checks of R134 for n bytes at V with the rights asked for, through segments segs of tile t's group: the place,
or the cause of the trap. -/
def State.segCheck (s : State) (t : Nat) (segs : Fixed Seg 8) (va n : Nat) (r w xq : Bool) : Except Nat Place :=
  let g := segs.getD (va / 2 ^ 61) {}
  let off := va % 2 ^ 61
  let ty := bits g.w0.toNat 61 60
  let ok := (!r || bit g.w0.toNat 56) && (!w || bit g.w0.toNat 57) && (!xq || bit g.w0.toNat 58)
  let base := g.w0.toNat % 2 ^ 52
  if ty = 0 ∨ !ok ∨ (xq ∧ ty ≠ 1) then .error causeSegRights
  else if off + n > g.w1.toNat % 2 ^ 61 then .error causeSegLimit
  else if ty = 1 then
    if base + off + n > 2 ^ 52 then .error causeSegLimit else .ok (.mem (base + off))
  else if base % 2 ^ 19 + off + n > 393216 then .error causeSegLimit
  else if ty = 2 then .ok (.spad t (base % 2 ^ 19 + off))
  else match s.tileRole t (bits base 24 19) with
    | some d => .ok (.spad d (base % 2 ^ 19 + off))
    | none => .error causeRole

/-! ## Translation (R174 to R179) -/

/-- PART_ASID of a partition: its ASID and EN (R174). -/
def State.partAsid (s : State) (p : Nat) : Nat × Bool :=
  let v := (s.pfr (0xB000 + 8 * p)).toNat
  (v % 8192, bit v 16)

/-- The bytes of the page or sub-page. -/
def Xlat.size (e : Xlat) : Nat := if e.sub then 1024 else 0x200000
/-- Whether a translation covers a PVA of an ASID. -/
def Xlat.covers (e : Xlat) (asid pva : Nat) : Bool :=
  decide (e.asid = asid) && decide (pva / e.size = e.page)
/-- The physical address a translation gives, and the PVA that it translates to a physical address. -/
def Xlat.pa (e : Xlat) (pva : Nat) : Nat := e.frame + pva % e.size
def Xlat.pva (e : Xlat) (pa : Nat) : Nat := e.page * e.size + (pa - e.frame)

/-- An ASID's entry of the table (R174). -/
def State.asidEntry (s : State) (asid : Nat) : AsidHeld :=
  let b := 0x100000 + 128 * asid
  { asid, root := s.pfr b, part := (s.pfr (b + 8)).toNat % 64, tenant := bits (s.pfr (b + 8)).toNat 11 8
    rgn := (List.range 4).map fun i => (s.pfr (b + 16 + 16 * i), s.pfr (b + 24 + 16 * i)) }
/-- R174: the entry a tile holds, or the table's at the first use. -/
def State.asidOf (s : State) (t asid : Nat) : AsidHeld :=
  match (s.tile t).asids.find? (fun h => decide (h.asid = asid)) with
  | some h => h
  | none => s.asidEntry asid
/-- R174: the tile holds the entry from its first use on. -/
def State.holdAsid (s : State) (t asid : Nat) : State :=
  if (s.tile t).asids.any (fun h => decide (h.asid = asid)) then s
  else s.updTile t fun v => { v with asids := s.asidEntry asid :: v.asids }
/-- The tile uses its partition's ASID. -/
def State.useAsid (s : State) (t : Nat) : State := s.holdAsid t (s.partAsid (s.partOf t)).1
/-- R174: the entry that window B and the engines hold, or the table's at their first use. -/
def State.engAsid (s : State) (asid : Nat) : AsidHeld :=
  match s.engAsids.find? (fun h => decide (h.asid = asid)) with
  | some h => h
  | none => s.asidEntry asid
/-- R174: window B and the engines hold the entry from their first use on. -/
def State.engUse (s : State) (asid : Nat) : State :=
  if s.engAsids.any (fun h => decide (h.asid = asid)) then s else { s with engAsids := s.asidEntry asid :: s.engAsids }
/-- R174: whether an entry translates for an access of partition p; en is PART_ASID.EN, or true for window B. -/
def AsidHeld.serves (h : AsidHeld) (p : Nat) (en : Bool) : Bool := bit h.root.toNat 0 && decide (h.part = p) && en
/-- R176: the lowest-numbered enabled region in which a PVA lies. -/
def AsidHeld.region (h : AsidHeld) (pva : Nat) : Option (Word × Word) :=
  h.rgn.find? fun g => bit g.1.toNat 0 && decide (bits g.1.toNat 51 21 = pva / 0x200000)

/-- A tile's TLB, then its die's second level (R178): of sub-pages where the PVA lies in a region, else of pages. -/
def State.tlbFind (s : State) (t asid pva : Nat) (sub : Bool) : Option Xlat :=
  match (s.tile t).tlb.find? (fun e => e.covers asid pva && e.sub == sub) with
  | some e => some e
  | none => (s.tlb2.find? fun p => decide (p.1 = t / 1024) && p.2.covers asid pva && p.2.sub == sub).map (·.2)
/-- The first level takes an entry from the second (R178, R179); 256 entries, the oldest leaves. The tile holds its ASID's entry (R174). -/
def State.tlbFill (s : State) (t : Nat) (e : Xlat) : State :=
  let s := s.useAsid t
  if (s.tile t).tlb.contains e then s else s.updTile t fun v => { v with tlb := (e :: v.tlb).take 256 }

/-- What translation at the cluster port gives: an entry, a missing right, or a fault to wait on (R178). -/
inductive XlatRes | ok (e : Xlat) (pa : Nat) | rights | absent
  deriving DecidableEq, Repr

/-- Translation with the rights asked for; an ASID entry that does not serve the partition is as a malformed entry (R174); a write, atomic or STC of
a MIG page waits as a fault does. -/
def State.xlate (s : State) (t asid pva : Nat) (r w xq wr : Bool) : XlatRes :=
  let h := s.asidOf t asid
  let p := s.partOf t
  if !h.serves p (s.partAsid p).2 then .absent
  else match s.tlbFind t asid pva (h.region pva).isSome with
    | none => .absent
    | some e =>
      if (r && !e.r) || (w && !e.w) || (xq && !e.x) then .rights
      else if wr && e.mig then .absent
      else .ok e (e.pa pva)

/-- The router of a tile's cluster on its die: the cluster field is 8 × x + y (R11); the pager stands at (8, 4) (R178). -/
def routerOf (tile : Nat) : Nat × Nat := (tile / 8 % 128 / 8, tile / 8 % 8)

/-- A fault message leaves for the pager and its context will park with PARK 9 (R179). va is the address that faulted; wr marks a write, atomic or STC. -/
def State.pageFault (s : State) (t c pva va : Nat) (r w xq wr : Bool) : State :=
  let p := s.partOf t
  let (x, y) := routerOf t
  let s := s.useAsid t
  let f : PageFault := { id := s.nextId, asid := (s.partAsid p).1, part := p, pva := pva, va, tile := t, ctx := c
                         gen := (s.ctx t c).gen
                         launch := (match (s.tile t).grp with | some g => g.launch | none => 0)
                         group := s.groupIdx t, rd := r, wr := w, xq := xq, rw := wr, rx := x, ry := y }
  State.fresh { s with faults := s.faults ++ [f] }

/-- An address of the context checked and translated: the physical address with its translation (none for a scratchpad), a
trap, or a fault that parks the context (R134, R178, R179). -/
inductive Access | at_ (s : State) (pa : Nat) (e : Option Xlat) | stop (i : Iss)

/-- Whether a virtual address leads through a REMOTE segment to the scratchpad of a group that is away (R134, R229). -/
def State.farAway (s : State) (t : Nat) (segs : Fixed Seg 8) (va : Nat) : Bool :=
  let g := (segs.getD (va / 2 ^ 61) {}).w0.toNat
  bits g 61 60 = 3 && s.roleAway t (bits g 24 19)

/-- The address checks of an access of n bytes at V (R134, R178). An access by role to a group that is migrating is held once it has passed them (R229); one
that waits for a translation keeps the timer of its latch (R210). wr marks a write, an atomic or an STC. -/
def State.access (s : State) (t c va n : Nat) (r w xq wr : Bool) : Access :=
  match s.segCheck t (s.ctx t c).seg va n r w xq with
  | .error k => .stop (.trap s k (BitVec.ofNat 64 va) 0)
  | .ok (.spad d off) => if s.farAway t (s.ctx t c).seg va then .stop (.hold s) else .at_ s (spadPa d off) none
  | .ok (.mem pva) =>
    let (asid, _) := s.partAsid (s.partOf t)
    match s.xlate t asid pva r w xq wr with
    | .rights => .stop (.trap (s.useAsid t) causePageRights (BitVec.ofNat 64 va) 0)
    | .absent => .stop (.park (s.pageFault t c pva va r w xq wr) 9 0 (s.timerOf t c))
    | .ok e pa => .at_ (s.tlbFill t e) pa (some e)

/-! ## Pointers (R128, R129) -/

/-- Fields of a pointer image. -/
def pBank (p : Nat) : Nat := p % 4
def pRemote (p : Nat) : Bool := bit p 2
def pRole (p : Nat) : Nat := bits p 8 3
def pVidx (p : Nat) : Nat := bits p 19 9
def pStride (p : Nat) : Int := sgn 12 (bits p 31 20)
/-- R129: BANK 3 or a reserved bit. -/
def pBad (p : Nat) : Bool := pBank p = 3 || decide (2 ^ 32 ≤ p)
/-- The index after n vectors, wrapping within the bank (R129). -/
def pStep (i : Nat) (st : Int) (n : Nat) : Nat := (((i : Int) + st * n) % 2048).toNat
/-- The pointer advanced by n vectors. -/
def pAdvance (p : Word) (n : Nat) : Word :=
  let v := p.toNat
  BitVec.ofNat 64 (v - pVidx v * 512 + pStep (pVidx v) (pStride v) n * 512)

/-- The line number of vector v of bank b of tile t. -/
def spadLine (t b v : Nat) : Nat := (spadPa t (b * 0x20000 + 64 * v)) / 64
/-- A vector of a scratchpad with its poison (R136). -/
def State.vec (s : State) (t b v : Nat) : Vec × Bool := (s.line (spadLine t b v), s.poisoned (spadLine t b v))
/-- R138: n accesses of a party that goes first in bank b of a tile, after those of such parties before it. A vector instruction that is running and uses the
bank loses the cycles in which they take it, each once. -/
def Tile.takeBank (v : Tile) (cyc b n : Nat) : Tile :=
  let start := max cyc (v.bankTill.getD b 0)
  { v with
    bankTill := v.bankTill.set b (start + n)
    vrun := v.vrun.map fun r =>
      if start < r.till ∧ r.banks.contains b = true then { r with till := r.till + (start + n - max start r.lost), lost := max r.lost (start + n) } else r }
/-- The cycle until which parties that go first have a bank of some (R138). -/
def Tile.banksTill (v : Tile) (bs : List Nat) : Nat := bs.foldl (fun n b => max n (v.bankTill.getD b 0)) 0
/-- Consecutive vectors from v, raw (R362). -/
def State.vecs (s : State) (t b v n : Nat) : List (Vec × Bool) := (List.range n).map fun i => s.vec t b (v + i)

/-! ## Streams (R130) -/

/-- The product of the COUNTs: the number of vectors of a stream. -/
def Stream.total (x : Stream) : Nat := x.dims.foldl (fun n d => n * d.1) 1
/-- The virtual address of the vector at position n. -/
def Stream.addr (x : Stream) (n : Nat) : Nat :=
  let go := x.dims.foldl (fun (a : Int × Nat) d => (a.1 + (a.2 % d.1 : Nat) * d.2, a.2 / d.1)) ((x.base : Int), n)
  wrap 64 go.1

/-- Bytes of a number as a 512-bit vector. -/
def toVec (v : Nat) : Vec := BitVec.ofNat 512 v
/-- Bits hi..lo of a vector. -/
def Vec.field (v : Vec) (hi lo : Nat) : Nat := bits v.toNat hi lo

end Sys2Proof.Machine
end

