-- ==== Sys2Proof/Machine/Cache.lean ====
section
/-!
DEFINITION. The cache parts of the slices (R57, R166, R171, R172): sets of a tenant, tree pseudo-LRU, allocation, replacement and write-back, and what an
access that passes them reads and writes.
-/
namespace Sys2Proof.Machine

/-! ## Sets (R166, R171) -/

/-- The sets of a TSET value: the first and the number of sets, or none where the range is empty. -/
def tsetRange (v : Nat) : Nat × Nat := if bit v 8 then (bits v 28 16, 2 ^ bits v 3 0) else (0, 0)
/-- Where the TSET register of a tenant lies. -/
def tsetOff (part tenant : Nat) : Nat := 0x24000 + 128 * part + 8 * tenant
/-- R166: the sets of a cache part of partition p. -/
def State.cacheSets (s : State) (p : Nat) : Nat := 2048 * (4 - s.vault p)
/-- R171: the set into which a line goes for a tenant of partition p. There is none, and the access bypasses the cache part, where the tenant's range is
empty (R172), where the partition has no cache parts (R166, R167), and (log 52) where the set lies beyond the last. -/
def State.cacheSet (s : State) (p tenant line : Nat) : Option Nat :=
  let (b, n) := tsetRange (s.pfr (tsetOff p tenant)).toNat
  let set := b + line % n
  if n = 0 ∨ (s.part p).homes.isEmpty = true ∨ s.cacheSets p ≤ set then none else some set
/-- Whether an access to a CXL line is performed at the memory port, past every cache part (R169, R172). -/
def State.direct (s : State) (p tenant line : Nat) (shu : Bool) : Bool :=
  isCxl (64 * line) && (shu || (s.cacheSet p tenant line).isNone)

/-! ## Pseudo-LRU of 16 ways (log 52) -/

/-- The way that the bits of a set point to: at each node of the tree, numbered from 1, the bit names the half to replace. -/
def plruWay (b : Nat) : Nat :=
  let go := fun n => 2 * n + b2n (bit b n)
  go (go (go (go 1))) - 16
/-- The bits after an access to a way: every node on its path points to the other half. -/
def plruTouch (b way : Nat) : Nat :=
  (List.range 4).foldl (fun b i =>
    let n := (16 + way) / 2 ^ (4 - i)
    let toHigh := !bit (16 + way) (3 - i)
    b - (if bit b n then 2 ^ n else 0) + (if toHigh then 2 ^ n else 0)) b
/-- The replacement bits of a set after an access to a way. -/
def State.touch (s : State) (home set way : Nat) : State :=
  let k := 16384 * home + set
  { s with mem := { s.mem with plru := Tbl.put s.mem.plru k (plruTouch (Tbl.getD s.mem.plru k 0) way) } }

/-! ## Lines that enter and leave -/

/-- A line written back to memory as one MemWr with its poison (R58); a write to an OFFLINE range is discarded. -/
def State.memWr (s : State) (line : Nat) (c : CLine) : State :=
  if c.dirty && !s.offline (64 * line) then (s.pokeRaw (64 * line) c.data.toNat 64).setMemPoison line c.poison else s
/-- A line leaves its cache part, written back where memory lacks it (R168, R171, R172). -/
def State.evict (s : State) (line : Nat) : State :=
  match Tbl.find? s.mem.cxl line with
  | some c =>
    let s := s.memWr line c
    { s with mem := { s.mem with cxl := Tbl.erase s.mem.cxl line } }
  | none => s
/-- The lines picked leave their cache parts. -/
def State.writeBack (s : State) (pick : Nat → CLine → Bool) : State :=
  (s.mem.cxl.filter fun c => pick (64 * c.1) c.2).foldl (fun (s : State) c => s.evict c.1) s

/-- R171: the line is in its cache part when a tenant of partition p accesses it there, allocated in a free way of its set or in place of the one that
pseudo-LRU names. An access that bypasses the cache part, and a line of an OFFLINE range, allocate nothing. -/
def State.allocate (s : State) (p tenant line : Nat) : State :=
  match s.cacheSet p tenant line with
  | none => s
  | some set =>
    if s.offline (64 * line) then s
    else match Tbl.find? s.mem.cxl line with
    | some c => s.touch c.home c.set c.way
    | none =>
      let h := s.home p (64 * line)
      let there := s.mem.cxl.filter fun c => decide (c.2.home = h) && decide (c.2.set = set)
      let way := ((List.range 16).find? fun w => there.all fun c => decide (c.2.way ≠ w)).getD (plruWay (Tbl.getD s.mem.plru (16384 * h + set) 0))
      let s := match there.find? fun c => decide (c.2.way = way) with | some c => s.evict c.1 | none => s
      let c : CLine := { home := h, set, way, data := BitVec.ofNat 512 (s.memN (64 * line) 64), tenant, poison := s.memPoisoned line }
      State.touch { s with mem := { s.mem with cxl := Tbl.put s.mem.cxl line c } } h set way

/-! ## Reading and writing at the home -/

/-- n bytes as an access of a tenant of partition p reads them at the home (R169, R172). -/
def State.readN (s : State) (p tenant : Nat) (shu : Bool) (pa n : Nat) : Nat :=
  if s.direct p tenant (pa / 64) shu then s.memN pa n else s.peekN pa n
/-- Whether the line that such an access reads is poisoned. -/
def State.readBad (s : State) (p tenant : Nat) (shu : Bool) (line : Nat) : Bool :=
  if s.direct p tenant line shu then s.memPoisoned line else s.poisoned line

/-- The line v of n bytes at an offset replaced. -/
def spliceVec (old : Vec) (off v n : Nat) : Vec :=
  let sh := 2 ^ (8 * off)
  let w := 2 ^ (8 * n)
  BitVec.ofNat 512 (old.toNat - old.toNat / sh % w * sh + v % w * sh)

/-- Bytes reach the home, within one line, with poison set or cleared where bad says so: a CXL line in its cache part becomes dirty there; everything
else is memory. A write that bypasses the cache part goes through the home to memory (R172), and a copy that the home holds for another tenant takes it too, so
that every store is seen there (R175, log 52); one of a shared-uncached page leaves a cached line as it is (R169). An OFFLINE range discards them (R58). -/
def State.pokeHome (s : State) (p tenant pa v n : Nat) (shu : Bool) (bad : Option Bool) : State :=
  let line := pa / 64
  if s.offline pa then s
  else if isCxl pa && !s.direct p tenant line shu then
    let s := s.allocate p tenant line
    match Tbl.find? s.mem.cxl line with
    | some c =>
      let c := { c with data := spliceVec c.data (pa % 64) v n, dirty := true, poison := bad.getD c.poison }
      { s with mem := { s.mem with cxl := Tbl.put s.mem.cxl line c } }
    | none => s
  else
    let s := s.pokeRaw pa v n
    let s := match bad with | some b => s.setMemPoison line b | none => s
    match (if shu then none else s.cached line) with
    | some c => { s with mem := { s.mem with cxl := Tbl.put s.mem.cxl line { c with data := spliceVec c.data (pa % 64) v n, poison := bad.getD c.poison } } }
    | none => s

end Sys2Proof.Machine
end

