-- ==== Sys2Proof/Machine/Home.lean ====
section
/-!
DEFINITION. Memory at its homes: invalidation of L1 copies (R170), gathering of commutative partials (R194), the one way a write is
applied (R186), stamped writes (R201), watches (R357) and waiting lag loads (R205), the store buffer (R188), release counts
(R190), and the holds of the cluster port (R191 to R193).
-/
namespace Sys2Proof.Machine

/-! ## Copies -/

/-- R170: every L1 copy of a line that is not stamped leaves, but that of the storing tile. -/
def State.invalL1 (s : State) (line : Nat) (keep : Option Nat) : State :=
  { s with tiles := Tbl.mapV (fun t v =>
      match Tbl.find? v.l1 line with
      | some l => if l.stamp.isNone ∧ some t ≠ keep then { v with l1 := Tbl.erase v.l1 line } else v
      | none => v) s.tiles }

/-- R182, R202: every L1 copy of a line leaves, stamped ones too. -/
def State.dropL1 (s : State) (line : Nat) : State :=
  { s with tiles := Tbl.mapV (fun _ v => { v with l1 := Tbl.erase v.l1 line }) s.tiles }

/-- Whether a line of a translation may be held in L1 and in a cache part (R169). -/
def cacheable (shu : Bool) (pa : Nat) : Bool := !shu && !isHost pa && !isSpad pa

/-- A load of a tenant of partition p fills L1 with the line as its home gives it (R169). Of its 1,024 lines of 64 bytes one leaves for room: DESIGN CHOICE
(log 22), the other one of the lowest line number. -/
def State.fillL1 (s : State) (p tenant t line pva : Nat) (stamp : Option W32) : State :=
  let l : L1Line := { asid := (s.partAsid p).1, pva, data := BitVec.ofNat 512 (s.readN p tenant false (64 * line) 64), poison := s.readBad p tenant false line, stamp }
  s.updTile t fun v =>
    let l1 := Tbl.put v.l1 line l
    { v with l1 := if l1.length ≤ 1024 then l1 else match l1.find? fun e => decide (e.1 ≠ line) with | some e => Tbl.erase l1 e.1 | none => l1 }

/-- R139: a write to a merged vector splits the merge: the requests already made take their read now. -/
def State.splitReads (s : State) (line : Nat) : State :=
  { s with rreads := s.rreads.map fun r =>
      let ls := (List.range r.count).map fun i => (r.bank, pStep r.first r.stride i)
      if !r.closed && ls.any (fun v => decide (spadLine r.tile v.1 v.2 = line)) then
        { r with closed := true, fmt := (s.tile r.tile).bank.getD r.bank 0, data := ls.map fun v => s.vec r.tile v.1 v.2 }
      else r }

/-! ## The store buffer (R188, R299) -/

/-- Whether a request is a store waiting in the tile's store buffer. -/
def Req.inSb (r : Req) (t : Nat) : Bool := decide (r.tile = t) && decide (r.kind = .store) && decide (r.stage = .buffer)
/-- Stores in a tile's store buffer (R301: at most 32). -/
def State.sbCount (s : State) (t : Nat) : Nat := (s.reqs.filter (·.inSb t)).length
/-- R188, R203: whether the store buffer of a tile holds an entry of a line. -/
def State.sbHas (s : State) (t line : Nat) : Bool := s.reqs.any fun r => r.inSb t && decide (r.pa / 64 = line)

/-- R186, R203: whether an earlier store of the context to the line of an access has yet to be performed. -/
def State.ownStore (s : State) (r : Req) : Bool :=
  s.reqs.any fun q => decide (q.tile = r.tile) && decide (q.ctx = r.ctx) && decide (q.id < r.id) && decide (q.kind = .store) && decide (q.stage ≠ .reply)
    && decide (q.pa / 64 = r.pa / 64)
/-- R188, R203: whether the store buffer of a tile holds an entry of a line that entered it before place e. -/
def State.sbOlder (s : State) (t line e : Nat) : Bool :=
  s.reqs.any fun r => r.inSb t && decide (r.pa / 64 = line) && decide (r.entry < e)

/-- R204: whether a line of stamp s is young enough for a lag load. -/
def Req.young (r : Req) (stamp : W32) : Bool := decide (r.lag = 511) || decide (Machine.sgn 32 (r.iter - stamp).toNat ≤ (r.lag : Int))

/-- Whether a request is a WAITW or WAITC. -/
def Req.isWait (r : Req) : Bool := r.kind = .waitw || r.kind = .waitc

/-- Whether a request is a store that covers a byte. -/
def Req.writes (r : Req) (pa : Nat) : Bool := decide (r.kind = .store) && decide (r.pa ≤ pa) && decide (pa < r.pa + r.n)
/-- The later of two requests by a measure, where there are any. -/
def newest (f : Req → Nat) (rs : List Req) : Option Req :=
  rs.foldl (fun (b : Option Req) r => match b with | some q => if f q < f r then some r else b | none => some r) none

/-- The newest store that context c of tile t sees for a byte before id (R186, R188, R299): its own, held at the port or buffered, else the newest entry of
the tile's store buffer that is not later than a later store of its own. -/
def State.sbByte (s : State) (t c id pa : Nat) : Option Nat :=
  let rs := s.reqs.filter fun r => decide (r.tile = t) && r.writes pa && (decide (r.stage = .port) || decide (r.stage = .buffer))
  let mine := rs.filter fun r => decide (r.ctx = c) && decide (r.id < id)
  let sb := rs.filter fun r => decide (r.stage = .buffer)
  let late := sb.filter fun r => decide (r.ctx = c) && decide (id ≤ r.id)
  let seen := sb.filter fun r => late.all fun q => decide (r.entry < q.entry)
  match (newest (·.id) mine).orElse fun _ => newest (·.entry) seen with
  | some r => some (r.data / 2 ^ (8 * (pa - r.pa)) % 256)
  | none => none

/-- n bytes as a load sees them: buffered bytes over base bytes; and whether every byte was buffered. -/
def State.overlay (s : State) (t c id pa base : Nat) : Nat → Nat × Bool
  | 0 => (0, true)
  | n + 1 =>
    let (v, all) := s.overlay t c id (pa + 1) (base / 256) n
    match s.sbByte t c id pa with
    | some b => (b + 256 * v, all)
    | none => (base % 256 + 256 * v, false)

/-! ## Release rounds (R190, R191) -/

/-- Count entries a home keeps (R190). -/
def countCap (home : Nat) : Nat := if home = homeH0 then 4096 else if home < 512 then 2048 else 64

/-- R190: a write of context c in round r leaves for a home: ISSUED rises and the home counts it, sending back the count of its
least recently used entry when it has none free. -/
def State.countWrite (s : State) (t c home r : Nat) : State :=
  let s := s.updCtx t c fun x => { x with issued := x.issued.set r (x.issued.getD r 0 + 1) }
  let isTag : RelCount → Bool := fun k => decide (k.home = home) && decide (k.tile = t) && decide (k.ctx = c) && decide (k.round = r)
  let old := (s.counts.find? isTag).map (·.n) |>.getD 0
  let rest := s.counts.filter fun k => !isTag k
  let here := rest.filter fun k => decide (k.home = home)
  if old = 0 ∧ countCap home ≤ here.length then
    match here with
    | [] => s
    | e :: _ =>
      let s := s.updCtx e.tile e.ctx fun x => { x with spill := x.spill.set e.round (x.spill.getD e.round 0 + e.n) }
      { s with counts := (rest.erase e) ++ [⟨home, t, c, r, 1⟩] }
  else { s with counts := rest ++ [⟨home, t, c, r, old + 1⟩] }

/-- The sum of the homes' counts for a tag (R191). -/
def State.countSum (s : State) (t c r : Nat) : Nat :=
  s.counts.foldl (fun n k => if k.tile = t ∧ k.ctx = c ∧ k.round = r then n + k.n else n) 0

/-! ## Holds at the cluster port (R191 to R193, R352) -/

/-- Whether a request is a load, a stamped load or a wait, which REL does not hold as it holds stores and atomics (R191). -/
def Req.isLoad (r : Req) : Bool := match r.kind with | .load | .sbind | .ldaW | .ldaN | .waitw | .waitc | .barwait => true | _ => false
/-- Whether a request returns something: a load, a wait or an atomic (R193). -/
def Req.returns (r : Req) : Bool := r.isLoad || decide (r.kind = .amo) || decide (r.kind = .elect)

/-- R190: whether round r of a context takes no new write: a later access than a REL or FENCE.S that closed it waits until the
round number is free again. -/
def Ctx.roundShut (x : Ctx) (id r : Nat) : Bool :=
  x.clearing.getD r false || x.fences.any (fun f => decide (f.kind = .query) && decide (f.round = r) && decide (f.id < id))
/-- Whether an access of a context with place id and round r must wait at the port: a load for a hold that holds loads, a store
or atomic for any hold, and for a round number that is not free (R190). -/
def Ctx.blocked (x : Ctx) (id : Nat) (isLoad : Bool) (r : Nat) : Bool :=
  x.fences.any (fun f => decide (f.id < id) && (f.loads || !isLoad)) || (!isLoad && x.roundShut id r)
/-- Whether a store of a context that is earlier than id waits at the port: no later store or atomic of it passes (R187, R191). -/
def State.heldStore (s : State) (t c id : Nat) : Bool :=
  s.reqs.any fun r => decide (r.tile = t) && decide (r.ctx = c) && decide (r.id < id) && decide (r.kind = .store) && decide (r.stage = .port)
/-- Whether an access issued now waits at the port. -/
def State.portHolds (s : State) (t c : Nat) (isLoad : Bool) : Bool :=
  (s.ctx t c).blocked s.nextId isLoad (s.ctx t c).relRnd || (!isLoad && s.heldStore t c s.nextId)
/-- Accesses of a context held at the port (R352: at most 16). -/
def State.heldCount (s : State) (t c : Nat) : Nat :=
  (s.reqs.filter fun r => decide (r.tile = t) && decide (r.ctx = c) && decide (r.stage = .port)).length
/-- Whether a load, stamped load, atomic or wait earlier than id has not returned (R193). -/
def State.loadsOut (s : State) (t c id : Nat) : Bool :=
  s.reqs.any fun r => decide (r.tile = t) && decide (r.ctx = c) && decide (r.id < id) && r.returns
/-- Whether a store earlier than id has not entered the store buffer, or another act that returns nothing has still to be performed. -/
def State.storesHeld (s : State) (t c id : Nat) : Bool :=
  s.reqs.any fun r => decide (r.tile = t) && decide (r.ctx = c) && decide (r.id < id) && !r.returns
    && (decide (r.stage = .port) || decide (r.stage = .flight))
/-- Whether a store earlier than id has not been applied at its home, or another act that returns nothing has still to be performed. -/
def State.storesOut (s : State) (t c id : Nat) : Bool :=
  s.reqs.any fun r => decide (r.tile = t) && decide (r.ctx = c) && decide (r.id < id) && !r.returns && decide (r.stage ≠ .reply)
/-- Whether the vector or matrix unit still works on an instruction of the context earlier than id (R352: fences cover its bank accesses). -/
def State.unitBusy (s : State) (t c id : Nat) : Bool :=
  let v := s.tile t
  v.vq.any (fun o => decide (o.ctx = c) && decide (o.id < id))
    || (match v.vrun with | some r => decide (r.ctx = c) && decide (r.id < id) | none => false)
    || (match v.mrun with | some m => decide (m.ctx = c) && decide (m.id < id) | none => false)

/-- R186: whether an earlier load, atomic or wait of the context on the line of a load has still to be performed. -/
def State.lineWaits (s : State) (r : Req) : Bool :=
  s.reqs.any fun q => decide (q.tile = r.tile) && decide (q.ctx = r.ctx) && decide (q.id < r.id) && decide (q.kind ≠ .store)
    && decide (q.stage ≠ .reply) && decide (q.pa / 64 = r.pa / 64)

/-- R169, R203, R208, R300: whether a load is never answered from the store buffer: of a stamped line, or of one that is held neither in L1 nor in a cache
part, where the access is performed at the home. -/
def Req.pastBuffer (r : Req) : Bool := r.stamped || !cacheable r.shu r.pa

/-- Whether a load sees every byte at the tile, and what it sees: the store buffer, or L1 (R188, R299, R300). An earlier access of the context to the
line that has not been performed is not passed (R186), and a plain load takes no stamped copy (R199). -/
def State.localLoad (s : State) (r : Req) : Option (Nat × Bool) :=
  let line := r.pa / 64
  if (Tbl.find? (s.tile r.tile).parts line).isSome || s.lineWaits r then none
  else if r.stamped then
    if s.sbHas r.tile line || s.ownStore r then none
    else match (Tbl.find? (s.tile r.tile).l1 line).filter (·.stamp.isSome) with
      | some l => some (bits l.data.toNat (8 * (r.pa % 64) + 8 * r.n - 1) (8 * (r.pa % 64)), l.poison)
      | none => none
  else if r.pastBuffer then none
  else
    let (v, all) := s.overlay r.tile r.ctx r.id r.pa 0 r.n
    if all then some (v, false)
    else match (Tbl.find? (s.tile r.tile).l1 line).filter (·.stamp.isNone) with
      | some l => some ((s.overlay r.tile r.ctx r.id r.pa (bits l.data.toNat (8 * (r.pa % 64) + 8 * r.n - 1) (8 * (r.pa % 64))) r.n).1, l.poison)
      | none => none

/-- A loaded value extended as its instruction says (R299). -/
def Req.extend (r : Req) (v : Nat) : Word :=
  if r.sgn then BitVec.ofInt 64 (Machine.sgn (8 * r.n) v) else BitVec.ofNat 64 v

/-- Where an access goes when the port lets it go: a store into the store buffer, a load answered at the tile or bound for its
home, anything else for its home. -/
def State.launchReq (s : State) (r : Req) : Req :=
  match r.kind with
  | .store => { r with stage := .buffer }
  | .load => match s.localLoad r with
    | some (v, p) => { r with stage := .reply, val := r.extend v, poison := p }
    | none => { r with stage := .flight }
  | .sbind => match s.localLoad r with
    | some (v, p) => { r with stage := .reply, data := v, poison := p }
    | none => { r with stage := .flight }
  | .ldaW =>
    if !r.stamped then
      match s.localLoad r with
      | some (v, p) => { r with stage := .reply, val := BitVec.ofNat 64 v, poison := p }
      | none => { r with stage := .flight }
    else match (if s.sbHas r.tile (r.pa / 64) || s.ownStore r || s.lineWaits r then none else Tbl.find? (s.tile r.tile).l1 (r.pa / 64)) with
    | some l => match l.stamp with
      | some st =>
        if r.young st then
          { r with stage := .reply, age := r.iter - st, poison := l.poison
                   val := BitVec.ofNat 64 (bits l.data.toNat (8 * (r.pa % 64) + 63) (8 * (r.pa % 64))) }
        else { r with stage := .flight }
      | none => { r with stage := .flight }
    | none => { r with stage := .flight }
  | _ => { r with stage := .flight }

/-- R134: where an access by a LOCAL or REMOTE segment goes: the tile of the group that it named. -/
def State.rebind (s : State) (r : Req) : Req :=
  match r.spadGrp, s.launchOf r.tile with
  | some g, some l => match l.tileOf g with | some d => { r with pa := spadPa d (r.pa % 0x80000) } | none => r
  | _, _ => r
/-- Whether the scratchpad of an access is that of another group which is away (R124). -/
def State.awayReq (s : State) (r : Req) : Bool :=
  match r.spadGrp, (s.tile r.tile).grp with | some g, some k => decide (g ≠ k.idx) && s.groupAway k.launch g | _, _ => false
/-- Whether an access that waits at the port stays there: for a hold or its round number, for an earlier store of its context, for room in the store buffer
(R301), for the buffered stores to the line of an STC (R188), for a group that is away, or, being a wait, for the resume of its own. -/
def State.kept (s : State) (r : Req) : Bool :=
  (s.ctx r.tile r.ctx).blocked r.id r.isLoad r.round || (!r.isLoad && s.heldStore r.tile r.ctx r.id)
    || (decide (r.kind = .store) && decide (32 ≤ s.sbCount r.tile)) || (decide (r.kind = .stc) && s.sbHas r.tile (r.pa / 64)) || s.awayReq r
    || ((decide (r.kind = .waitw) || decide (r.kind = .waitc)) && (s.tile r.tile).quiet)

/-- An access enters: held at the port, or on its way. -/
def State.addReq (s : State) (r : Req) : State :=
  let r := { r with id := s.nextId, entry := s.nextId, round := (s.ctx r.tile r.ctx).relRnd }
  let r := if s.portHolds r.tile r.ctx r.isLoad then { r with stage := .port } else s.launchReq r
  State.fresh { s with reqs := s.reqs ++ [r] }
/-- An access enters that waits at the port whatever holds it there. -/
def State.addHeld (s : State) (r : Req) : State :=
  State.fresh { s with reqs := s.reqs ++ [{ r with id := s.nextId, entry := s.nextId, round := (s.ctx r.tile r.ctx).relRnd, stage := .port }] }

/-- The accesses of a list, by identifier in program order, go on from the port where nothing keeps them, tagged with the round that was open when they
issued (R191). -/
def State.releaseFrom (s : State) : List Nat → State
  | [] => s
  | id :: ids =>
    match s.reqs.find? (fun r => decide (r.id = id)) with
    | none => s.releaseFrom ids
    | some r =>
      if s.kept r then s.releaseFrom ids
      else
        let q := s.launchReq { s.rebind r with entry := s.nextId }
        (State.fresh { s with reqs := s.reqs.map fun x => if x.id = id then q else x }).releaseFrom ids
/-- Every access that a tile's port holds and nothing keeps goes on. -/
def State.releaseTile (s : State) (t : Nat) : State :=
  s.releaseFrom ((s.reqs.filter fun r => decide (r.tile = t) && decide (r.stage = .port)).map (·.id))

/-- R192, R193, R353: acquires, tile-scope holds and those of a WBR or INVR whose accesses have all returned end, and what they or a full store buffer
held goes on. -/
def State.settle (s : State) (t c : Nat) : State :=
  let x := s.ctx t c
  let fs := x.fences.filter fun f => match f.kind with
    | .acq => s.loadsOut t c f.id
    | .tile => s.loadsOut t c f.id || s.storesHeld t c f.id || s.unitBusy t c f.id
    | .range => s.storesHeld t c f.id
    | _ => true
  (if fs.length = x.fences.length then s else s.updCtx t c fun x => { x with fences := fs }).releaseTile t

/-- A hold enters at the port; one with nothing to wait for ends at once. -/
def State.addFence (s : State) (t c : Nat) (kind : FenceKind) (loads : Bool) (round : Nat) (sys : Bool := false) : State :=
  let f : Fence := { id := s.nextId, kind, loads, round, sys }
  (State.fresh (s.updCtx t c fun x => { x with fences := x.fences ++ [f] })).settle t c

/-- R193: the acquire that a wait carries takes effect. -/
def State.acquire (s : State) (t c : Nat) : State := s.addFence t c .acq true 0

/-- The waiters of a barrier object whose generation is no longer the one they supplied complete, each with its acquire (R229, R359). -/
def State.wakeBarrier (s : State) (line : Nat) : State :=
  let go := s.barWait.filter fun w => decide (w.1 = line) && decide (w.2.1 ≠ s.peekN (64 * line) 1 % 16)
  go.foldl (fun s w => (s.completeLatched w.2.2.1 w.2.2.2).acquire w.2.2.1 w.2.2.2) { s with barWait := s.barWait.filter fun w => !go.contains w }

/-- The request of an identifier. -/
def State.req? (s : State) (id : Nat) : Option Req := s.reqs.find? fun r => decide (r.id = id)
/-- The request replaced. -/
def State.setReq (s : State) (r : Req) : State := { s with reqs := s.reqs.map fun q => if q.id = r.id then r else q }
/-- The request gone. -/
def State.dropReq (s : State) (id : Nat) : State := { s with reqs := s.reqs.filter fun q => decide (q.id ≠ id) }

/-- Whether a drain of a context into a bank that comes before id has yet to land (R337, R342). -/
def Tile.drains (v : Tile) (c id : Nat) : Bool :=
  match v.mrun with | some m => decide (m.ctx = c) && decide (m.id < id) && !m.drain.isEmpty | none => false
/-- R136: whether a vector instruction of a context that waits for the unit, or a drain of it, comes before id and may use the tile's banks. -/
def Tile.bankWork (v : Tile) (c id : Nat) : Bool := v.vq.any (fun o => decide (o.ctx = c) && decide (o.id < id)) || v.drains c id
/-- R187, R136: whether an earlier access of the same context to the same home, held at the port or on its way, an earlier entry of the tile's store
buffer for the line of a buffered store (R186, R188), or an earlier vector instruction or drain of the context that may use the banks of its own tile, has
yet to be performed. -/
def State.homeWaits (s : State) (r : Req) : Bool :=
  let p := s.partOf r.tile
  (isSpad r.pa && decide (spadTile r.pa = r.tile) && (s.tile r.tile).bankWork r.ctx r.id)
  || (decide (r.stage = .buffer) && s.sbOlder r.tile (r.pa / 64) r.entry)
  || s.reqs.any fun q => decide (q.tile = r.tile) && decide (q.ctx = r.ctx) && decide (q.id < r.id)
    && (decide (q.stage = .port) || decide (q.stage = .buffer) || decide (q.stage = .flight)) && decide (s.home p q.pa = s.home p r.pa)

/-! ## Watches (R357, R358) -/

/-- The condition of WAITW (ctr false) and WAITC (ctr true) on the word w against c (R357). -/
def waitHolds (ctr : Bool) (cond w c : Nat) : Bool :=
  match cond with
  | 0 => w = c
  | 1 => w ≠ c
  | 2 => if ctr then decide ((w + 2 ^ 64 - c) % 2 ^ 64 < 2 ^ 63) else decide (c ≤ w)
  | _ => if ctr then decide (2 ^ 63 ≤ (w + 2 ^ 64 - c) % 2 ^ 64) else decide (w < c)

/-- The n bytes and the poison that a request reads at its home (R169). -/
def State.reqN (s : State) (r : Req) (n : Nat) : Nat := s.readN (s.partOf r.tile) r.tenant r.shu r.pa n
def State.reqBad (s : State) (r : Req) : Bool := s.readBad (s.partOf r.tile) r.tenant r.shu (r.pa / 64)

/-- R357: after a write to a line, every watch on it whose word holds is answered. H0 holds no watch (R358). -/
def State.evalWatches (s : State) (line : Nat) : State :=
  { s with reqs := s.reqs.map fun r =>
      if r.isWait && decide (r.stage = .waiting) && decide (r.pa / 64 = line) && !isHost r.pa then
        let w := s.reqN r 8
        if waitHolds (r.kind = .waitc) r.op w r.cmp then
          { r with stage := .reply, val := BitVec.ofNat 64 w, poison := s.reqBad r } else r
      else r }

/-- R82: after a store applied to its word, a WAITV whose condition holds completes OK (WAITV_SATISFIED). -/
def State.evalWaitv (s : State) (line : Nat) : State :=
  s.windows.foldl (fun s q =>
    match q.2.run with
    | some r => match r.pa with
      | some pa =>
        if r.cmd.op = 6 ∧ pa / 64 = line ∧ waitHolds false (bits r.cmd.bytes.toNat 263 256)
            (s.readN (q.1 / 16 - 1) r.tenant r.shu pa 8 &&& bits r.cmd.bytes.toNat 255 192) (bits r.cmd.bytes.toNat 191 128) = true
        then s.completeCmd (q.1 / 16) (q.1 % 16) 0 0 else s
      | none => s
    | none => s) s

/-- A lag load answered with the line's bytes and stamp. -/
def Req.answer (r : Req) (s : State) (stamp : W32) : Req :=
  { r with stage := .reply, val := BitVec.ofNat 64 (s.reqN r 8), age := if r.stamped then r.iter - stamp else 0, poison := s.reqBad r }

/-- Whether a stamped load waits at the home of a line that has the stamp it needs (R205). -/
def Req.satisfied (r : Req) (line : Nat) (stamp : W32) : Bool :=
  decide (r.kind = .ldaW) && (decide (r.stage = .waiting) || decide (r.stage = .withdrawing)) && decide (r.pa / 64 = line) && r.young stamp
/-- R205: after a write applied to a stamped line, every waiting load it satisfies is answered with the line's bytes and stamp, which its tile's L1 takes. -/
def State.evalWaiters (s : State) (line : Nat) : State :=
  let stamp := Tbl.getD s.mem.stamps line 0
  (s.reqs.filter (·.satisfied line stamp)).foldl (fun (s : State) r => s.fillL1 (s.partOf r.tile) r.tenant r.tile line r.pva (some stamp))
    { s with reqs := s.reqs.map fun r => if r.satisfied line stamp then r.answer s stamp else r }

/-! ## Applying a write (R186, R201) -/

/-- The tenant of a partition's address space as a tile holds the ASID's entry (R171, R174). -/
def State.tenantOf (s : State) (t p : Nat) : Nat := (s.asidOf t (s.partAsid p).1).tenant
/-- R169: the L1 copy of a tile takes a store of that tile; a stamped copy leaves (R199). -/
def L1Line.store (l : L1Line) (off n v : Nat) (poison : Bool) : Option L1Line :=
  if l.stamp.isNone then some { l with data := spliceVec l.data off v n, poison := if n = 64 then poison else poison || l.poison } else none
/-- The one way a write of n bytes of v, within one line, is applied at its home: remote merges split, L1 copies but the
storing tile's are invalidated, the bytes land, poison is set by poisoned data and cleared only by 64 clean bytes (R265), a
copy in the storing tile is updated (R169), unless the write is discarded (R58), and watches and barrier waiters are evaluated (R229). -/
def State.applyWrite (s : State) (p tenant pa n v : Nat) (src : Option Nat) (poison shu : Bool) : State :=
  let line := pa / 64
  let s := (s.splitReads line).invalL1 line src
  let s := s.pokeHome p tenant pa v n shu (if poison then some true else if n = 64 then some false else none)
  let s := match src with
    | some t => if s.offline pa then s else s.updTile t fun w => match Tbl.find? w.l1 line with
      | some l => { w with l1 := match l.store (pa % 64) n v poison with | some l => Tbl.put w.l1 line l | none => Tbl.erase w.l1 line }
      | none => w
    | none => s
  ((s.evalWatches line).evalWaitv line).wakeBarrier line

/-- R201: a stamped write carrying a stamp is applied with waiting loads evaluated (R205), or dropped; the flag says which. -/
def State.applyStamped (s : State) (p pa n v : Nat) (carried : W32) (poison : Bool) : State × Bool :=
  let line := pa / 64
  if (Tbl.getD s.mem.stamps line 0).ule carried then
    let s := { s with mem := { s.mem with stamps := Tbl.put s.mem.stamps line carried } }
    ((s.applyWrite p 0 pa n v none poison false).evalWaiters line, true)
  else (s, false)

/-- R200: a write to a stamped line that is applied whatever its stamp, which the line takes. -/
def State.stampWrite (s : State) (p pa n v : Nat) (carried : W32) (poison : Bool) : State :=
  let line := pa / 64
  let s := { s with mem := { s.mem with stamps := Tbl.put s.mem.stamps line carried } }
  (s.applyWrite p 0 pa n v none poison false).evalWaiters line

/-! ## Commutative partials (R194, R348) -/

/-- The format code of a commutative range's FMT (R183). -/
def rangeFmt (f : Nat) : Nat := if f = 0 then 0 else if f = 1 then 2 else 9
/-- Bytes of an element of a range's FMT. -/
def rangeBytes (f : Nat) : Nat := if f = 1 then 2 else 4

/-- R194: one element of a line combined with the partial values of it (FP32 patterns, or INT32), exactly and with one
rounding. -/
def gatherEl (fmt op home : Nat) (vs : List W32) : Nat :=
  if fmt = 2 then
    let xs := sgn 32 home :: vs.map fun v => sgn 32 v.toNat
    let f := fun (a b : Int) => if op = 0 then a + b else if op = 1 then max a b else min a b
    wrap 32 (xs.tail.foldl f (xs.headD 0))
  else
    let xs := (Num.decode (rangeFmt fmt) home).1 :: vs.map fun v => Num.fp32 v.toNat
    let r := if op = 0 then (Num.sum 0 xs).1 else xs.tail.foldl (if op = 1 then Num.maxV else Num.minV) (xs.headD .nan)
    (Num.encodeFloat (Num.floatFmt (rangeFmt fmt)) 0 false r).1

/-- R194: the home takes the partials of a line that the tiles picked hold, in ascending tile number, as one applied write of the line: the
stamp of a stamped line rises to the largest partial stamp (R209); the partials are cleared. -/
def State.gatherFrom (s : State) (p tenant line : Nat) (pick : Nat → Bool) : State :=
  let ps := s.tiles.filterMap fun (t, v) => if pick t then Tbl.find? v.parts line else none
  match ps with
  | [] => s
  | q :: _ =>
    let n := rangeBytes q.fmt
    let poison := ps.any (·.poison) || s.readBad p tenant false line
    let s := { s with tiles := Tbl.mapV (fun t v => if pick t then { v with parts := Tbl.erase v.parts line } else v) s.tiles }
    let old := s.readN p tenant false (64 * line) 64
    let els := (List.range (64 / n)).map fun i =>
      let home := old / 2 ^ (8 * n * i) % 2 ^ (8 * n)
      let vs := ps.filterMap fun q => (q.els.find? fun e => decide (e.1 = n * i)).map (·.2)
      if vs.isEmpty then home else gatherEl q.fmt q.op home vs
    let new := els.foldr (fun x acc => x % 2 ^ (8 * n) + 2 ^ (8 * n) * acc) 0
    let s := s.applyWrite p tenant (64 * line) 64 new none poison false
    if ps.any (·.stamped) then
      let top := ps.foldl (fun (m : W32) q => if m.ult q.stamp then q.stamp else m) (Tbl.getD s.mem.stamps line 0)
      State.evalWaiters { s with mem := { s.mem with stamps := Tbl.put s.mem.stamps line top } } line
    else s

/-- R194: the home gathers every partial of a line. -/
def State.gather (s : State) (p tenant line : Nat) : State := s.gatherFrom p tenant line fun _ => true

/-- R171, R194: a read of a line by a tenant of partition p reaches the home: partials are gathered, and the line is allocated in its cache part unless the
access goes past it. -/
def State.serve (s : State) (p tenant line : Nat) (shu : Bool) : State :=
  let s := s.gather p tenant line
  if isCxl (64 * line) && !shu then s.allocate p tenant line else s

/-- An 8-byte entry of a table with its poison, read at its home. -/
def State.tableEntry (s : State) (pa : Nat) : Nat × Bool := (s.peekN pa 8, s.poisoned (pa / 64))
/-- R171, R175, R176: the tables that a walk of a PVA under a held ASID entry reads are read at their homes: partials of their lines are gathered, and the
lines allocated for the address space's tenant. -/
def State.walked (s : State) (h : AsidHeld) (pva : Nat) : State :=
  let rd := fun (s : State) (pa : Nat) => let s := s.serve h.part h.tenant (pa / 64) false; (s, (s.tableEntry pa).1)
  match h.region pva with
  | some g => (rd s (bits g.2.toNat 51 14 * 16384 + 8 * bits pva 20 10)).1
  | none =>
    let (s, v) := rd s (bits h.root.toNat 51 14 * 16384 + 8 * bits pva 51 41)
    if !bit v 0 then s
    else
      let (s, v) := rd s (bits v 51 14 * 16384 + 8 * bits pva 40 31)
      if !bit v 0 then s else (rd s (bits v 51 14 * 16384 + 8 * bits pva 30 21)).1
/-- The entry of the ASID by which an engine's access was translated, if it was, is held, and its tables have been read. -/
def State.engHold (s : State) (e : Option Xlat) : State :=
  match e with
  | some e => (s.engUse e.asid).walked (s.engAsid e.asid) (e.page * e.size)
  | none => s

/-- A write by an engine, the host or the command processor to bytes of one line, after its partials are gathered (R194): stamped lines by R200
and R201; the flag tells whether it is applied. -/
def State.engineStore (s : State) (p : Nat) (e : Option Xlat) (pa n v : Nat) (stamp : W32) (poison : Bool) : State × Bool :=
  match e with
  | some x =>
    let s := (s.engHold e).gather p x.tenant (pa / 64)
    if x.stamp then s.applyStamped p pa n v stamp poison else (s.applyWrite p x.tenant pa n v none poison x.shu, true)
  | none => (s.applyWrite p 0 pa n v none poison false, true)
/-- The same, whose drop has no report (R201). -/
def State.engineWrite (s : State) (p : Nat) (e : Option Xlat) (pa n v : Nat) (stamp : W32) (poison : Bool) : State := (s.engineStore p e pa n v stamp poison).1

/-- R183: the lowest-numbered enabled range of partition p that holds a PVA: its FMT and OP. -/
def State.rangeOf (s : State) (p pva : Nat) : Option (Nat × Nat) :=
  if !s.feature 1 then none
  else (List.range 16).findSome? fun i =>
    let w0 := (s.pfr (0x20000 + 256 * p + 16 * i)).toNat
    let w1 := (s.pfr (0x20008 + 256 * p + 16 * i)).toNat
    if bit w0 0 && bits w0 5 4 ≠ 3 && bits w0 3 2 ≠ 3 && decide (bits w0 51 6 ≤ pva / 64) && decide (pva / 64 ≤ bits w1 51 6)
    then some (bits w0 5 4, bits w0 3 2) else none

/-- R348: the partial with one more value: v is an FP32 pattern, or INT32. -/
def Partial.add (q : Partial) (o : Nat) (v : W32) : Partial :=
  let op := fun (a : W32) =>
    if q.fmt = 2 then BitVec.ofNat 32 (Num.combine 9 q.op a.toNat v.toNat).1
    else BitVec.ofNat 32 (Num.combine 0 q.op a.toNat v.toNat).1
  match q.els.find? (fun e => decide (e.1 = o)) with
  | some _ => { q with els := q.els.map fun e => if e.1 = o then (o, op e.2) else e }
  | none => { q with els := q.els ++ [(o, v)] }

/-- n bytes read at the home at once for context c through a translation, as a load in every respect (R299, R324): its own stores and the store buffer
first where it may see them there, then the home; and whether the line is poisoned. -/
def State.readNow (s : State) (t c pa n : Nat) (e : Option Xlat) : State × Nat × Bool :=
  let p := s.partOf t
  let (tenant, shu, past) := match e with | some e => (e.tenant, e.shu, e.stamp || !cacheable e.shu pa) | none => (0, false, true)
  let s := s.serve p tenant (pa / 64) shu
  let v := s.readN p tenant shu pa n
  let bad := s.readBad p tenant shu (pa / 64)
  if past then (s, v, bad) else
    let o := s.overlay t c s.nextId pa v n
    (s, o.1, !o.2 && bad)

/-! ## Rejections and withdrawals -/

/-- A deferred trap becomes known (R256): it wakes its context, whatever it waits for; a cached context takes it at once. The trap of a stopped context
stands, and the deferred one is taken when it reaches issue again (R268). -/
def State.defer (s : State) (t c gen : Nat) (d : Deferred) : State :=
  if !s.alive t c gen then s
  else if (s.ctx t c).state = .cached then
    s.takeTrap t c { cause := d.cause, pc := d.pc, insn := d.insn, addr := d.addr, detail := 3 }
  else if (s.ctx t c).deferred.isSome then s
  else s.updCtx t c fun x => if x.state = .stopped then { x with deferred := some d } else { (x.wake s.cyc) with deferred := some d, busy := false }

/-- R58, R170: whether the home rejects an access of tile t to n bytes: the directory of another partition, or an address in no range. -/
def State.rejectsAt (s : State) (t pa n : Nat) (shu : Bool) : Bool :=
  !isHost pa && !s.owns (s.partOf t) pa n && !(shu && (s.mrtOf pa).isSome)
/-- What a stamped load that waits has counted of SLIM (R112, R206): the count pauses while its group migrates. -/
def State.slimCount (s : State) (r : Req) : Nat := if s.migrating r.tile then r.spent else r.spent + (s.cyc - r.since)
/-- R119, R210: a stamped load that waits at its home, or that its home refused, is withdrawn: its destinations are as they were, and its instruction keeps
what its timer has counted (R117: SLIM's count, or what is left of the 256 cycles of PARK 8). -/
def State.withdraw (s : State) (r : Req) : State :=
  let s1 := ((s.dropReq r.id).unPend r.tile r.ctx r.dst (bit r.data 0)).unPend r.tile r.ctx (r.dst + 1) (bit r.cmp 0)
  s1.updCtx r.tile r.ctx fun x => { x with busy := x.busy && decide (x.latch.map (·.pc) ≠ some r.pc), latch := x.latch.map fun l =>
    if l.pc = r.pc then { l with timer := if r.stage = .refused then 256 - (s.cyc - r.since) else s.slimCount r } else l }

/-- Whether the home rejects a request. -/
def State.rejects (s : State) (r : Req) : Bool := s.rejectsAt r.tile r.pa r.n r.shu

end Sys2Proof.Machine
end

