-- ==== Sys2Proof/Machine/LoadStore.lean ====
section
/-!
DEFINITION. The base loads and stores (R295, R299 to R302).
-/
namespace Sys2Proof.Machine

/-- R352: an access that would be the seventeenth held at the port holds its context not ready. -/
def State.portFull (s : State) (t c : Nat) (isLoad : Bool) : Bool := s.portHolds t c isLoad && decide (16 ≤ s.heldCount t c)
/-- R301, R352: whether a store finds the port full, or, where nothing holds it there, the store buffer. -/
def State.storeFull (s : State) (t c : Nat) : Bool := s.portFull t c false || (!s.portHolds t c false && decide (32 ≤ s.sbCount t))

/-- R295, R346: the address checks of an access of n bytes at va aligned to n; then k with the physical address and translation. -/
def withAddr (s : State) (t c va n : Nat) (r w wr : Bool) (k : State → Nat → Option Xlat → Iss) : Iss :=
  if va % n ≠ 0 then .trap s causeMisalign (BitVec.ofNat 64 va) 0
  else match s.access t c va n r w false wr with
    | .stop i => i
    | .at_ s pa e => k s pa e

/-- The request of an access by context c of tile t, with what it captures at issue (R200, R350). -/
def State.reqOf (s : State) (t c : Nat) (kind : ReqKind) (va pa n : Nat) (e : Option Xlat) : Req :=
  let x := s.ctx t c
  { id := 0, tile := t, ctx := c, gen := x.gen, kind, va, pa, n, iter := x.iter, rnd := x.rnd, pc := x.pc
    insn := (match s.cur with | some u => u.insn | none => 0)
    pva := (match e with | some e => e.pva pa | none => 0)
    stamped := (match e with | some e => e.stamp | none => false)
    shu := (match e with | some e => e.shu | none => false)
    tenant := (match e with | some e => e.tenant | none => 0)
    spadGrp := (match e with | some _ => none | none => (s.tile (spadTile pa)).grp.map (·.idx)) }

/-- A load of n bytes, sign-extended where sx (R299): checks in the order of R295, then the destination is pending and the access
goes on its way. A load of a stamped line takes any copy and never waits at the home (R208). -/
def loadOp (s : State) (d a : Nat) (imm : BitVec 12) (n : Nat) (sx : Bool) : Out :=
  issue 0 s fun s t c => withOps s t c [a] [d] fun vs s =>
    let va := (arg1 vs + imm12 imm).toNat
    withAddr s t c va n true false false fun s pa e =>
      if s.portFull t c true then .hold s
      else .done ((s.setPending t c d).addReq { s.reqOf t c .load va pa n e with sgn := sx, dst := d, lag := 511 })

/-- A store of the low n bytes of a register (R301): checks in the order of R295, then the store enters the store buffer or is
held at the port. A store that finds the store buffer full holds its context not ready. A stamped store carries ITER and drops
the tile's own L1 copy at issue (R200, R203). -/
def storeOp (s : State) (a b : Nat) (imm : BitVec 12) (n : Nat) : Out :=
  issue 0 s fun s t c => withOps s t c [a, b] [] fun vs s =>
    let va := (arg1 vs + imm12 imm).toNat
    withAddr s t c va n false true true fun s pa e =>
      if s.storeFull t c then .hold s
      else
        let r := { s.reqOf t c .store va pa n e with data := (arg2 vs).toNat % 2 ^ (8 * n) }
        .done ((if r.stamped then s.updTile t fun v => { v with l1 := Tbl.erase v.l1 (pa / 64) } else s).addReq r)

/-- LB (R299). -/
def execLb (d a : Nat) (imm : BitVec 12) (s : State) : Out := loadOp s d a imm 1 true
/-- LH (R299). -/
def execLh (d a : Nat) (imm : BitVec 12) (s : State) : Out := loadOp s d a imm 2 true
/-- LW (R299). -/
def execLw (d a : Nat) (imm : BitVec 12) (s : State) : Out := loadOp s d a imm 4 true
/-- LD (R299). -/
def execLd (d a : Nat) (imm : BitVec 12) (s : State) : Out := loadOp s d a imm 8 false
/-- LBU (R299). -/
def execLbu (d a : Nat) (imm : BitVec 12) (s : State) : Out := loadOp s d a imm 1 false
/-- LHU (R299). -/
def execLhu (d a : Nat) (imm : BitVec 12) (s : State) : Out := loadOp s d a imm 2 false
/-- LWU (R299). -/
def execLwu (d a : Nat) (imm : BitVec 12) (s : State) : Out := loadOp s d a imm 4 false
/-- SB (R301). -/
def execSb (a b : Nat) (imm : BitVec 12) (s : State) : Out := storeOp s a b imm 1
/-- SH (R301). -/
def execSh (a b : Nat) (imm : BitVec 12) (s : State) : Out := storeOp s a b imm 2
/-- SW (R301). -/
def execSw (a b : Nat) (imm : BitVec 12) (s : State) : Out := storeOp s a b imm 4
/-- SD (R301). -/
def execSd (a b : Nat) (imm : BitVec 12) (s : State) : Out := storeOp s a b imm 8

end Sys2Proof.Machine
end

