-- ==== Sys2Proof/Machine/Walk.lean ====
section
/-!
DEFINITION. The tables of an address space as the pager reads them (R174 to R177), and translation for parties that do not wait
at a cluster port.
-/
namespace Sys2Proof.Machine

/-- What a walk finds (R177, R179): a page, a storage-backed entry (block address, namespace, SHU and rights), or nothing present,
with the record's detail (0 none, 1 MALFORMED, 2 POISON). -/
inductive Walk
  | page (e : Xlat)
  | storage (lba ns : Nat) (shu r w x : Bool)
  | absent (detail : Nat)
  deriving DecidableEq, Repr

/-- R177: whether a frame may be mapped for partition p: its own resources, or shared-uncached CXL or host memory. -/
def State.frameOk (s : State) (p frame size : Nat) (shu : Bool) : Bool :=
  s.owns p frame size || (shu && ((s.mrtOf frame).isSome || (isHost frame && decide (frame + size ≤ Config.paTop))))

/-- A level-3 entry, or a sub-page entry where sub is set (R175 to R177). -/
def State.leaf (s : State) (p asid tenant pva v : Nat) (sub : Bool) : Walk :=
  let size := if sub then 1024 else 0x200000
  let frame := if sub then bits v 51 10 * 1024 else bits v 51 21 * 0x200000
  let stamp := bit v 5
  let shu := bit v 6
  let store := bit v 4
  if bit v 0 then
    let rsvd := bits v 63 52 ≠ 0 || (if sub then bits v 9 8 ≠ 0 else bits v 20 8 ≠ 0)
    let bad := rsvd || !s.frameOk p frame size shu || (stamp && !isVault frame) || (stamp && (store || shu))
      || (stamp && !s.feature 0) || (store && !s.feature 2) || (sub && store)
    if bad then .absent 1
    else .page { asid, sub, page := pva / size, frame, r := bit v 1, w := bit v 2, x := bit v 3, mig := bit v 7, shu, stamp, store, tenant }
  else if store then
    if sub || bit v 5 || bit v 7 || !s.feature 2 then .absent 1
    else .storage (bits v 63 16) (bits v 15 8) shu (bit v 1) (bit v 2) (bit v 3)
  else .absent 0

/-- R174 to R177: the walk of a PVA under a held ASID entry for partition p; en is PART_ASID.EN, or true for window B. -/
def State.walk (s : State) (h : AsidHeld) (p pva : Nat) (en : Bool) : Walk :=
  if !h.serves p en then .absent 1
  else
    match h.region pva with
    | some g =>
      let (v, bad) := s.tableEntry (bits g.2.toNat 51 14 * 16384 + 8 * bits pva 20 10)
      if bad then .absent 2 else s.leaf p h.asid h.tenant pva v true
    | none =>
      let (v1, b1) := s.tableEntry (bits h.root.toNat 51 14 * 16384 + 8 * bits pva 51 41)
      if b1 then .absent 2 else if !bit v1 0 then .absent 0
      else
        let (v2, b2) := s.tableEntry (bits v1 51 14 * 16384 + 8 * bits pva 40 31)
        if b2 then .absent 2 else if !bit v2 0 then .absent 0
        else
          let (v3, b3) := s.tableEntry (bits v2 51 14 * 16384 + 8 * bits pva 30 21)
          if b3 then .absent 2 else s.leaf p h.asid h.tenant pva v3 false

/-- The physical address of the level-3 entry of a PVA, for the storage engines that install it (R175). -/
def State.leafPa (s : State) (h : AsidHeld) (pva : Nat) : Nat :=
  let (v1, _) := s.tableEntry (bits h.root.toNat 51 14 * 16384 + 8 * bits pva 51 41)
  let (v2, _) := s.tableEntry (bits v1 51 14 * 16384 + 8 * bits pva 40 31)
  bits v2 51 14 * 16384 + 8 * bits pva 30 21

/-- How an engine's access through an address space ends: a translated address, a fault it fails with, or a page it waits for. -/
inductive EngAddr
  | ok (pa : Nat) (e : Option Xlat)
  | fail (cause : Nat)
  | waits (pva : Nat) (w : Walk)
  deriving DecidableEq, Repr

/-- An engine's translation of a PVA under the partition's ASID (R222, R253, R414). wr: a write, which waits on a MIG page. -/
def State.engXlate (s : State) (p pva : Nat) (r w wr : Bool) : EngAddr :=
  let (asid, en) := s.partAsid p
  match s.walk (s.engAsid asid) p pva en with
  | .page e =>
    if (r && !e.r) || (w && !e.w) then .fail causePageRights
    else if wr && e.mig then .waits pva (.page e)
    else .ok (e.pa pva) (some e)
  | x => .waits pva x

/-- An engine's access of n bytes at a virtual address through segments (R134), or at a PVA where segs is none. -/
def State.engAddr (s : State) (p t : Nat) (segs : Option (Fixed Seg 8)) (va n : Nat) (r w wr : Bool) : EngAddr :=
  match segs with
  | none => if va + n > 2 ^ 52 then .fail causeSegLimit else s.engXlate p va r w wr
  | some g => match s.segCheck t g va n r w false with
    | .error k => .fail k
    | .ok (.spad d off) => .ok (spadPa d off) none
    | .ok (.mem pva) => s.engXlate p pva r w wr

/-- n bytes of one line as an engine of partition p reads them at their home, and whether the line is poisoned; the engines then hold the ASID's entry. -/
def State.engRead (s : State) (p : Nat) (e : Option Xlat) (pa n : Nat) : State × Nat × Bool :=
  let (tenant, shu) := match e with | some e => (e.tenant, e.shu) | none => (0, false)
  let s := (s.engHold e).serve p tenant (pa / 64) shu
  (s, s.readN p tenant shu pa n, s.readBad p tenant shu (pa / 64))

/-- What an engine's access of some bytes gives: the bytes read with their poison, a failure, or a page to wait for. -/
inductive SegGot | ok (s : State) (v : Nat) (poison : Bool) | fail | waits (pva : Nat) (w : Walk)

/-- n bytes read from va on by an engine, line by line at their homes; k bounds the lines. -/
def State.segRead (s : State) (p t : Nat) (segs : Option (Fixed Seg 8)) : Nat → Nat → Nat → SegGot
  | 0, _, _ => .ok s 0 false
  | k + 1, va, n =>
    if n = 0 then .ok s 0 false
    else match s.engAddr p t segs va 1 true false false with
      | .fail _ => .fail
      | .waits pva w => .waits pva w
      | .ok pa e =>
        let m := min n (64 - pa % 64)
        match s.engAddr p t segs va m true false false with
        | .fail _ => .fail
        | .waits pva w => .waits pva w
        | .ok _ _ =>
          let (s, x, bad) := s.engRead p e pa m
          match s.segRead p t segs k (va + m) (n - m) with
          | .ok s' v q => .ok s' (x + 2 ^ (8 * m) * v) (q || bad)
          | x => x

/-- n bytes of v written from va on by an engine as package-scope stores, line by line; k bounds the lines. -/
def State.segWrite (s : State) (p t : Nat) (segs : Option (Fixed Seg 8)) (stamp : W32) (poison : Bool) : Nat → Nat → Nat → Nat → SegGot
  | 0, _, _, _ => .ok s 0 false
  | k + 1, va, n, v =>
    if n = 0 then .ok s 0 false
    else match s.engAddr p t segs va 1 false true true with
      | .fail _ => .fail
      | .waits pva w => .waits pva w
      | .ok pa e =>
        let m := min n (64 - pa % 64)
        match s.engAddr p t segs va m false true true with
        | .fail _ => .fail
        | .waits pva w => .waits pva w
        | .ok _ _ =>
          (s.engineWrite p e pa m v stamp poison).segWrite p t segs stamp poison k (va + m) (n - m) (v / 2 ^ (8 * m))

end Sys2Proof.Machine
end

