-- ==== Sys2Proof/Machine/MemorySync.lean ====
section
/-!
DEFINITION. The memory and synchronisation instructions of R346 to R357, except those on barrier objects and semaphores.
-/
namespace Sys2Proof.Machine

/-! ## LDA.W and LDA.N (R204, R207, R347) -/

/-- LDA.W (wait) and LDA.N: the pair xd, xd+1 becomes pending; LDA.W holds its context until it is answered or parks. Through a
translation without STAMP the age is 0. -/
def ldaOp (S : Nat) (s : State) (d a lag : Nat) (wait : Bool) : Out :=
  issue S s fun s t c =>
    if !s.feature 0 || decide (d % 2 = 1) || (decide (d = 30) && (s.ctx t c).mapped) then .fail s causeIllegal
    else withOps s t c [a] [d, d + 1] fun vs s =>
      let va := (arg1 vs).toNat
      withAddr s t c va 8 true false false fun s pa e =>
        if s.portFull t c true then .hold s
        else
          let r := { s.reqOf t c (if wait then .ldaW else .ldaN) va pa 8 e with
            dst := d, data := b2n (s.wasOpen t c d), cmp := b2n (s.wasOpen t c (d + 1)) }
          let r := { r with lag := if r.stamped then lag else 511, spent := if wait then s.timerOf t c else 0 }
          let s := ((s.setPending t c d).setPending t c (d + 1)).addReq r
          if wait then .busy s else .done s

/-- LDA_W (R347). -/
def execLdaW (S d a l : Nat) (s : State) : Out := ldaOp S s d a l true
/-- LDA_N (R347). -/
def execLdaN (S d a : Nat) (s : State) : Out := ldaOp S s d a 511 false

/-! ## STC (R348, R349) -/

/-- The elements of the 8 bytes of an STC: byte offset in the line and value as the partial holds it. -/
def stcEls (fmt pa v : Nat) : List (Nat × W32) :=
  let n := rangeBytes fmt
  (List.range (8 / n)).map fun e =>
    let x := v / 2 ^ (8 * n * e) % 2 ^ (8 * n)
    (pa % 64 + n * e, BitVec.ofNat 32 (if fmt = 2 then x else (Num.toFp32 0 (Num.decode (rangeFmt fmt) x).1).1))

/-- R348: an STC combines 8 bytes of v, at the physical address and PVA that its request gives, into the tile's partial of the line by the range's format and
operator; any L1 copy is replaced. -/
def State.combineStc (s : State) (r : Req) (fmt op : Nat) : State :=
  s.updTile r.tile fun w =>
    let q0 := Tbl.getD w.parts (r.pa / 64) { fmt, op, pva := r.pva }
    let q := (stcEls fmt r.pa r.data).foldl (fun q x => q.add x.1 x.2) q0
    let q := { q with ctx := r.ctx, stamped := q.stamped || r.stamped, stamp := if r.stamped && q.stamp.ult r.iter then r.iter else q.stamp }
    { w with parts := Tbl.put w.parts (r.pa / 64) q, l1 := Tbl.erase w.l1 (r.pa / 64) }

/-- STC (R348): into the tile's partial for a line of an enabled range, else an ordinary 8-byte store. It waits, its context
not ready, for the tile's buffered stores to the line; one that a hold of the port keeps waits there (R352). -/
def execStc (S a b : Nat) (s : State) : Out :=
  issue S s fun s t c =>
    if !s.feature 1 then .fail s causeIllegal
    else withOps s t c [a, b] [] fun vs s =>
      let va := (arg1 vs).toNat
      withAddr s t c va 8 true true true fun s pa e =>
        let r := { s.reqOf t c .store va pa 8 e with data := (arg2 vs).toNat }
        let rng := match e with
          | some x => if x.shu then none else s.rangeOf (s.partOf t) r.pva
          | none => none
        if s.sbHas t (pa / 64) then .hold s
        else if rng.isSome && s.rejectsAt t pa 8 false then .trap s causePageRights (arg1 vs) 0
        else match rng with
          | some (fmt, op) =>
            if s.portFull t c false then .hold s
            else if s.portHolds t c false then .done (s.addHeld { r with kind := .stc, op := 4 * fmt + op })
            else .done (s.combineStc r fmt op)
          | none =>
            if s.storeFull t c then .hold s
            else .done ((if r.stamped then s.updTile t fun v => { v with l1 := Tbl.erase v.l1 (pa / 64) } else s).addReq r)

/-! ## Atomics and ELECT (R350, R351, R356) -/

/-- An atomic: op is f4 of R350, n the size; srcs and the compare value for AMOCAS. A host or peer line takes only the
AtomicOps of R351. -/
def amoOp (S : Nat) (s : State) (d a b op n : Nat) : Out :=
  issue S s fun s t c => withOps s t c (if op = 4 then [a, b, d] else [a, b]) [d] fun vs s =>
    let va := (arg1 vs).toNat
    withAddr s t c va n true true true fun s pa e =>
      if isHost pa && !(op = 0 || op = 3 || op = 4) then .trap s causePageRights (arg1 vs) 0
      else if s.portFull t c false then .hold s
      else
        let r := { s.reqOf t c .amo va pa n e with
          dst := d, op, data := (arg2 vs).toNat % 2 ^ (8 * n), cmp := (arg3 vs).toNat % 2 ^ (8 * n)
          sgn := decide (n = 4) && decide (op < 8) }
        .done ((s.setPending t c d).addReq r)

/-- AMOADD_D (R350). -/
def execAmoaddD (S d a b : Nat) (s : State) : Out := amoOp S s d a b 0 8
/-- AMOMAX_D (R350). -/
def execAmomaxD (S d a b : Nat) (s : State) : Out := amoOp S s d a b 1 8
/-- AMOMIN_D (R350). -/
def execAmominD (S d a b : Nat) (s : State) : Out := amoOp S s d a b 2 8
/-- AMOSWP_D (R350). -/
def execAmoswpD (S d a b : Nat) (s : State) : Out := amoOp S s d a b 3 8
/-- AMOCAS_D (R350). -/
def execAmocasD (S d a b : Nat) (s : State) : Out := amoOp S s d a b 4 8
/-- AMOAND_D (R350). -/
def execAmoandD (S d a b : Nat) (s : State) : Out := amoOp S s d a b 5 8
/-- AMOOR_D (R350). -/
def execAmoorD (S d a b : Nat) (s : State) : Out := amoOp S s d a b 6 8
/-- AMOXOR_D (R350). -/
def execAmoxorD (S d a b : Nat) (s : State) : Out := amoOp S s d a b 7 8
/-- AMOADD_W (R350). -/
def execAmoaddW (S d a b : Nat) (s : State) : Out := amoOp S s d a b 0 4
/-- AMOMAX_W (R350). -/
def execAmomaxW (S d a b : Nat) (s : State) : Out := amoOp S s d a b 1 4
/-- AMOMIN_W (R350). -/
def execAmominW (S d a b : Nat) (s : State) : Out := amoOp S s d a b 2 4
/-- AMOSWP_W (R350). -/
def execAmoswpW (S d a b : Nat) (s : State) : Out := amoOp S s d a b 3 4
/-- AMOCAS_W (R350). -/
def execAmocasW (S d a b : Nat) (s : State) : Out := amoOp S s d a b 4 4
/-- AMOAND_W (R350). -/
def execAmoandW (S d a b : Nat) (s : State) : Out := amoOp S s d a b 5 4
/-- AMOOR_W (R350). -/
def execAmoorW (S d a b : Nat) (s : State) : Out := amoOp S s d a b 6 4
/-- AMOXOR_W (R350). -/
def execAmoxorW (S d a b : Nat) (s : State) : Out := amoOp S s d a b 7 4
/-- AMOFADD (R350). -/
def execAmofadd (S d a b : Nat) (s : State) : Out := amoOp S s d a b 8 4
/-- AMOFMAX (R350). -/
def execAmofmax (S d a b : Nat) (s : State) : Out := amoOp S s d a b 9 4

/-- ELECT (R356). -/
def execElect (S d a : Nat) (s : State) : Out :=
  issue S s fun s t c => withOps s t c [a] [d] fun vs s =>
    let va := (arg1 vs).toNat
    withAddr s t c va 8 true true true fun s pa e =>
      if isHost pa then .trap s causePageRights (arg1 vs) 0
      else if s.portFull t c false then .hold s
      else .done ((s.setPending t c d).addReq { s.reqOf t c .elect va pa 8 e with dst := d })

/-! ## FENCE.S, REL, ACQ (R191 to R193, R352) -/

/-- R191, R192: the current release round closes and the next opens; the query runs until every earlier access is performed. One that is issued while
an earlier one has not finished queues behind it at the port. -/
def State.closeRound (s : State) (t c : Nat) (loads sys : Bool) : State :=
  let r := (s.ctx t c).relRnd
  (s.updCtx t c fun x => { x with closed := x.closed.set r true, relRnd := (r + 1) % 4 }).addFence t c .query loads r sys

/-- FENCE_S (R192, R352). -/
def execFenceS (S scope : Nat) (s : State) : Out :=
  issue S s fun s t c => .done (
    if scope = 0 then s else if scope = 1 then s.addFence t c .tile true 0 else s.closeRound t c true (decide (scope = 5)))
/-- REL (R191, R352). -/
def execRel (S : Nat) (s : State) : Out := issue S s fun s t c => .done (s.closeRound t c false false)
/-- ACQ (R193, R352): the wait is the same at every scope. -/
def execAcq (S _scope : Nat) (s : State) : Out := issue S s fun s t c => .done (s.acquire t c)

/-! ## WBR and INVR (R182, R353) -/

/-- The lines of a range of partition virtual addresses, by the address of each line's first byte. -/
def lineRange (pva n : Nat) : List Nat := (List.range ((pva + n - 1) / 64 + 1 - pva / 64)).map fun i => 64 * (pva / 64 + i)

/-- The page of a line for WBR or INVR: the tile's translation, else a walk that parks nobody; none where not present. -/
def State.rangePage (s : State) (t pva : Nat) : Option Xlat :=
  let (asid, en) := s.partAsid (s.partOf t)
  let h := s.asidOf t asid
  match (if h.serves (s.partOf t) en then s.tlbFind t asid pva (h.region pva).isSome else none) with
  | some e => some e
  | none => match s.walk h (s.partOf t) pva en with
    | .page e => some e
    | _ => none

/-- R182: WBR (keep) or INVR of one line: L1 copies go; a line of a cache part is written back and stays clean, or is dropped with its poison. -/
def State.handleLine (s : State) (p : Nat) (e : Xlat) (pva : Nat) (keep : Bool) : State :=
  let pa := e.pa pva
  let line := pa / 64
  if e.shu || isHost pa || isSpad pa then s
  else
    let s := (s.gather p e.tenant line).dropL1 line
    match s.cached line with
    | some c =>
      let s := if keep then s.memWr line c else s
      { s with mem := { s.mem with cxl := if keep then Tbl.put s.mem.cxl line { c with dirty := false } else Tbl.erase s.mem.cxl line } }
    | none => s

/-- The lines of a range that lie in present pages, each with its PVA and translation; a page that is not present is skipped (R182, R353). -/
def State.rangeLines (s : State) (t pva n : Nat) : List (Nat × Xlat) :=
  (lineRange pva n).filterMap fun l => (s.rangePage t l).map fun e => (l, e)
/-- R182: every line of a range handled. -/
def State.handleRange (s : State) (t pva n : Nat) (keep : Bool) : State :=
  (s.rangeLines t pva n).foldl (fun s q => s.handleLine (s.partOf t) q.2 q.1 keep) (s.useAsid t)

/-- WBR and INVR (R353): the checks over the whole range, then every line of a present page. The context goes on; what must precede it is waited for, and
later accesses are held at the port until its lines are handled. -/
def rangeOp (S : Nat) (s : State) (a b : Nat) (keep : Bool) : Out :=
  issue S s fun s t c => withOps s t c [a, b] [] fun vs s =>
    let va := (arg1 vs).toNat
    let n := (arg2 vs).toNat
    if n = 0 then .done s
    else match s.segCheck t (s.ctx t c).seg va n keep (!keep) false with
      | .error k => .trap s k (arg1 vs) 0
      | .ok (.spad _ _) => .done s
      | .ok (.mem pva) =>
        let ls := s.rangeLines t pva n
        match ls.find? (fun q => if keep then !q.2.r else !q.2.w) with
        | some (l, _) => .trap s causePageRights (BitVec.ofNat 64 (va + (l - pva))) 0
        | none => match (if keep then none else ls.find? fun q => q.2.mig) with
          | some (l, _) => .park (s.pageFault t c l (va + (l - pva)) false true false true) 9 0 0
          | none =>
            if s.portFull t c false then .hold s
            else if s.portHolds t c false || s.storesOut t c s.nextId then
              .done ((s.addReq { s.reqOf t c (if keep then .wbr else .invr) va 0 n none with pva, spadGrp := none }).addFence t c .range true 0)
            else .done (s.handleRange t pva n keep)

/-- WBR (R353). -/
def execWbr (S a b : Nat) (s : State) : Out := rangeOp S s a b true
/-- INVR (R353). -/
def execInvr (S a b : Nat) (s : State) : Out := rangeOp S s a b false

/-! ## FEMPTY and FEST (R354, R355) -/

/-- FEMPTY (R354). -/
def execFempty (S d : Nat) (s : State) : Out :=
  issue S s fun s t c =>
    let x := s.ctx t c
    if d = 0 || (x.mapped && decide (30 ≤ d)) then .fail s causeIllegal
    else if (x.reg d).st = .pending then parkOn s t c d
    else .done (s.updCtx t c fun x =>
      x.setReg d { x.reg d with st := .open, poison := false, late := [], dirty := true })

/-- What FEST reports of register n (R355). -/
def festOf (x : Ctx) (n : Nat) : Nat :=
  if n = 0 then 0
  else if x.mapped && n = 31 then
    match x.rxq with
    | [] => 2
    | f :: _ => 4 * b2n f.poison + 16 * x.rxq.length
  else if x.mapped && n = 30 then b2n (x.txPend.isSome || (x.reg 30).st = .pending)
  else match (x.reg n).st with
    | .full => 4 * b2n (x.reg n).poison
    | .pending => 1
    | .open => 2

/-- FEST (R355). -/
def execFest (S d n : Nat) (s : State) : Out :=
  issue S s fun s t c => withOps s t c [] [d] fun _ s => .done (s.setX t c d (BitVec.ofNat 64 (festOf (s.ctx t c) n)) 2)

/-! ## WAITW and WAITC (R357) -/

/-- WAITW and WAITC (R357): the word is read at its home, never from L1 or the store buffer. The context goes on issuing until its wait is entered there
(R346); later accesses are held from now on as by an ACQ, until the answer (R193, log 69). -/
def waitOp (S : Nat) (s : State) (d a b cond : Nat) (kind : ReqKind) : Out :=
  issue S s fun s t c => withOps s t c [a, b] [d] fun vs s =>
    let va := (arg1 vs).toNat
    withAddr s t c va 8 true false false fun s pa e =>
      if s.portFull t c true then .hold s
      else .jump (((s.setPending t c d).addReq
        { s.reqOf t c kind va pa 8 e with dst := d, op := cond, cmp := (arg2 vs).toNat, stamped := false }).acquire t c) (s.ctx t c).onward

/-- WAITW (R357). -/
def execWaitw (S d a b cond : Nat) (s : State) : Out := waitOp S s d a b cond .waitw
/-- WAITC (R357). -/
def execWaitc (S d a b cond : Nat) (s : State) : Out := waitOp S s d a b cond .waitc

end Sys2Proof.Machine
end

