-- ==== Sys2Proof/Machine/Barrier.lean ====
section
/-!
DEFINITION. Barrier objects (R227, R228, R359) and semaphores (R360).
-/
namespace Sys2Proof.Machine

/-- A barrier object (R227); flags are bits 103..100: OVERRUN, E_FORMAT, E_POISON, E_FAULT from the top. -/
structure Barrier where
  gen : Nat := 0
  pending : Nat := 0
  reload : Nat := 0
  inb : Nat := 0
  outb : Nat := 0
  flags : Nat := 0
  rsvd : Nat := 0
  deriving DecidableEq, Repr

/-- A barrier object from its 16 bytes. -/
def Barrier.ofNat (v : Nat) : Barrier :=
  { gen := bits v 3 0, pending := bits v 19 4, reload := bits v 35 20, inb := bits v 67 36, outb := bits v 99 68
    flags := bits v 103 100, rsvd := bits v 127 104 }
/-- The 16 bytes of a barrier object. -/
def Barrier.toNat (b : Barrier) : Nat :=
  b.gen + 2 ^ 4 * b.pending + 2 ^ 20 * b.reload + 2 ^ 36 * b.inb + 2 ^ 68 * b.outb + 2 ^ 100 * b.flags + 2 ^ 104 * b.rsvd

/-- R228: the phase rule, part of every update. -/
def Barrier.phase (b : Barrier) : Barrier :=
  if b.pending = 0 ∧ b.inb = 0 ∧ b.outb = 0 then { b with gen := (b.gen + 1) % 16, pending := b.reload } else b

/-- R228: inbound and outbound bytes counted down; a count below zero clamps and sets OVERRUN. -/
def Barrier.countDown (b : Barrier) (inb outb : Nat) : Barrier :=
  { b with inb := b.inb - inb, outb := b.outb - outb
           flags := if b.inb < inb ∨ b.outb < outb then b.flags ||| 8 else b.flags }

/-- The barrier object at a scratchpad line. -/
def State.barrier (s : State) (line : Nat) : Barrier := .ofNat (s.peekN (64 * line) 16)

/-- R228: one atomic bank update of an object: the phase rule, the 16 bytes, the waiters. -/
def State.putBarrier (s : State) (line : Nat) (b : Barrier) : State :=
  s.applyWrite (s.partOf (spadTile (64 * line))) 0 (64 * line) 16 b.phase.toNat none false false

/-- The checks of R359: alignment, a LOCAL or REMOTE segment, its limit and rights, no poison; then k with the object's line. An object of a
group that is migrating is waited for (log 36). -/
def withBarrier (s : State) (t c : Nat) (a : Word) (w : Bool) (k : State → Nat → Iss) : Iss :=
  let va := a.toNat
  let segs := (s.ctx t c).seg
  if va % 64 ≠ 0 then .trap s causeMisalign a 0
  else if bits (segs.getD (va / 2 ^ 61) {}).w0.toNat 61 60 < 2 then .trap s causeSegRights a 0
  else match s.segCheck t segs va 16 true w false with
    | .error k => .trap s k a 0
    | .ok (.mem _) => .trap s causeSegRights a 0
    | .ok (.spad d off) =>
      let line := spadPa d off / 64
      if s.farAway t segs va then .hold s
      else if s.poisoned line then .trap s causeBarrier a 0 else k s line

/-- The request of an instruction on a barrier object. -/
def State.barReq (s : State) (t c : Nat) (kind : ReqKind) (a : Word) (line n : Nat) : Req :=
  { s.reqOf t c kind a.toNat (64 * line) 16 none with id := s.nextId, op := n }

/-- BARINIT (R359). It follows the context's earlier accesses to the bank (R136, R187), and waits for them, and for what holds it at the port, while its
context goes on (R352). -/
def execBarinit (S a b : Nat) (s : State) : Out :=
  issue S s fun s t c => withOps s t c [a, b] [] fun vs s =>
    let n := (arg2 vs).toNat
    if 0xFFFF < n then .fail s causeIllegal
    else withBarrier s t c (arg1 vs) true fun s line =>
      let r := s.barReq t c .barinit (arg1 vs) line n
      if s.portFull t c false then .hold s
      else if s.portHolds t c false || s.homeWaits r then .done (s.addReq r)
      else .done (s.putBarrier line { pending := n, reload := n })

/-- Whether every earlier access of a context is performed at tile scope, its bank work included (R193, R352, R360). -/
def State.tileDone (s : State) (t c : Nat) : Bool :=
  !s.loadsOut t c s.nextId && !s.storesHeld t c s.nextId && !s.unitBusy t c s.nextId

/-- R359: whether a BARRIVE has to wait: earlier accesses are performed first, at cluster scope through a REMOTE segment, and through a LOCAL one at tile
scope, those to the bank at the bank (R136). -/
def State.arriveWaits (s : State) (r : Req) : Bool :=
  let remote := bits ((s.ctx r.tile r.ctx).seg.getD (r.va / 2 ^ 61) {}).w0.toNat 61 60 = 3
  s.loadsOut r.tile r.ctx r.id || s.storesHeld r.tile r.ctx r.id || s.unitBusy r.tile r.ctx r.id
    || (if remote then s.storesOut r.tile r.ctx r.id else s.homeWaits r)

/-- BARRIVE (R359). Its context is not ready while earlier accesses are waited for, but for those that a hold of the port precedes: then it waits at the
port (R352). -/
def execBarrive (S a : Nat) (s : State) : Out :=
  issue S s fun s t c => withOps s t c [a] [] fun vs s =>
    withBarrier s t c (arg1 vs) true fun s line =>
      let r := s.barReq t c .barrive (arg1 vs) line 0
      if s.portFull t c false then .hold s
      else if s.portHolds t c false then .done (s.addHeld r)
      else if s.arriveWaits r then .hold s
      else
        let b := s.barrier line
        if b.pending = 0 then .trap s causeBarrier (arg1 vs) 0
        else .done (s.putBarrier line { b with pending := b.pending - 1 })

/-- BARWAIT (R359): completes with its acquire once the generation differs, else waits with PARK 5; so it does while it waits at the port, or for earlier
accesses to the bank. -/
def execBarwait (S a b : Nat) (s : State) : Out :=
  issue S s fun s t c => withOps s t c [a, b] [] fun vs s =>
    let g := (arg2 vs).toNat
    if 15 < g then .fail s causeIllegal
    else withBarrier s t c (arg1 vs) false fun s line =>
      let r := s.barReq t c .barwait (arg1 vs) line g
      if s.portFull t c true then .hold s
      else if s.portHolds t c true || s.homeWaits r then .park (s.addReq r) 5 0 0
      else if (s.barrier line).gen ≠ g then .done (s.acquire t c)
      else
        let w := (line, g, t, c)
        .park { s with barWait := s.barWait.filter (· ≠ w) ++ [w] } 5 0 0

/-! ## Acts that a hold kept at the port (R352) -/

/-- Whether a request is one of those that act on their own once the port lets them go. -/
def Req.acts (r : Req) : Bool := [ReqKind.stc, .barinit, .barrive, .barwait, .wbr, .invr].contains r.kind

/-- Whether such an act must still wait: an STC for the tile's earlier buffered stores to the line (R188), WBR and INVR for the context's earlier stores, and
INVR for a page that moves (R353), the others as they do at issue. -/
def State.actWaits (s : State) (r : Req) : Bool :=
  match r.kind with
  | .stc => s.sbOlder r.tile (r.pa / 64) r.entry
  | .wbr => s.storesOut r.tile r.ctx r.id
  | .invr => s.storesOut r.tile r.ctx r.id || (s.rangeLines r.tile r.pva r.n).any (·.2.mig)
  | .barrive => s.arriveWaits r
  | _ => s.homeWaits r

/-- The act (R348, R353, R359). A BARRIVE that finds no arrival pending traps as one that the port has accepted (R256). -/
def State.act (s : State) (r : Req) : State :=
  let line := r.pa / 64
  let (t, c) := (r.tile, r.ctx)
  let s := s.dropReq r.id
  match r.kind with
  | .stc => s.combineStc r (r.op / 4) (r.op % 4)
  | .wbr => s.handleRange t r.pva r.n true
  | .invr => s.handleRange t r.pva r.n false
  | .barinit => s.putBarrier line { pending := r.op, reload := r.op }
  | .barrive =>
    let b := s.barrier line
    if b.pending = 0 then s.defer t c r.gen { cause := causeBarrier, pc := r.pc, insn := r.insn, addr := BitVec.ofNat 64 r.va }
    else s.putBarrier line { b with pending := b.pending - 1 }
  | .barwait =>
    if (s.ctx t c).park ≠ 5 ∨ (match (s.ctx t c).latch with | some l => decide (l.pc = r.pc) | none => false) = false then s
    else if (s.barrier line).gen ≠ r.op then (s.completeLatched t c).acquire t c
    else { s with barWait := s.barWait.filter (· ≠ (line, r.op, t, c)) ++ [(line, r.op, t, c)] }
  | _ => s

/-! ## Semaphores (R360) -/

/-- SEMW (R360). -/
def execSemw (S n : Nat) (s : State) : Out :=
  issue S s fun s t c =>
    let v := s.tile t
    if decide (0 < v.sem.getD n 0) && !v.semWait.any (fun w => decide (w.1 = n)) then
      .done ((s.updTile t fun v => { v with sem := v.sem.set n (v.sem.getD n 0 - 1) }).acquire t c)
    else .park (s.updTile t fun v => { v with semWait := v.semWait.filter (fun w => w.2 ≠ c) ++ [(n, c)] }) 6 0 0

/-- SEMP (R360): earlier accesses are performed at tile scope, the context not ready meanwhile; then the longest waiter is granted
or the count rises. -/
def execSemp (S n : Nat) (s : State) : Out :=
  issue S s fun s t c =>
    let v := s.tile t
    if !s.tileDone t c then .hold s
    else if v.sem.getD n 0 = 0xFFFFFFFF then .fail s causeIllegal
    else match v.semWait.find? (fun w => decide (w.1 = n)) with
      | some w =>
        let s := s.updTile t fun v => { v with semWait := v.semWait.erase w }
        .done ((s.completeLatched t w.2).acquire t w.2)
      | none => .done (s.updTile t fun v => { v with sem := v.sem.set n (v.sem.getD n 0 + 1) })

end Sys2Proof.Machine
end

