-- ==== Sys2Proof/Machine/Flags.lean ====
section
/-!
DEFINITION. Flag computations and the turn of a context: ACSTAT (R162), FFL as a read sees it (R156, R311, R330), and the
rotation table (R108, R110).
-/
namespace Sys2Proof.Machine

/-- ACSTAT (R162): the flags of accumulator n at bits 4n+3..4n. -/
def Tile.acstat (v : Tile) : Nat := v.acc.els.foldr (fun a n => a.flags % 16 + 16 * n) 0

/-- The flags of an accumulator (R162): INV, OVF, SATD, NANS. -/
def accInv : Nat := 1
def accOvf : Nat := 2
def accSatd : Nat := 4
def accNans : Nat := 8

/-- Whether a result that may raise a flag of the context has not landed (R311, R330). -/
def State.fflWaits (s : State) (t c : Nat) : Bool :=
  let v := s.tile t
  (s.ctx t c).fflLate.any (fun p => decide (s.cyc < p.1)) || v.fdivq.any (fun o => decide (o.ctx = c)) || v.vq.any (fun o => decide (o.ctx = c))
    || (match v.vrun with | some r => decide (r.ctx = c) | none => false)
    || (match v.mrun with | some m => decide (m.ctx = c) && !m.drain.isEmpty | none => false)

/-- Entry e of a tile's rotation table (R108). -/
def Tile.turnSlot (v : Tile) (e : Nat) : Nat :=
  if e % 16 = 15 then 15 else if e < 16 then bits v.rotLo.toNat (4 * e + 3) (4 * e) else bits v.rotHi.toNat (4 * e - 61) (4 * e - 64)
/-- R110: whether cycle n is context c's own turn. -/
def Tile.ownTurn (v : Tile) (c n : Nat) : Bool := (v.ctx c).slot = some (v.turnSlot (n % 32))

end Sys2Proof.Machine
end

