-- ==== Sys2Proof/Machine/VectorOperands.lean ====
section
/-!
DEFINITION. Vector and matrix operands (R283, R327): their formats from bank registers, streams and records (R137, R149, R152,
R153), the vectors they read, and the vectors they write.
-/
namespace Sys2Proof.Machine

/-! ## Formats -/

/-- An operand's format: its code, its bank scale where SCALE_EN is set, and where its codebook or record lies. -/
structure OFmt where
  code : Nat
  scale : Option Nat := none
  tile : Nat := 0
  bank : Nat := 0
  cb : Nat := 0
  deriving DecidableEq, Repr

/-- The format a bank format register gives (R137). -/
def OFmt.ofBank (w : Word) (tile bank : Nat) : OFmt :=
  let v := w.toNat
  { code := bits v 4 0, scale := if bit v 5 then some (v / 2 ^ 32) else none, tile, bank, cb := bits v 15 8 }
/-- R137, R142: whether every use of a format traps FORMAT. -/
def OFmt.bad (f : OFmt) : Bool := decide (24 ≤ f.code) || (f.code = 23 && decide (240 < f.cb))
/-- R137: whether a write into a format traps FORMAT. -/
def OFmt.noWrite (f : OFmt) : Bool := decide (18 ≤ f.code)
/-- R159: whether an operand is of the integer domain. -/
def OFmt.int (f : OFmt) : Bool := Num.isInt f.code && f.scale.isNone
/-- Elements per vector (R142). -/
def OFmt.e (f : OFmt) : Nat := 512 / Num.width f.code

/-- The element format and bits per element of a block format (R149). -/
def blockElem (c : Nat) : Nat := [17, 11, 13, 4].getD (c - 18) 17
/-- Vectors of element data in a record (R149). -/
def blockData (c : Nat) : Nat := if Num.width c = 4 then 128 else 256
/-- Vectors of a record (R149). -/
def blockVecs (c : Nat) : Nat := blockData c + 5
/-- R149: whether vector v of a bank in a block format is an element vector of a whole record. -/
def blockOk (c v : Nat) : Bool := decide (v % blockVecs c < blockData c) && decide ((v / blockVecs c + 1) * blockVecs c ≤ 2048)

/-- A value times m × 2^e exactly. -/
def scaleVal (v : Val) (m : Nat) (e : Int) : Val :=
  match v with
  | .fin s x f => .fin s (x * m) (f + e)
  | _ => v

/-- R149: element j of a group with scale S and the code c of its block. -/
def blockVal (c bits_ sc code : Nat) : Val := scaleVal (Num.mul (Num.decode (blockElem c) bits_).1 (Num.fp32 sc)).1 (code + 1) (-8)

/-- Decode of the element bits at position k of vector v, as an exact value, with the invalid condition (R146, R149, R152, R153). -/
def State.decEl (s : State) (f : OFmt) (v k x : Nat) : Val × Bool :=
  let (a, bad) : Val × Bool :=
    if Num.isBlock f.code then
      let r := v / blockVecs f.code
      let j := v % blockVecs f.code * f.e + k
      let base := spadPa f.tile (f.bank * 0x20000 + 64 * (r * blockVecs f.code + blockData f.code))
      (blockVal f.code x (s.peekN (base + 256) 4) (s.peek (base + j / 64)).toNat, false)
    else if Num.isLut f.code then (Num.fp32 (s.peekN (spadPa f.tile (f.bank * 0x20000 + 64 * f.cb + 4 * x)) 4), false)
    else Num.decode f.code x
  match f.scale with
  | none => (a, bad)
  | some sc => let (b, inv) := Num.mul a (Num.fp32 sc); (b, bad || inv)

/-- R265: whether a vector that decodes vector v of a bank is poisoned: its block codes or group scale (R149), or a codebook vector that an element x of it
names (R152). -/
def State.codePoison (s : State) (f : OFmt) (v : Nat) (x : Vec) : Bool :=
  let at_ := fun (k : Nat) => s.poisoned (spadPa f.tile (f.bank * 0x20000 + 64 * k) / 64)
  if Num.isBlock f.code then
    let codes := v / blockVecs f.code * blockVecs f.code + blockData f.code
    at_ (codes + v % blockVecs f.code * f.e / 4096) || at_ (codes + 4)
  else if Num.isLut f.code then
    (List.range f.e).any fun k => at_ (f.cb + x.toNat / 2 ^ (Num.width f.code * k) % 2 ^ Num.width f.code / 16)
  else false

/-- R153, R158: a value of the float domain written in a format, with its flags. -/
def encEl (f : OFmt) (rnd : Nat) (v : Val) : Nat × Nat :=
  match f.scale with
  | none => Num.encode f.code rnd v
  | some sc => let (q, fl) := Num.div v (Num.fp32 sc); let (b, g) := Num.encode f.code rnd q; (b, fl ||| g)

/-- R159: the FP32 value of an operand in the float domain, rounded by MODE without a flag. -/
def toF32 (rnd : Nat) (v : Val) : Val := Num.fp32 (Num.toFp32 (Num.rmode rnd) v).1

/-- The elements of a vector, low first (R143). -/
def unpackVec (w : Nat) (v : Vec) : List Nat := (List.range (512 / w)).map fun i => v.toNat / 2 ^ (w * i) % 2 ^ w
/-- A vector with elements put at positions from 0 on; positions beyond the list keep the old bits (R143). -/
def packVec (w : Nat) (old : Vec) (els : List Nat) : Vec :=
  let n := els.length
  toVec (els.foldr (fun x acc => x + 2 ^ w * acc) 0 + old.toNat / 2 ^ (w * n) * 2 ^ (w * n))

/-! ## Operands -/

/-- Where an operand's vectors lie: a bank with index and stride, a stream, or vectors already read (R139). -/
inductive Place2
  | bank (tile bank idx : Nat) (stride : Int)
  | stream (r : Nat)
  | got (vs : List (Vec × Bool)) (idx : Nat) (stride : Int)
  deriving DecidableEq, Repr

/-- An operand as an instruction uses it. -/
structure Operand where
  sel : Nat
  fmt : OFmt
  at_ : Place2
  deriving DecidableEq, Repr

/-- R283: a selector: 0 to 7 a pointer, 8 to 15 a stream. -/
def isStr (sel : Nat) : Bool := decide (8 ≤ sel)

/-- The remote read a context waits on for a pointer image (R139). -/
def State.remoteOf (s : State) (t c tile p n : Nat) : Option RemoteRead :=
  s.rreads.find? fun r => decide (r.tile = tile) && decide (r.bank = pBank p) && decide (r.first = pVidx p)
    && decide (r.stride = pStride p) && decide (r.count = n) && r.users.contains (t, c)

/-- The format register of the bank of a remote pointer image: as it stood when the context's vectors were read, where they have been (R327). -/
def State.remoteFmt (s : State) (t c tile p : Nat) : Word :=
  match s.rreads.find? fun r => r.closed && decide (r.tile = tile) && decide (r.bank = pBank p) && decide (r.first = pVidx p)
      && decide (r.stride = pStride p) && r.users.contains (t, c) with
  | some r => r.fmt
  | none => (s.tile tile).bank.getD (pBank p) 0

/-- A selector resolved to an operand: a trap cause, or the operand. fmts are the bank registers as captured at issue (R137). n is
the vectors that a remote pointer must have read. -/
def State.operand (s : State) (t c sel : Nat) (fmts : List Word) (n : Nat) : Except Nat Operand :=
  let x := s.ctx t c
  if isStr sel then
    let st := x.str.getD (sel - 8) {}
    if !st.bound then .error causeIllegal else .ok { sel, fmt := { code := st.fmt }, at_ := .stream (sel - 8) }
  else
    let p := (x.ptr.getD sel 0).toNat
    if pBad p then .error causeIllegal
    else if !pRemote p then
      .ok { sel, fmt := .ofBank (nth fmts (pBank p) 0) t (pBank p), at_ := .bank t (pBank p) (pVidx p) (pStride p) }
    else match s.tileRole t (pRole p) with
      | none => .error causeRole
      | some d =>
        let f := OFmt.ofBank (s.remoteFmt t c d p) d (pBank p)
        if d = t then .ok { sel, fmt := .ofBank (nth fmts (pBank p) 0) t (pBank p), at_ := .bank t (pBank p) (pVidx p) (pStride p) }
        else match s.remoteOf t c d p n with
          | some r => .ok { sel, fmt := f, at_ := .got r.data (pVidx p) (pStride p) }
          | none => .ok { sel, fmt := f, at_ := .bank d (pBank p) (pVidx p) (pStride p) }

/-- A pointer image that names another tile (R128, R139). -/
def State.remoteTile (s : State) (t c sel : Nat) : Option Nat :=
  if isStr sel then none
  else
    let p := ((s.ctx t c).ptr.getD sel 0).toNat
    if pBad p || !pRemote p then none
    else match s.tileRole t (pRole p) with
      | some d => if d = t then none else some d
      | none => none

/-- A request for n vectors through a remote pointer joins a matching read of its cluster within its 64-cycle window, or opens one;
a target in another cluster joins none (R139). -/
def State.askRemote (s : State) (t c d sel n : Nat) : State :=
  let p := ((s.ctx t c).ptr.getD sel 0).toNat
  let joins : RemoteRead → Bool := fun r => !r.closed && decide (r.tile = d) && decide (r.bank = pBank p) && decide (r.first = pVidx p)
    && decide (r.stride = pStride p) && decide (r.count = n) && decide (s.cyc < r.openAt + 64) && decide (d / 8 = t / 8)
    && r.users.any (fun u => decide (u.1 / 8 = t / 8))
  if s.rreads.any fun r => r.users.contains (t, c) && decide (r.tile = d) && decide (r.bank = pBank p) && decide (r.first = pVidx p)
      && decide (r.stride = pStride p) && decide (r.count = n) then s
  else match s.rreads.find? joins with
    | some r => { s with rreads := s.rreads.map fun q => if q.id = r.id then { q with users := q.users ++ [(t, c)] } else q }
    | none => State.fresh { s with rreads := s.rreads ++ [{ id := s.nextId, launch := (match (s.tile t).grp with | some g => g.launch | none => 0)
                                                            group := (s.roleGroup t (pRole p)).getD 0, tile := d, bank := pBank p, first := pVidx p, stride := pStride p
                                                            count := n, users := [(t, c)], openAt := s.cyc }] }

/-- A context's remote reads are done with. -/
def State.dropRemote (s : State) (t c : Nat) : State :=
  { s with rreads := (s.rreads.map fun r => { r with users := r.users.filter (· ≠ (t, c)) }).filter fun r => !r.users.isEmpty }

/-- REMOTE_READ_CLOSE (R139): the window of a remote read closes and one read is performed for all its requesters; a read of a tile
group that migrates is held until its restore. DEDUCED (log 36): from its save on, for until then the reads in flight complete (R119). -/
def execRemoteReadClose (id : Nat) (s : State) : Out :=
  match s.rreads.find? (fun r => decide (r.id = id)) with
  | none => .next s
  | some r =>
    if r.closed ∨ s.cyc < r.openAt + (if r.users.any (fun u => decide (u.1 / 8 = r.tile / 8)) then 64 else 0) ∨ s.groupOff r.launch r.group = true then .next s
    else
      let data := (List.range r.count).map fun i => s.vec r.tile r.bank (pStep r.first r.stride i)
      .next { s with rreads := s.rreads.map fun q => if q.id = id then { q with closed := true, fmt := (s.tile r.tile).bank.getD r.bank 0, data := data } else q }

/-! ## Reading and writing vectors -/

/-- The result of a vector read: the vector, or a trap, or a fault of an address and its PVA that parks the context. -/
inductive Got | vec (s : State) (v : Vec) (idx : Nat) | trap (cause : Nat) (addr : Word) | fault (pva va : Nat) | noUnit

/-- n bytes within one line at a PVA as the stream unit of tile t reads them at their home (R130, R170, R178). A stamped line waits for the tile's stores
to it (R203), is taken from L1 where a copy lies there, and fills L1 (R208). va is its virtual address. -/
def State.streamRead (s : State) (t pva va n : Nat) : Got :=
  match s.xlate t (s.partAsid (s.partOf t)).1 pva true false false false with
  | .rights => .trap causePageRights (BitVec.ofNat 64 va)
  | .absent => .fault pva va
  | .ok e pa =>
    let p := s.partOf t
    let line := pa / 64
    if s.rejectsAt t pa n e.shu then .trap causePageRights (BitVec.ofNat 64 va)
    else if e.stamp && s.sbHas t line then .noUnit
    else match (if e.stamp then (Tbl.find? (s.tile t).l1 line).filter (·.stamp.isSome) else none) with
      | some l => .vec (s.tlbFill t e) (toVec (bits l.data.toNat (8 * (pa % 64) + 8 * n - 1) (8 * (pa % 64)))) (b2n l.poison)
      | none =>
        let s := (s.tlbFill t e).serve p e.tenant line e.shu
        let s := if e.stamp then s.fillL1 p e.tenant t line (e.pva pa) (some (Tbl.getD s.mem.stamps line 0)) else s
        .vec s (toVec (s.readN p e.tenant e.shu pa n)) (b2n (s.readBad p e.tenant e.shu line))

/-- A vector of an input stream beyond those prefetched: checks of R134 and R178, and its 64 bytes read at their homes (R130, R131); idx of the
answer is 1 where they are poisoned. -/
def State.fetchStream (s : State) (t c : Nat) (st : Stream) (n : Nat) : Got :=
  let va := st.addr n
  let segs := (s.ctx t c).seg
  match s.segCheck t segs va 64 true false false with
  | .error k => .trap k (BitVec.ofNat 64 va)
  | .ok (.spad d off) =>
    let pa := spadPa d off
    if s.farAway t segs va then .noUnit else .vec s (toVec (s.peekN pa 64)) (b2n (s.poisoned (pa / 64) || s.poisoned ((pa + 63) / 64)))
  | .ok (.mem pva) =>
    let m := 64 - pva % 64
    match s.streamRead t pva va m with
    | .vec s v p =>
      if m = 64 then .vec s v p
      else match s.streamRead t (pva + m) (va + m) (64 - m) with
        | .vec s w q => .vec s (toVec (v.toNat + 2 ^ (8 * m) * w.toNat)) (max p q)
        | x => x
    | x => x

/-- Vector n of an operand beyond its present position, for an element read. A stream is empty until its unit has reached the vector (R131): its unit runs
four vectors ahead, and then delivers as the instruction consumes (log 54). -/
def State.readVec (s : State) (t c : Nat) (o : Operand) (n : Nat) : Got :=
  match o.at_ with
  | .bank d b i st =>
    let k := pStep i st n
    if Num.isBlock o.fmt.code && !blockOk o.fmt.code k then .trap causeFormat 0
    else
      let (v, p) := s.vec d b k
      if p || s.codePoison o.fmt k v then .trap causePoison 0 else .vec s v k
  | .got vs i st =>
    let k := pStep i st n
    if Num.isBlock o.fmt.code && !blockOk o.fmt.code k then .trap causeFormat 0
    else match vs[n]? with
      | some (v, p) => if p || s.codePoison o.fmt k v then .trap causePoison 0 else .vec s v k
      | none => .noUnit
  | .stream r =>
    let st := (s.ctx t c).str.getD r {}
    if st.total ≤ st.pos + n then .trap causeIllegal 0
    else if !st.unit then .noUnit
    else match st.ahead[n]? with
      | some v => if v.poison then .trap causePoison 0 else .vec s v.data n
      | none => match s.fetchStream t c st (st.pos + n) with
        | .vec s v p => if st.ahead.length < 4 then .noUnit else if p = 1 then .trap causePoison 0 else .vec s v n
        | x => x

/-- The result of a vector write. -/
inductive Put | ok (s : State) | trap (cause : Nat) (addr : Word) | fault (pva va : Nat) | noUnit

/-- The translation of a PVA that an output stream writes (R178), or whether a right is missing; a stamped write drops the tile's own L1 copy (R203). -/
def State.streamOut (s : State) (t pva : Nat) : Except Bool (State × Nat × Xlat) :=
  match s.xlate t (s.partAsid (s.partOf t)).1 pva false true false true with
  | .rights => .error true
  | .absent => .error false
  | .ok e pa =>
    let s := s.tlbFill t e
    .ok (if e.stamp then s.updTile t fun v => { v with l1 := Tbl.erase v.l1 (pa / 64) } else s, pa, e)

/-- Vector n of a destination written: a whole vector of a local bank, or a vector produced on an output stream after the checks
of R134 and R178 (R131), which carries what its producer gives it: v is the vector with that (R326). An output stream is full with four vectors not yet
performed (log 54). -/
def State.writeVec (s : State) (t c : Nat) (o : Operand) (n : Nat) (v : StreamVec) : Put :=
  match o.at_ with
  | .bank d b i st =>
    .ok (s.applyWrite (s.partOf t) 0 (64 * spadLine d b (pStep i st n)) 64 v.data.toNat none false false)
  | .got _ _ _ => .trap causeIllegal 0
  | .stream r =>
    let st := (s.ctx t c).str.getD r {}
    if st.total ≤ st.pos + n then .trap causeIllegal 0
    else if !st.unit || decide (4 ≤ st.ahead.length) then .noUnit
    else
      let va := st.addr (st.pos + n)
      let go := fun (s : State) (sv : StreamVec) =>
        Put.ok (s.updCtx t c fun x => { x with str := x.str.set r { x.str.getD r {} with ahead := (x.str.getD r {}).ahead ++ [sv] } })
      match s.segCheck t (s.ctx t c).seg va 64 false true false with
      | .error k => .trap k (BitVec.ofNat 64 va)
      | .ok (.spad d off) =>
        let pa := spadPa d off
        if s.farAway t (s.ctx t c).seg va then .noUnit else go s { v with pa, tail := if pa % 64 = 0 then none else some (pa + 64 - pa % 64, false, false, 0) }
      | .ok (.mem pva) =>
        match s.streamOut t pva with
        | .error true => .trap causePageRights (BitVec.ofNat 64 va)
        | .error false => .fault pva va
        | .ok (s, pa, e) =>
          let sv := { v with pa, stamped := e.stamp, shu := e.shu, tenant := e.tenant }
          if pa % 64 = 0 then go s sv
          else
            let m := 64 - pa % 64
            match s.streamOut t (pva + m) with
            | .error true => .trap causePageRights (BitVec.ofNat 64 va)
            | .error false => .fault (pva + m) (va + m)
            | .ok (s, pb, e) => go s { sv with tail := some (pb, e.stamp, e.shu, e.tenant) }

/-- A selector advances by n vectors (R129, R130): a pointer wraps in its bank; a stream's POS rises, and an input stream drops what
it delivered. -/
def State.advance (s : State) (t c sel n : Nat) : State :=
  s.updCtx t c fun x =>
    if isStr sel then
      let st := x.str.getD (sel - 8) {}
      { x with str := x.str.set (sel - 8) { st with pos := st.pos + n, ahead := if st.out then st.ahead else st.ahead.drop n } }
    else { x with ptr := x.ptr.set sel (pAdvance (x.ptr.getD sel 0) n) }

/-! ## Stream units (R131) -/

/-- Stream units in use on a tile (R131: 16). -/
def Tile.unitsUsed (v : Tile) : Nat := v.ctxs.foldl (fun n p => n + (p.2.str.els.filter (·.unit)).length) 0

/-- Bound streams of slotted contexts take free units, lowest context then lowest register first, and a context parked on a stream
wakes (R131). -/
def State.grantUnits (s : State) (t : Nat) : State :=
  let cs := (s.tile t).ctxs.map (·.1)
  cs.foldl (fun s c => (List.range 8).foldl (fun s r =>
    let x := s.ctx t c
    let st := x.str.getD r {}
    if x.state = .slotted ∧ st.bound ∧ !st.unit ∧ (s.tile t).unitsUsed < 16 then
      s.updCtx t c fun x =>
        let x := { x with str := x.str.set r { st with unit := true } }
        if x.park = 2 then x.wake s.cyc else x
    else s) s) s

/-- A context parked on a stream re-evaluates its instruction (R111). -/
def State.wakeStream (s : State) (t c : Nat) : State :=
  s.updCtx t c fun x => if x.park = 2 then x.wake s.cyc else x

/-- STREAM_PREFETCH (R131): an input stream's unit fetches a vector, up to four ahead of POS; a fault is left for the instruction
that consumes the vector. A line that the tile's store buffer holds is not fetched while it is stamped (R203, R208). A context parked on a stream that is four
ahead goes on once the next vector can be read. -/
def execStreamPrefetch (tile ctx sr : Nat) (s : State) : Out :=
  let st := (s.ctx tile ctx).str.getD sr {}
  if !st.bound ∨ st.out = true ∨ !st.unit ∨ st.total ≤ st.pos + st.ahead.length then .next s
  else match s.fetchStream tile ctx st (st.pos + st.ahead.length) with
    | .noUnit => .next s
    | .vec s1 v p => if 4 ≤ st.ahead.length then .next (s.wakeStream tile ctx) else .next ((s1.updCtx tile ctx fun x =>
        { x with str := x.str.set sr { x.str.getD sr {} with ahead := st.ahead ++ [{ data := v, poison := decide (p = 1) }] } }).wakeStream tile ctx)
    | _ => .next (s.wakeStream tile ctx)

/-- One line's bytes of a produced vector are applied at their home (R200, R201). -/
def State.drainPart (s : State) (tile ctx pa n v : Nat) (stamped shu : Bool) (tenant : Nat) (iter : W32) (poison : Bool) : State :=
  let p := s.partOf tile
  let s := s.gather p tenant (pa / 64)
  if stamped then
    let (s, applied) := s.applyStamped p pa n v iter poison
    if applied then s else s.addFfl tile ctx 0x40 0
  else s.applyWrite p tenant pa n v none poison shu

/-- STREAM_OUTPUT_DRAIN (R131, R170, R190, R203, R325): an output stream's unit sends its oldest produced vector, a write of the release round then
current, once that round number is free and, for a stamped line, once the tile's stores to the line are applied; the home applies it, or rejects it with a
deferred PAGE_RIGHTS (R256). -/
def execStreamOutputDrain (tile ctx sr : Nat) (s : State) : Out :=
  let st := (s.ctx tile ctx).str.getD sr {}
  match st.ahead with
  | [] => .next s
  | v :: rest =>
    let r := (s.ctx tile ctx).relRnd
    let waits := (v.stamped && s.sbHas tile (v.pa / 64)) || (match v.tail with | some q => q.2.1 && s.sbHas tile (q.1 / 64) | none => false)
    if !st.out ∨ !st.unit ∨ (s.ctx tile ctx).roundShut s.nextId r = true ∨ waits = true then .next s
    else
      let p := s.partOf tile
      let m := 64 - v.pa % 64
      let bad := s.rejectsAt tile v.pa m v.shu || (match v.tail with | some q => s.rejectsAt tile q.1 (64 - m) q.2.2.1 | none => false)
      let s := s.countWrite tile ctx (s.home p v.pa) r
      let s := match v.tail with | some q => s.countWrite tile ctx (s.home p q.1) r | none => s
      let s := s.updCtx tile ctx fun x => { x with str := x.str.set sr { x.str.getD sr {} with ahead := rest } }
      if bad then
        .next (s.defer tile ctx (s.ctx tile ctx).gen { cause := causePageRights, pc := v.pc, insn := v.insn
                                                       addr := BitVec.ofNat 64 (st.addr (st.pos - st.ahead.length)) })
      else
        let s := s.drainPart tile ctx v.pa m (v.data.toNat % 2 ^ (8 * m)) v.stamped v.shu v.tenant v.iter v.poison
        let s := match v.tail with
          | some q => s.drainPart tile ctx q.1 (64 - m) (v.data.toNat / 2 ^ (8 * m)) q.2.1 q.2.2.1 q.2.2.2 v.iter v.poison
          | none => s
        .next (s.wakeStream tile ctx)

end Sys2Proof.Machine
end

