-- ==== Sys2Proof/Machine/Vector.lean ====
section
/-!
DEFINITION. The vector instructions (R327 to R336): their issue into the tile's queue, their run in the vector unit, and the landing
of their results.
-/
namespace Sys2Proof.Machine

/-! ## What each instruction computes (R331 to R336) -/

/-- Whether an instruction works in the float domain whatever its formats (R330). -/
def vopFloat (vop : Nat) : Bool := decide (9 ≤ vop) && decide (vop ≤ 11)
/-- Whether an instruction is a reduction (R336). -/
def vopRed (vop : Nat) : Bool := decide (18 ≤ vop)
/-- Whether B names an x register (R333, R334). -/
def vopScalar (vop : Nat) : Bool := vop = 12 || vop = 13 || vop = 14 || vop = 16
/-- The selectors an instruction reads. -/
def vopReads (vop d a b : Nat) : List Nat :=
  if vop = 16 then [] else if vop = 3 then [a, b, d] else if vop ≤ 6 ∨ vop = 17 then [a, b] else [a]

/-- R335: the test of a value against zero; an unordered one fails. -/
def selTest (mod : Nat) (o : Option Ordering) : Bool :=
  match o, mod with
  | some r, 0 => r == .eq
  | some r, 1 => r != .eq
  | some r, 2 => r == .lt
  | some r, 3 => r != .gt
  | some r, 4 => r == .gt
  | some r, 5 => r != .lt
  | _, _ => false

/-- The exact result in the float domain on FP32 operands, with its flags (R330 to R335). -/
def vopF (vop mod rnd : Nat) (a b c : Val) : Val × Nat :=
  let inv2 := fun (r : Val × Bool) => (r.1, if r.2 then NV else 0)
  match vop with
  | 0 => inv2 (Num.sum (Num.rmode rnd) [a, b])
  | 1 => inv2 (Num.sum (Num.rmode rnd) [a, Num.negate b])
  | 2 => inv2 (Num.mul a b)
  | 3 => Num.fma (Num.rmode rnd) a b c
  | 4 => (Num.maxV a b, 0)
  | 5 => (Num.minV a b, 0)
  | 6 => (Num.maxV (Num.abs a) (Num.abs b), 0)
  | 7 => (Num.abs a, 0)
  | 8 => (Num.negate a, 0)
  | 9 => Num.exp2 a
  | 10 => Num.div (Num.ofInt 1) a
  | 11 => Num.rsqrt a
  | 12 => inv2 (Num.mul a b)
  | 13 => inv2 (Num.sum (Num.rmode rnd) [a, b])
  | 14 => (Num.maxV a b, 0)
  | 17 => (if selTest mod (Num.cmp a (Num.ofInt 0)) then a else b, 0)
  | _ => (a, 0)

/-- The exact result in the integer domain, before it wraps or saturates (R331 to R335). -/
def vopI (vop mod : Nat) (a b c : Int) : Int :=
  match vop with
  | 0 => a + b
  | 1 => a - b
  | 2 => a * b
  | 3 => a * b + c
  | 4 => max a b
  | 5 => min a b
  | 6 => max (a.natAbs : Int) b.natAbs
  | 7 => a.natAbs
  | 8 => -a
  | 12 => a * b
  | 13 => a + b
  | 14 => max a b
  | 17 => if selTest mod (some (compare a 0)) then a else b
  | _ => a

/-! ## Reading the elements -/

/-- Why a vector instruction stops at a vector. -/
inductive Stop | trap (cause : Nat) (addr : Word) | fault (pva va : Nat) (wr : Bool) | noUnit
  deriving DecidableEq, Repr

/-- Vectors first to first + n − 1 of an operand. -/
def State.readVecs (s : State) (t c : Nat) (o : Operand) (first : Nat) : Nat → Except Stop (State × List (Vec × Nat))
  | 0 => .ok (s, [])
  | n + 1 => match s.readVec t c o first with
    | .trap k a => .error (.trap k a)
    | .fault pva va => .error (.fault pva va false)
    | .noUnit => .error .noUnit
    | .vec s v k => match s.readVecs t c o (first + 1) n with
      | .error e => .error e
      | .ok (s, vs) => .ok (s, (v, k) :: vs)

/-- Elements k0 to k0 + cnt − 1 of an operand whose pointer stands at element base × e: their bits with their vector and position
(R327). -/
def State.readEls (s : State) (t c : Nat) (o : Operand) (base k0 cnt : Nat) : Except Stop (State × List (Nat × Nat × Nat)) :=
  let e := o.fmt.e
  let w := Num.width o.fmt.code
  let v0 := k0 / e
  match s.readVecs t c o (v0 - base) ((k0 + cnt - 1) / e + 1 - v0) with
  | .error x => .error x
  | .ok (s, vs) => .ok (s, (List.range cnt).map fun i =>
      let k := k0 + i
      let (v, idx) := vs.getD (k / e - v0) (0, 0)
      (v.toNat / 2 ^ (w * (k % e)) % 2 ^ w, idx, k % e))

/-- The operands of each in turn. -/
def State.readAll (s : State) (t c prog eD k0 cnt : Nat) : List Operand → Except Stop (State × List (Operand × List (Nat × Nat × Nat)))
  | [] => .ok (s, [])
  | o :: os => match s.readEls t c o (prog * eD / o.fmt.e) k0 cnt with
    | .error x => .error x
    | .ok (s, els) => match s.readAll t c prog eD k0 cnt os with
      | .error x => .error x
      | .ok (s, r) => .ok (s, (o, els) :: r)

/-! ## One destination vector -/

/-- What one run of an instruction knows throughout: its operands, its destination, its domain and its scalar. -/
structure VCtx where
  op : VOp
  srcs : List Operand
  dst : Option Operand
  int : Bool
  same : Bool
  deriving DecidableEq, Repr

/-- The elements of destination vector i, with their flags (R331 to R335). -/
def State.vecElems (s : State) (k : VCtx) (els : List (Operand × List (Nat × Nat × Nat))) (f : OFmt) : List (Nat × Nat) :=
  let op := k.op
  let rnd := op.rnd.toNat
  let get := fun (n i : Nat) => match els[n]? with
    | some (o, xs) => let (x, v, p) := xs.getD i (0, 0, 0); (o.fmt, v, p, x)
    | none => ({ code := 0 }, 0, 0, 0)
  if op.vop = 16 then
    let r := if k.int then Num.encodeInt f.code rnd (sgn 64 op.scalar.toNat) else encEl f rnd (Num.fp32 (op.scalar.toNat % 2 ^ 32))
    List.replicate f.e r
  else (List.range f.e).map fun i =>
    if k.same then (let (_, _, _, x) := get 0 i; (x, 0))
    else if k.int then
      let dec := fun (n : Nat) => let (g, _, _, x) := get n i; Num.decodeInt g.code x
      let (a, f1) := dec 0
      let (b, f2) := if vopScalar op.vop then (sgn 64 op.scalar.toNat, false) else dec 1
      let (c, f3) := dec 2
      let (v, fl) := Num.sat64 (Num.risat rnd) (vopI op.vop op.mod a b c)
      let (x, g) := Num.encodeInt f.code rnd v
      let bad := f1 || (decide (1 < els.length) && f2) || (decide (2 < els.length) && f3)
      (x, fl ||| g ||| (if bad then NV else 0))
    else
      let dec := fun (n : Nat) => let (g, v, p, x) := get n i; let (y, bad) := s.decEl g v p x; (toF32 rnd y, bad)
      let (a, f1) := dec 0
      let (b, f2) := if vopScalar op.vop then (Num.fp32 (op.scalar.toNat % 2 ^ 32), false) else dec 1
      let (c, f3) := dec 2
      let (v, fl) := vopF op.vop op.mod rnd a b c
      let (x, g) := encEl f rnd v
      let bad := f1 || (decide (1 < els.length) && f2) || (decide (2 < els.length) && f3)
      (x, fl ||| g ||| (if bad then NV else 0))

/-- R328: the destination vectors from i on, n of them, in ascending order; flags gathered so far. It ends at a vector with what
stopped it, or at the end. -/
def State.vecLoop (s : State) (t : Nat) (k : VCtx) (o : Operand) (i fl : Nat) : Nat → State × Nat × Nat × Option Stop
  | 0 => (s, i, fl, none)
  | n + 1 =>
    let c := k.op.ctx
    let e := o.fmt.e
    match s.readAll t c k.op.prog e (i * e) e k.srcs with
    | .error x => (s, i, fl, some x)
    | .ok (s1, els) =>
      let xs := s1.vecElems k els o.fmt
      match s1.writeVec t c o (i - k.op.prog) { data := packVec (Num.width o.fmt.code) 0 (xs.map (·.1)), iter := k.op.iter, pc := k.op.pc, insn := k.op.insn } with
      | .trap ca ad => (s1, i, fl, some (.trap ca ad))
      | .fault pva va => (s1, i, fl, some (.fault pva va true))
      | .noUnit => (s1, i, fl, some .noUnit)
      | .ok s2 => s2.vecLoop t k o (i + 1) (xs.foldl (fun f x => f ||| x.2) fl) n

/-- R336: the vectors of A from i on, n of them; each element taken is kept as an FP32 pattern or an integer. -/
def State.redLoop (s : State) (t : Nat) (k : VCtx) (o : Operand) (i fl : Nat) : Nat → State × Nat × Nat × Option Stop
  | 0 => (s, i, fl, none)
  | n + 1 =>
    let c := k.op.ctx
    let e := o.fmt.e
    match s.readEls t c o k.op.prog (i * e) e with
    | .error x => (s, i, fl, some x)
    | .ok (s1, els) =>
      let rnd := k.op.rnd.toNat
      let xs := els.map fun (x, v, p) =>
        if k.int then let (a, bad) := Num.decodeInt o.fmt.code x; (BitVec.ofInt 64 a, bad)
        else let (a, bad) := s1.decEl o.fmt v p x; (BitVec.ofNat 64 (Num.toFp32 (Num.rmode rnd) a).1, bad)
      let s2 := s1.updCtx t c fun x => { x with reduced := x.reduced ++ xs.map (·.1) }
      s2.redLoop t k o (i + 1) (if xs.any (·.2) then fl ||| NV else fl) n

/-- R336: the result of a reduction over the elements taken, with its flags. -/
def reduceAll (vop mod rnd : Nat) (int : Bool) (els : List Word) : Word × Nat :=
  if int then
    let xs := els.map fun w => sgn 64 w.toNat
    if vop = 18 then
      let (v, fl) := Num.sat64 (Num.risat rnd) (xs.foldl (· + ·) 0)
      (BitVec.ofInt 64 v, fl)
    else
      let ys := if mod % 2 = 1 then xs.map fun x => (x.natAbs : Int) else xs
      (BitVec.ofInt 64 (ys.tail.foldl max (ys.headD 0)), 0)
  else
    let xs := els.map fun w => Num.fp32 w.toNat
    if vop = 18 then
      let (v, opp) := Num.sum (Num.rmode rnd) xs
      let (b, fl) := Num.toFp32 (Num.rmode rnd) v
      (BitVec.ofNat 64 b, if opp then fl ||| NV else fl)
    else
      let ys := if mod % 2 = 1 then xs.map Num.abs else xs
      (BitVec.ofNat 64 (Num.toFp32 0 (ys.tail.foldl Num.maxV (ys.headD .nan))).1, 0)

/-! ## The unit (R328, R329) -/

/-- R283: whether a selector may be read, or written. -/
def State.selBad (s : State) (t c sel : Nat) (write : Bool) : Bool :=
  if isStr sel then
    let st := (s.ctx t c).str.getD (sel - 8) {}
    !st.bound || st.out != write
  else write && pRemote ((s.ctx t c).ptr.getD sel 0).toNat

/-- The vectors an operand of e(X) elements per vector moves for n elements (R327). -/
def moves (n e : Nat) : Nat := (n + e - 1) / e

/-- R283, R331: whether a selector of an instruction does not suit its use. -/
def State.selsBad (s : State) (t c : Nat) (op : VOp) : Bool :=
  let reads := vopReads op.vop op.d op.a op.b
  let dsts := if vopRed op.vop then [] else [op.d]
  reads.any (fun q => s.selBad t c q (op.vop = 3 && q = op.d && isStr q && decide (q ≠ op.a) && decide (q ≠ op.b)))
    || dsts.any (fun q => s.selBad t c q true) || (op.vop = 3 && isStr op.d)
    || (reads ++ dsts).any fun q => !isStr q && pBad ((s.ctx t c).ptr.getD q 0).toNat

/-- The checks of R330 that need no vector: the operands in order with the destination last, or the cause of the trap. -/
def State.vecOperands (s : State) (t c : Nat) (op : VOp) : Except Nat (List Operand × Option Operand) :=
  let reads := vopReads op.vop op.d op.a op.b
  let dsts := if vopRed op.vop then [] else [op.d]
  if s.selsBad t c op then .error causeIllegal
  else
    let go : Nat → Nat → Except Nat Operand := fun sel n => s.operand t c sel op.fmts n
    match dsts.map (fun q => go q 0) with
    | Except.error e :: _ => Except.error e
    | ds =>
      let dst := match ds with | .ok o :: _ => some o | _ => none
      let eD := match dst with | some o => o.fmt.e | none => 0
      let srcs : List (Except Nat Operand) := reads.map fun q => match go q 0 with
        | .error e => Except.error e
        | .ok o => go q (moves (op.vl * (if dst.isSome then eD else o.fmt.e)) o.fmt.e)
      match srcs.findSome? (fun r => match r with | .error e => some e | .ok _ => none) with
      | some e => .error e
      | none =>
        let os := srcs.filterMap fun r => match r with | .ok o => some o | .error _ => none
        if os.any (·.fmt.bad) || (match dst with | some o => o.fmt.bad || o.fmt.noWrite | none => false) then .error causeFormat
        else .ok (os, dst)

/-- Whether every remote operand's vectors have been read (R139). -/
def State.remoteReady (s : State) (t c : Nat) (sels : List Nat) : Bool :=
  sels.all fun q => match s.remoteTile t c q with
    | none => true
    | some d =>
      let p := ((s.ctx t c).ptr.getD q 0).toNat
      let rs := s.rreads.filter fun r => r.users.contains (t, c) && decide (r.tile = d) && decide (r.bank = pBank p) && decide (r.first = pVidx p)
      !rs.isEmpty && rs.all (·.closed)

/-- R129, R130: every selector named advances once, by the most any operand of it moves. -/
def State.advanceAll (s : State) (t c : Nat) (ms : List (Nat × Nat)) : State :=
  let sels := ms.map (·.1) |>.eraseDups
  sels.foldl (fun s q => s.advance t c q ((ms.filter fun m => decide (m.1 = q)).foldl (fun n m => max n m.2) 0)) s

/-- The vector instruction at the head of the queue leaves it. -/
def State.popVec (s : State) (t c : Nat) : State := (s.updTile t fun v => { v with vq := v.vq.tail }).dropRemote t c

/-- A vector instruction stops at vector i (R255): results before i stand, and it waits in the retry latch. -/
def State.vecStop (s : State) (t : Nat) (op : VOp) (i fl : Nat) (st : Stop) : State :=
  let c := op.ctx
  let s := (s.popVec t c).addFfl t c (BitVec.ofNat 8 fl) 0
  let s := if vopRed op.vop && decide (i = 0) then s.unPend t c op.d false else s
  match st with
  | .trap k a => s.takeTrap t c { cause := k, pc := op.pc, insn := op.insn, addr := a, prog := i }
  | .noUnit => s.parkWith t c 2 (some { insn := op.insn, pc := op.pc, prog := i })
  | .fault pva va wr => (s.pageFault t c pva va (!wr) wr false wr).parkWith t c 9 (some { insn := op.insn, pc := op.pc, prog := i })

/-- VECTOR_UNIT_START (R327 to R336): the oldest queued instruction starts once the unit is free and its context's earlier accesses to
the banks of its tile, a drain of the matrix unit among them, have been performed (R136, R352). It reads its pointers and its scalar now, which R294 finds
poisoned or not (R333); its vectors are read and written in ascending order, with the flags of each (R330); it then occupies the unit for 6 + max(V, K) cycles
(R329: D, A and B occupy their banks, D once) and those in which it loses a bank to parties that go first (R138). -/
def execVectorUnitStart (tile : Nat) (s : State) : Out :=
  let v := s.tile tile
  match v.vq with
  | [] => .next s
  | op :: _ =>
    let c := op.ctx
    let sels := vopReads op.vop op.d op.a op.b
    if v.vrun.isSome then .next s
    else if !s.alive tile c op.gen then .next (s.popVec tile c)
    else if s.reqs.any (fun r => decide (r.tile = tile) && decide (r.ctx = c) && decide (r.id < op.id) && isSpad r.pa
      && decide (r.stage ≠ .reply)) || v.drains c op.id then .next s
    else if !s.remoteReady tile c sels then .next s
    else
      let op := if vopScalar op.vop then { op with scalar := ((s.ctx tile c).reg op.b).seen s.cyc } else op
      let op := if vopScalar op.vop && decide (op.b = 0) then { op with scalar := 0 } else op
      match (if vopScalar op.vop && decide (op.b ≠ 0) && ((s.ctx tile c).reg op.b).poison then .error causePoison else s.vecOperands tile c op) with
      | .error k => .next (s.vecStop tile op op.prog 0 (.trap k 0))
      | .ok (srcs, dst) =>
        let allInt := srcs.all (·.fmt.int) && (match dst with | some o => o.fmt.int | none => true)
        let same := op.vop = 15 && (match srcs, dst with
          | [a], some o => decide (a.fmt.code = o.fmt.code) && decide (a.fmt.scale = o.fmt.scale)
          | _, _ => false)
        let k : VCtx := { op, srcs, dst, int := allInt && !vopFloat op.vop, same }
        let main := match dst with | some o => o | none => srcs.headD { sel := 0, fmt := { code := 0 }, at_ := .stream 0 }
        let eM := main.fmt.e
        let (s1, i, fl, st) := match dst with
          | some o => s.vecLoop tile k o op.prog 0 (op.vl - op.prog)
          | none => s.redLoop tile k main op.prog 0 (op.vl - op.prog)
        let all := match dst with | some o => o :: srcs | none => srcs
        let upTo := fun (o : Operand) => if st.isSome then i * eM / o.fmt.e else moves (op.vl * eM) o.fmt.e
        let s1 := s1.advanceAll tile c (all.map fun o => (o.sel, upTo o - op.prog * eM / o.fmt.e))
        match st with
        | some x => .next (s1.vecStop tile op i fl x)
        | none =>
          let mv := fun (o : Operand) => moves (op.vl * eM) o.fmt.e
          let most := all.foldl (fun n o => max n (mv o)) 0
          let each := match dst with | some o => o :: srcs.take 2 | none => srcs
          let inBank := fun (b : Nat) => each.foldl (fun n o => match o.at_ with
            | .bank d q _ _ => if d = tile ∧ q = b then n + mv o else n
            | _ => n) 0
          let banks := (List.range 3).filter fun b => decide (0 < inBank b)
          let busy := 6 + max most (max (inBank 0) (max (inBank 1) (inBank 2)))
          let (res, f2) := if vopRed op.vop then
              let (w, f) := reduceAll op.vop op.mod op.rnd.toNat k.int (s1.ctx tile c).reduced
              (some (op.d, w), f)
            else (none, 0)
          let s2 := (s1.popVec tile c).updTile tile fun v => { v with
            vrun := some { id := op.id, banks, ctx := c, gen := op.gen, dst := res, flags := BitVec.ofNat 8 f2
                           till := max s.cyc (v.banksTill banks) + busy, lost := v.banksTill banks } }
          let s2 := (s2.updCtx tile c fun x => { x with reduced := [] }).addFfl tile c (BitVec.ofNat 8 fl) 0
          .next (if op.held then s2.completeAt tile c op.pc else s2)

/-- VECTOR_RESULT_LAND (R329, R330, R336): the instruction in the unit ends; a reduction's x result lands with its flags. -/
def execVectorResultLand (tile : Nat) (s : State) : Out :=
  match (s.tile tile).vrun with
  | none => .next s
  | some r =>
    if s.cyc < r.till then .next s
    else
      let s := s.updTile tile fun v => { v with vrun := none }
      if !s.alive tile r.ctx r.gen then .next s
      else
        let s := match r.dst with | some (d, w) => s.landX tile r.ctx d w false | none => s
        .next ((s.addFfl tile r.ctx r.flags 0).settle tile r.ctx)

/-! ## Issue (R328) -/

/-- Whether a line of a tile's scratchpad is poisoned. -/
def State.spadPoison (s : State) (t : Nat) : Bool := s.mem.poison.any fun l => isSpad (64 * l) && decide (spadTile (64 * l) = t)

/-- The issue of a vector instruction: selectors and operand rules, room in the queue, requests for remote vectors (R139), which follow the context's earlier
accesses to scratchpads (R136). An instruction that may
trap at a vector holds its context until it has been accepted (R255); any other lets it go on (R328). -/
def vecOp (S : Nat) (s : State) (vop d a b mod : Nat) : Out :=
  issue S s fun s t c =>
    let v := s.tile t
    let x := s.ctx t c
    let prog := s.progOf t c
    let srcX := if vopScalar vop then [b] else []
    let dstX := if vopRed vop && decide (prog = 0) then [d] else []
    let op : VOp := { id := s.nextId, ctx := c, gen := x.gen, vop, d, a, b, mod, vl := x.vl, rnd := x.rnd, iter := x.iter
                      fmts := v.bank.els, prog, pc := x.pc, insn := (match s.cur with | some u => u.insn | none => 0) }
    if 4 ≤ v.vq.length then .hold s
    else if s.selsBad t c op then .fail s causeIllegal
    else withOps s t c srcX dstX fun _ s =>
      let sels := vopReads vop d a b
      let far := sels.filter fun q => (s.remoteTile t c q).isSome
      let outFull := !vopRed vop && isStr d && decide (4 ≤ (x.str.getD (d - 8) {}).ahead.length)
      if !far.isEmpty && (v.vq.any (fun o => decide (o.ctx = c)) || (match v.vrun with | some r => decide (r.ctx = c) | none => false)
          || s.reqs.any fun r => decide (r.tile = t) && decide (r.ctx = c) && isSpad r.pa && decide (r.stage ≠ .reply)) then
        .hold s
      else if outFull then .park s 2 prog 0
      else
        let checked := s.vecOperands t c op
        let late := !far.isEmpty || sels.any isStr || (!vopRed vop && isStr d) || s.spadPoison t
          || (match checked with | .ok (os, _) => os.any (fun o => Num.isBlock o.fmt.code) | .error _ => true)
        let s := match checked with
          | .ok (os, dst) =>
            let eD := match dst with | some o => o.fmt.e | none => (match os with | o :: _ => o.fmt.e | [] => 1)
            far.foldl (fun (s : State) (q : Nat) => match s.remoteTile t c q, os.find? (fun (o : Operand) => decide (o.sel = q)) with
              | some r, some o => s.askRemote t c r q (moves (op.vl * eD) o.fmt.e)
              | _, _ => s) s
          | .error _ => s
        let s := if vopRed vop && decide (prog = 0) then (s.setPending t c d).updCtx t c fun x => { x with reduced := [] } else s
        let s := State.fresh (s.updTile t fun v => { v with vq := v.vq ++ [{ op with held := late }] })
        if late then .busy s else .done s

/-- VADD (R331). -/
def execVadd (S d a b : Nat) (s : State) : Out := vecOp S s 0 d a b 0
/-- VSUB (R331). -/
def execVsub (S d a b : Nat) (s : State) : Out := vecOp S s 1 d a b 0
/-- VMUL (R331). -/
def execVmul (S d a b : Nat) (s : State) : Out := vecOp S s 2 d a b 0
/-- VFMA (R331). -/
def execVfma (S d a b : Nat) (s : State) : Out := vecOp S s 3 d a b 0
/-- VMAX (R331). -/
def execVmax (S d a b : Nat) (s : State) : Out := vecOp S s 4 d a b 0
/-- VMIN (R331). -/
def execVmin (S d a b : Nat) (s : State) : Out := vecOp S s 5 d a b 0
/-- VAMAX (R331). -/
def execVamax (S d a b : Nat) (s : State) : Out := vecOp S s 6 d a b 0
/-- VABS (R332). -/
def execVabs (S d a : Nat) (s : State) : Out := vecOp S s 7 d a 0 0
/-- VNEG (R332). -/
def execVneg (S d a : Nat) (s : State) : Out := vecOp S s 8 d a 0 0
/-- VEXP2 (R332). -/
def execVexp2 (S d a : Nat) (s : State) : Out := vecOp S s 9 d a 0 0
/-- VRCP (R332). -/
def execVrcp (S d a : Nat) (s : State) : Out := vecOp S s 10 d a 0 0
/-- VRSQ (R332). -/
def execVrsq (S d a : Nat) (s : State) : Out := vecOp S s 11 d a 0 0
/-- VSCL (R333). -/
def execVscl (S d x a : Nat) (s : State) : Out := vecOp S s 12 d a x 0
/-- VADDS (R333). -/
def execVadds (S d x a : Nat) (s : State) : Out := vecOp S s 13 d a x 0
/-- VMAXS (R333). -/
def execVmaxs (S d x a : Nat) (s : State) : Out := vecOp S s 14 d a x 0
/-- VCPY (R332). -/
def execVcpy (S d a : Nat) (s : State) : Out := vecOp S s 15 d a 0 0
/-- VSET (R334). -/
def execVset (S d x : Nat) (s : State) : Out := vecOp S s 16 d 0 x 0
/-- VSEL (R335). -/
def execVsel (S d a b cond : Nat) (s : State) : Out := vecOp S s 17 d a b cond
/-- VREDS (R336). -/
def execVreds (S x a : Nat) (s : State) : Out := vecOp S s 18 x a 0 0
/-- VREDM (R336). -/
def execVredm (S x a m : Nat) (s : State) : Out := vecOp S s 19 x a 0 m

end Sys2Proof.Machine
end

