-- ==== Sys2Proof/Machine/Matrix.lean ====
section
/-!
DEFINITION. The matrix unit (R337 to R344): the matrix steps, their operand buffer, the landing of their results, and the ownership
of accumulators (R132).
-/
namespace Sys2Proof.Machine

/-! ## Arithmetic (R160 to R162) -/

/-- A decoded element: its exact value, its integer, and whether decoding it is invalid. -/
structure MEl where
  v : Val
  i : Int
  bad : Bool
  deriving DecidableEq, Repr

/-- The elements of rows, decoded exactly with block and bank scales (R161), or as integers (R162). -/
def State.mRows (s : State) (f : OFmt) (rows : List (Vec × Nat)) : List (List MEl) :=
  let w := Num.width f.code
  rows.map fun r => (unpackVec w r.1).mapIdx fun k x =>
    if f.int then let (i, bad) := Num.decodeInt f.code x; { v := .nan, i, bad }
    else let (v, bad) := s.decEl f r.2 k x; { v, i := 0, bad }

/-- R161: one element of a float-domain step: NaN first, then invalid, then an infinite term, then the exact total rounded once. -/
def mFloat (mode : Nat) (acc : W32) (a b : List MEl) : W32 × Nat :=
  let c := Num.fp32 acc.toNat
  let bad := if a.any (·.bad) || b.any (·.bad) then accInv else 0
  let nan : W32 := 0x7FC00000
  if Num.isNan c || a.any (fun x => Num.isNan x.v) || b.any (fun x => Num.isNan x.v) then (nan, bad ||| accNans)
  else
    let ps := List.zipWith (fun x y => Num.mul x.v y.v) a b
    let (t, opp) := Num.sum mode (c :: ps.map (·.1))
    if ps.any (·.2) || opp then (nan, bad ||| accInv)
    else
      let (x, fl) := Num.toFp32 mode t
      (BitVec.ofNat 32 x, if fl &&& OF ≠ 0 then bad ||| accOvf else bad)

/-- R162: one element of an integer-domain step: wrapped with overflow, or clamped under ISAT. -/
def mInt (isat : Bool) (acc : W32) (a b : List MEl) : W32 × Nat :=
  let bad := if a.any (·.bad) || b.any (·.bad) then accInv else 0
  let t := (List.zipWith (fun x y => x.i * y.i) a b).foldl (· + ·) acc.toInt
  let lo : Int := -(2 ^ 31 : Int)
  let hi : Int := 2 ^ 31 - 1
  if lo ≤ t ∧ t ≤ hi then (BitVec.ofInt 32 t, bad)
  else if isat then (BitVec.ofInt 32 (if t < lo then lo else hi), bad ||| accSatd)
  else (BitVec.ofInt 32 t, bad ||| accOvf)

/-- R339: the 256 elements and the flags of a step on an accumulator. -/
def mmaOf (rnd : Nat) (int : Bool) (acc : List W32) (ra rb : List (List MEl)) : List W32 × Nat :=
  let rs := (List.range 256).map fun e =>
    let a := ra.getD (e / 16) []
    let b := rb.getD (e % 16) []
    if int then mInt (Num.risat rnd) (acc.getD e 0) a b else mFloat (Num.rmode rnd) (acc.getD e 0) a b
  (rs.map (·.1), rs.foldl (fun f r => f ||| r.2) 0)

/-! ## The frame of a step (R337, R338) -/

/-- Whether an earlier vector instruction, drain or scratchpad access of the context has yet to be performed (R136). -/
def State.bankBusy (s : State) (t c : Nat) : Bool :=
  (s.tile t).bankWork c s.nextId
    || s.reqs.any fun r => decide (r.tile = t) && decide (r.ctx = c) && isSpad r.pa && decide (r.stage ≠ .reply)

/-- Whether a context does not own an accumulator (R132, R338). -/
def Tile.notOwner (v : Tile) (n c : Nat) : Bool := (v.acc.getD n {}).owner ≠ some c

/-- The frame of a matrix step: its own turn, the unit free and its bank accesses performed, else it does not issue; a staging
context traps ILLEGAL; the accumulator is the context's own. -/
def matStep (S : Nat) (s : State) (n : Nat) (k : State → Nat → Nat → Iss) : Out :=
  issue S s fun s t c =>
    let v := s.tile t
    if bit (s.ctx t c).role.toNat 0 then .fail s causeIllegal
    else if !v.ownTurn c s.cyc || v.mrun.isSome || decide (s.cyc < v.mfree) || s.bankBusy t c then .hold s
    else if v.notOwner n c then .fail s causeAccOwner
    else k s t c

/-- The unit is held until a cycle and the result lands then; the context's own rows leave the operand buffer. -/
def State.holdUnit (s : State) (t c n occ : Nat) (els : Option (List W32)) (flags : Nat) (drain : List (Nat × Nat × Nat) := []) (ffl : Byte := 0) : State :=
  State.fresh <| s.updTile t fun v => { v with
    mrun := some { id := s.nextId, ctx := c, gen := (s.ctx t c).gen, acc := n, els, flags, drain, ffl, till := s.cyc + occ }
    mfree := s.cyc + occ, mbuf := v.mbuf.filter fun m => decide (m.ctx ≠ c) }

/-- The end of a step that stopped at a vector. -/
def stopIss (s : State) (t c prog : Nat) (wr : Bool) : Stop → Iss
  | .trap k a => .trap s k a prog
  | .fault pva va _ => .park (s.pageFault t c pva va (!wr) wr false wr) 9 prog 0
  | .noUnit => .park s 2 prog 0

/-- A source operand's n vectors: from the banks, from its remote read, or from the operand buffer (side a or b). -/
def State.mFetch (s : State) (t c : Nat) (o : Operand) (buf : List (Vec × Bool)) (n : Nat) : Except Stop (State × List (Vec × Nat)) :=
  match o.at_ with
  | .stream _ => s.readVecs t c { o with at_ := .got buf 0 1 } 0 n
  | _ => s.readVecs t c o 0 n

/-- Whether the operand buffer is held for a step that is still to issue: its context stands at it. -/
def Tile.bufHeld (v : Tile) : Bool :=
  match v.mbuf with
  | some m => let x := v.ctx m.ctx
              decide (x.state = .slotted) && decide (x.park = 0) && decide (x.pc = m.pc)
  | none => false

/-- Source operands checked and, where one is remote or a stream, fetched first (R337): the first own turn sends the requests and the step does not issue
until they lie in the operand buffer, its context not ready; then k runs with the rows of each. A fetch from a local bank goes before a vector instruction
that uses the bank (R138). -/
def withRows (s : State) (t c : Nat) (sels : List Nat) (count : OFmt → Nat)
    (check : List OFmt → Option Nat) (k : State → List (Operand × List (Vec × Nat)) → Iss) : Iss :=
  let v := s.tile t
  let x := s.ctx t c
  if sels.any (fun q => s.selBad t c q false) then .fail s causeIllegal
  else
    let res : List (Except Nat Operand) := sels.map fun q => match s.operand t c q v.bank.els 0 with
      | .ok o => s.operand t c q v.bank.els (count o.fmt)
      | e => e
    match res.findSome? (fun r => match r with | .error e => some e | .ok _ => none) with
    | some e => .fail s e
    | none =>
      let os := res.filterMap fun r => match r with | .ok o => some o | .error _ => none
      let fs := os.map (·.fmt)
      match (if fs.any (·.bad) then some causeFormat else check fs) with
      | some e => .fail s e
      | none =>
        let far := sels.filter fun q => isStr q || (s.remoteTile t c q).isSome
        let ready := match v.mbuf with
          | some m => m.ready && decide (m.ctx = c) && decide (m.pc = x.pc)
          | none => false
        if !far.isEmpty && !ready then
          if v.bufHeld then .hold s
          else
            let s := os.foldl (fun (s : State) (o : Operand) => match s.remoteTile t c o.sel with
              | some d => s.askRemote t c d o.sel (count o.fmt)
              | none => s) s
            .hold (s.updTile t fun v => { v with mbuf := some { ctx := c, pc := x.pc, insn := (match s.cur with | some u => u.insn | none => 0) } })
        else
          let m := v.mbuf.getD { ctx := c, pc := x.pc }
          match (if far.isEmpty then none else m.trap) with
          | some (cause, a) =>
            .trap ((s.updTile t fun v => { v with mbuf := none }).dropRemote t c) cause a 0
          | none =>
            let rows : List (Except Stop (State × List (Vec × Nat))) := os.mapIdx fun i o =>
              s.mFetch t c o (if i = 0 then m.a else m.b) (count o.fmt)
            match rows.findSome? (fun r => match r with | .error e => some e | .ok _ => none) with
            | some e => stopIss ((if far.isEmpty then s else s.updTile t fun v => { v with mbuf := none }).dropRemote t c) t c 0 false e
            | none =>
              let got := rows.filterMap fun r => match r with | .ok (_, g) => some g | .error _ => none
              let s := os.foldl (fun (s : State) o => match o.at_ with
                | .bank d b _ _ => if d = t then s.updTile t fun v => v.takeBank s.cyc b (count o.fmt) else s
                | _ => s) (s.dropRemote t c)
              k s (os.zip got)

/-- MATRIX_OPERAND_FILL (R337): the last of a waiting step's vectors arrives in the operand buffer; the step can issue. A stream that cannot
give its vector yet is waited for; a fault of its translation parks the context (R178); a trap waits for the issue. -/
def execMatrixOperandFill (tile : Nat) (s : State) : Out :=
  let v := s.tile tile
  match v.mbuf with
  | none => .next s
  | some m =>
    let c := m.ctx
    if m.ready then .next s
    else if v.bufHeld = false then .next (s.updTile tile fun v => { v with mbuf := none })
    else
      let w := m.insn.toNat
      let sels := if bits w 28 24 = 0 then [bits w 19 16, bits w 23 20] else [bits w 19 16]
      if !s.remoteReady tile c (sels.filter fun q => !isStr q) then .next s
      else
        let fetch := fun (q : Nat) => match s.operand tile c q v.bank.els 0 with
          | .ok o => if isStr q then s.readVecs tile c o 0 (if bits w 28 24 = 0 then 16 else (256 + o.fmt.e - 1) / o.fmt.e) else .ok (s, [])
          | .error e => Except.error (Stop.trap e 0)
        let raw := fun (r : Except Stop (State × List (Vec × Nat))) => match r with
          | .ok (_, vs) => vs.map fun y => (y.1, false)
          | .error _ => []
        let ra := fetch (sels.headD 0)
        let rb := match sels with | [_, b] => fetch b | _ => .ok (s, [])
        let bad := match ra, rb with
          | .error e, _ => some e
          | _, .error e => some e
          | _, _ => none
        let s0 := match ra with | .ok (s1, _) => s1 | .error _ => s
        match bad with
        | some (.fault pva va _) =>
          .next (((s.updTile tile fun v => { v with mbuf := none }).pageFault tile c pva va true false false false).parkWith tile c 9
            (some { insn := m.insn, pc := m.pc }))
        | some .noUnit => .next s
        | _ =>
          let trap := match bad with | some (.trap k a) => some (k, a) | _ => none
          .next ((s0.updTile tile fun v => { v with mbuf := some { m with a := raw ra, b := raw rb, ready := true, trap } }).updCtx tile c fun x =>
            { x with readyAt := max x.readyAt (s.cyc + 1) })

/-! ## The steps (R339 to R342) -/

/-- Whether two operands lie in one local bank (R337). -/
def sameBank (t : Nat) (a b : Operand) : Bool :=
  match a.at_, b.at_ with
  | .bank d i _ _, .bank e j _ _ => decide (d = t) && decide (e = t) && decide (i = j)
  | _, _ => false

/-- R337: the occupancy of an MMA. -/
def mmaOcc (t : Nat) (a b : Operand) : Nat :=
  let n := if Num.width a.fmt.code = 32 && !(a.fmt.code = 1 && b.fmt.code = 1) then 32 else 16
  if sameBank t a b then 2 * n else n

/-- R23: a matrix step at a 4-bit or narrower format runs in this window. -/
def State.markNarrow (s : State) (code : Nat) : State := if Num.width code ≤ 4 then { s with power := { s.power with narrow := true } } else s

/-- MMA (R339, R160). -/
def execMma (S n a b : Nat) (s : State) : Out :=
  matStep S s n fun s t c =>
    withRows s t c [a, b] (fun _ => 16)
      (fun fs => match fs with
        | [fa, fb] => if Num.width fa.code ≠ Num.width fb.code ∨ fa.int ≠ fb.int then some causeFormat else none
        | _ => none)
      fun s os => match os with
        | [(oa, ra), (ob, rb)] =>
          let (els, fl) := mmaOf (s.ctx t c).rnd.toNat oa.fmt.int ((s.tile t).acc.getD n {}).els (s.mRows oa.fmt ra) (s.mRows ob.fmt rb)
          let s := s.markNarrow oa.fmt.code
          .done ((s.advanceAll t c [(a, 16), (b, 16)]).holdUnit t c n (mmaOcc t oa ob) (some els) fl)
        | _ => .hold s

/-- MZERO (R340): the unit is held for one cycle and the words are zero at once for every later step (R338). -/
def execMzero (S n : Nat) (s : State) : Out :=
  matStep S s n fun s t _ =>
    .done (s.updTile t fun v => { v with acc := v.acc.set n { v.acc.getD n {} with els := List.replicate 256 0 }, mfree := s.cyc + 1 })

/-- The vectors that hold 256 elements of a format (R337). -/
def vecs256 (f : OFmt) : Nat := moves 256 f.e

/-- MLOAD (R341). -/
def execMload (S n a : Nat) (s : State) : Out :=
  matStep S s n fun s t c =>
    withRows s t c [a] vecs256 (fun _ => none) fun s os => match os with
      | [(o, rows)] =>
        let mode := Num.rmode (s.ctx t c).rnd.toNat
        let els := ((s.mRows o.fmt rows).flatten.take 256).map fun x =>
          if o.fmt.int then BitVec.ofInt 32 x.i else BitVec.ofNat 32 (Num.toFp32 mode x.v).1
        .done (((s.markNarrow o.fmt.code).advanceAll t c [(a, vecs256 o.fmt)]).holdUnit t c n (6 + vecs256 o.fmt) (some els) 0)
      | _ => .hold s

/-- One vector of an MDRAIN: its elements from the first on, as bits, and how many bits they are. -/
def drainBits (w : Nat) (els : List (Nat × Nat)) : Nat × Nat := (els.foldr (fun x acc => x.1 + 2 ^ w * acc) 0, w * els.length)
/-- The vectors of an MDRAIN to a stream from i on, with what each carries (R326): elements past the 256th are free values (log 4). -/
def State.drainLoop (s : State) (t c prog : Nat) (o : Operand) (sv : StreamVec) (els : List (Nat × Nat)) (i fl : Nat) : Nat → State × Nat × Nat × Option Stop
  | 0 => (s, i, fl, none)
  | n + 1 =>
    let e := o.fmt.e
    let xs := (els.drop (i * e)).take e
    let old : Vec := toVec ((List.range 8).foldl (fun a j => a + 2 ^ (64 * j) * (Config.freeWord 1 (s.uses + j)).toNat) 0)
    let s1 := if xs.length < e then { s with uses := s.uses + 8 } else s
    match s1.writeVec t c o (i - prog) { sv with data := packVec (Num.width o.fmt.code) (if xs.length < e then old else 0) (xs.map (·.1)) } with
    | .trap k a => (s, i, fl, some (.trap k a))
    | .fault pva va => (s, i, fl, some (.fault pva va true))
    | .noUnit => (s, i, fl, some .noUnit)
    | .ok s2 => s2.drainLoop t c prog o sv els (i + 1) (xs.foldl (fun f x => f ||| x.2) fl) n

/-- MDRAIN (R342): the words are read whole when the drain begins. A bank takes its vectors, and FFL their flags, when the drain lands (R337, log 8); on a
stream they are produced at the issue, which raises the traps of R131: one that traps partway keeps the vectors produced. -/
def execMdrain (S n a m : Nat) (s : State) : Out :=
  matStep S s n fun s t c =>
    let prog := s.progOf t c
    if s.selBad t c a true then .fail s causeIllegal
    else match s.operand t c a (s.tile t).bank.els 0 with
    | .error e => .fail s e
    | .ok o =>
      if o.fmt.bad || o.fmt.noWrite then .fail s causeFormat
      else if isStr a && decide (4 ≤ ((s.ctx t c).str.getD (a - 8) {}).ahead.length) then .park s 2 prog 0
      else
        let x := s.ctx t c
        let rnd := x.rnd.toNat
        let els := ((s.tile t).acc.getD n {}).els.map fun w =>
          if m % 2 = 1 then
            if o.fmt.int then Num.encodeInt o.fmt.code rnd w.toInt else encEl o.fmt rnd (Num.ofInt w.toInt)
          else encEl o.fmt rnd (Num.fp32 w.toNat)
        let e := o.fmt.e
        let total := vecs256 o.fmt
        let s := s.markNarrow o.fmt.code
        match o.at_ with
        | .bank d b k st =>
          let rows := (List.range total).map fun i => (spadLine d b (pStep k st i), drainBits (Num.width o.fmt.code) ((els.drop (i * e)).take e))
          .done (((s.advance t c a total).updTile t fun v => v.takeBank s.cyc b total).holdUnit t c n (6 + total) none 0
            rows (BitVec.ofNat 8 (els.foldl (fun f x => f ||| x.2) 0)))
        | _ =>
          let sv : StreamVec := { data := 0, iter := x.iter, pc := x.pc, insn := (match s.cur with | some u => u.insn | none => 0) }
          let (s1, i, fl, st) := s.drainLoop t c prog o sv els prog 0 (total - prog)
          let s1 := (s1.advance t c a (i - prog)).addFfl t c (BitVec.ofNat 8 fl) 0
          match st with
          | some e => stopIss s1 t c i true e
          | none => .done (s1.holdUnit t c n (6 + total) none 0)

/-- A drain's vector reaches its bank whole (R342, R143): beyond its elements it keeps what the bank holds. -/
def State.drainVec (s : State) (t : Nat) (r : Nat × Nat × Nat) : State :=
  let (line, v, n) := r
  s.applyWrite (s.partOf t) 0 (64 * line) 64 (v + (s.line line).toNat / 2 ^ n * 2 ^ n) none false false

/-- MATRIX_STEP_LAND (R337): the result and its flags land at the end of the occupancy and the unit frees; a drain writes its vectors. -/
def execMatrixStepLand (tile : Nat) (s : State) : Out :=
  match (s.tile tile).mrun with
  | none => .next s
  | some m =>
    if s.cyc < m.till then .next s
    else
      let s := s.updTile tile fun v =>
        let a := v.acc.getD m.acc {}
        { v with mrun := none, acc := v.acc.set m.acc { a with els := m.els.getD a.els, flags := a.flags ||| m.flags } }
      let s := m.drain.foldl (fun s r => s.drainVec tile r) s
      let s := if s.alive tile m.ctx m.gen then s.addFfl tile m.ctx m.ffl 0 else s
      .next (s.settle tile m.ctx)

/-! ## Ownership and flags (R343, R344) -/

/-- Whether a step on an accumulator has not landed. -/
def Tile.accBusy (v : Tile) (n : Nat) : Bool := match v.mrun with | some m => decide (m.acc = n) | none => false

/-- MACQ (R343, R132): acquire (r even) or release. -/
def execMacq (S n r : Nat) (s : State) : Out :=
  issue S s fun s t c =>
    let v := s.tile t
    let a := v.acc.getD n {}
    let own := fun (o : Option Nat) => s.updTile t fun v => { v with acc := v.acc.set n { v.acc.getD n {} with owner := o } }
    if r % 2 = 1 then
      if a.owner ≠ some c then .fail s causeAccOwner
      else if v.accBusy n then .hold s
      else .done (own none)
    else if bit (s.ctx t c).role.toNat 0 then .fail s causeIllegal
    else match a.owner with
      | none => .done (own (some c))
      | some o => if o = c then .done s else .fail s causeAccOwner

/-- MSTAT (R344). -/
def execMstat (S n r : Nat) (s : State) : Out :=
  issue S s fun s t c =>
    let v := s.tile t
    if v.notOwner n c then .fail s causeAccOwner
    else if v.accBusy n then .hold s
    else if r % 2 = 1 then .done (s.updTile t fun v => { v with acc := v.acc.set n { v.acc.getD n {} with flags := 0 } })
    else .done s

end Sys2Proof.Machine
end

