-- ==== Sys2Proof/Machine/ConfigInstr.lean ====
section
/-!
DEFINITION. The configuration instructions (R320 to R325): bank formats, pointers, vector length and streams; and the reading of a
block of memory that an instruction names (R299, R324).
-/
namespace Sys2Proof.Machine

/-- BFMT (R320): a reserved bit set traps ILLEGAL and leaves the register as it was. -/
def execBfmt (S n a : Nat) (s : State) : Out :=
  issue S s fun s t c => withOps s t c [a] [] fun vs s =>
    let v := (arg1 vs).toNat
    if bits v 31 16 ≠ 0 ∨ bits v 7 6 ≠ 0 then .fail s causeIllegal
    else .done (s.updTile t fun w => { w with bank := w.bank.set n (arg1 vs) })

/-- R321: whether an earlier vector instruction of the context that names a selector has yet to advance it. A matrix step advances
its pointers at its issue. -/
def State.namesSel (s : State) (t c sel : Nat) : Bool :=
  (s.tile t).vq.any (fun o => decide (o.ctx = c) && ((vopReads o.vop o.d o.a o.b).contains sel || (!vopRed o.vop && decide (o.d = sel))))

/-- PSET (R321): all 64 bits, unchecked. -/
def execPset (S a p : Nat) (s : State) : Out :=
  issue S s fun s t c => withOps s t c [a] [] fun vs s =>
    if s.namesSel t c p then .hold s else .done (s.updCtx t c fun x => { x with ptr := x.ptr.set p (arg1 vs) })

/-- PGET (R321). -/
def execPget (S d p : Nat) (s : State) : Out :=
  issue S s fun s t c => withOps s t c [] [d] fun _ s =>
    if s.namesSel t c p then .hold s else .done (s.setX t c d ((s.ctx t c).ptr.getD p 0) 2)

/-- SETVL (R322). -/
def execSetvl (S d a : Nat) (s : State) : Out :=
  issue S s fun s t c => withOps s t c [a] [d] fun vs s =>
    let n := (arg1 vs).toNat
    if n = 0 then .fail s causeIllegal
    else
      let vl := min n 2048
      .done ((s.updCtx t c fun x => { x with vl := vl }).setX t c d (BitVec.ofNat 64 vl) 2)

/-! ## Blocks of memory -/

/-- What reading a block gives: its bytes as a number with whether a line of it is poisoned; or how the issue ends. -/
inductive Block | bytes (s : State) (v : Nat) (poison : Bool) | stop (i : Iss)

/-- n × 8 bytes from va on, each doubleword a load of its own (R299): the store buffer, L1, then the home. -/
def State.loadWords (s : State) (t c va : Nat) : Nat → Block
  | 0 => .bytes s 0 false
  | n + 1 =>
    match s.access t c va 8 true false false false with
    | .stop i => .stop i
    | .at_ s pa e =>
      let r := { s.reqOf t c .load va pa 8 e with id := s.nextId }
      if s.portHolds t c true then .stop (.hold s)
      else if s.rejects r then .stop (.trap s causePageRights (BitVec.ofNat 64 va) 0)
      else if r.pastBuffer && s.sbHas t (pa / 64) then .stop (.hold s)
      else
        let got : Option (State × Nat × Bool) := match s.localLoad r with
          | some (v, p) => some (s, v, p)
          | none =>
            if s.homeWaits r then none
            else
              some (s.readNow t c pa 8 e)
        match got with
        | none => .stop (.hold s)
        | some (s, v, p) => match s.loadWords t c (va + 8) n with
          | .stop i => .stop i
          | .bytes s w q => .bytes s (v + 2 ^ 64 * w) (p || q)

/-- A block of n × 8 bytes at va, 8-byte aligned, checked as a whole first (R134). -/
def State.loadBlock (s : State) (t c va n : Nat) : Block :=
  if va % 8 ≠ 0 then .stop (.trap s causeMisalign (BitVec.ofNat 64 va) 0)
  else match s.segCheck t (s.ctx t c).seg va (8 * n) true false false with
    | .error k => .stop (.trap s k (BitVec.ofNat 64 va) 0)
    | .ok _ => s.loadWords t c va n

/-! ## Streams (R323 to R325) -/

/-- A stream register of a context. -/
def Ctx.stream (x : Ctx) (r : Nat) : Stream := x.str.getD r {}
/-- Whether an output stream has vectors produced and not applied. -/
def Stream.undrained (x : Stream) : Bool := x.bound && x.out && !x.ahead.isEmpty

/-- SUNBIND's effect (R324): the unit is released and the register unbound; another bound stream may take the unit (R131). -/
def State.unbind (s : State) (t c r : Nat) : State := (s.updCtx t c fun x => { x with str := x.str.set r {} }).grantUnits t

/-- A binding from its 48-byte block (R323). -/
def Stream.ofBlock (v : Nat) : Stream :=
  { bound := true, base := bits v 63 0, fmt := bits v 68 64, out := bit v 72
    dims := (List.range 4).map fun i => (bits v (127 + 64 * i) (96 + 64 * i), sgn 32 (bits v (159 + 64 * i) (128 + 64 * i)))
    pos := bits v 383 352 }

/-- R324: the checks of a block after its address and poison: FORMAT, then ILLEGAL. -/
def bindBad (v : Nat) : Option Nat :=
  let x := Stream.ofBlock v
  if 18 ≤ x.fmt then some causeFormat
  else if bits v 71 69 ≠ 0 || bits v 95 73 ≠ 0 || x.dims.any (fun d => decide (d.1 = 0) || decide (d.2 % 64 ≠ 0)) || decide (x.base % 64 ≠ 0)
    || decide (x.total ≤ x.pos) then some causeIllegal
  else none

/-- Whether a request is of the block read of an SBIND at an address. -/
def Req.binds (r : Req) (t c : Nat) (pc : Word) : Bool := decide (r.kind = .sbind) && decide (r.tile = t) && decide (r.ctx = c) && decide (r.pc = pc)

/-- The requests of the block read of an SBIND, one for each line of its 48 bytes (R324): from va on, at offset off of the block, n bytes; or how the
issue ends. k bounds the lines. -/
def State.bindReqs (s : State) (t c sr va off n : Nat) : Nat → State ⊕ Iss
  | 0 => .inl s
  | k + 1 =>
    if n = 0 then .inl s
    else
      let m := min n (64 - va % 64)
      match s.access t c va m true false false false with
      | .stop i => .inr i
      | .at_ s pa e => match s.bindReqs t c sr (va + m) (off + m) (n - m) k with
        | .inr i => .inr i
        | .inl s => .inl (s.addReq { s.reqOf t c .sbind va pa m e with dst := sr, op := off, lag := 511 })

/-- SBIND (R324): a bound register is unbound first; then the block is read, as a load in every respect, its context parked with PARK 2. -/
def execSbind (S a r : Nat) (s : State) : Out :=
  issue S s fun s t c => withOps s t c [a] [] fun vs s =>
    let va := (arg1 vs).toNat
    let st := (s.ctx t c).stream r
    if st.undrained || s.reqs.any (·.binds t c (s.ctx t c).pc) then .park s 2 0 0
    else
      let s := if st.bound then s.unbind t c r else s
      if va % 8 ≠ 0 then .trap s causeMisalign (BitVec.ofNat 64 va) 0
      else match s.segCheck t (s.ctx t c).seg va 48 true false false with
      | .error k => .trap s k (BitVec.ofNat 64 va) 0
      | .ok _ =>
        if s.portHolds t c true && decide (15 ≤ s.heldCount t c) then .hold s
        else match s.bindReqs t c r va 0 48 2 with
          | .inr i => i
          | .inl s => .park s 2 0 0

/-- The block of an SBIND has landed (R324): a failing check leaves the register unbound, and traps; else it is bound, and its context goes on. Of a crown
that has entered its handler meanwhile the instruction is evaluated afresh after TRET (R258). -/
def State.bindLand (s : State) (t c : Nat) (pc : Word) : State :=
  let rs := s.reqs.filter (·.binds t c pc)
  if rs.any fun r => decide (r.stage ≠ .reply) then s
  else
    let s := { s with reqs := s.reqs.filter fun r => !r.binds t c pc }
    match rs with
    | [] => s
    | r :: _ =>
      let x := s.ctx t c
      if !s.alive t c r.gen || decide (x.park ≠ 2) || (match x.latch with | some l => decide (l.pc ≠ pc) | none => true) then s
      else
        let v := rs.foldl (fun v q => v + q.data * 2 ^ (8 * q.op)) 0
        let base := rs.foldl (fun n q => min n q.va) r.va
        if rs.any (·.poison) then s.takeTrap t c { cause := causePoison, pc, insn := r.insn, addr := BitVec.ofNat 64 base }
        else match bindBad v with
          | some k => s.takeTrap t c { cause := k, pc, insn := r.insn }
          | none => ((s.updCtx t c fun x => { x with str := x.str.set r.dst (Stream.ofBlock v) }).completeLatched t c).grantUnits t

/-- SUNBIND (R324). -/
def execSunbind (S r : Nat) (s : State) : Out :=
  issue S s fun s t c =>
    let st := (s.ctx t c).stream r
    if !st.bound then .done s else if st.undrained then .park s 2 0 0 else .done (s.unbind t c r)

/-- SDRAIN (R325): mask 0 names all eight. -/
def execSdrain (S m : Nat) (s : State) : Out :=
  issue S s fun s t c =>
    if (List.range 8).any (fun r => (m = 0 || bit m r) && ((s.ctx t c).stream r).undrained) then .park s 2 0 0 else .done s

end Sys2Proof.Machine
end

