-- ==== Sys2Proof/Machine/Paging.lean ====
section
/-!
DEFINITION. Translation faults (R178, R179), storage paging (R60 to R66), and shootdown (R180, R181).
-/
namespace Sys2Proof.Machine

/-! ## Waits of engines (R222, R253, R260, R414) -/

/-- Whether a party other than a context already waits for a page or an acknowledgement. -/
def State.waitsFor (s : State) (p : Nat) (who : AckFor) (ref : Nat) : Bool :=
  let f := fun (x : PageFault) => decide (x.who = who) && decide (x.ref = ref)
  let g := fun (r : TrapRec) => decide (r.who = who) && decide (r.ref = ref)
  s.faults.any f || s.pageWait.any f || s.pages.any (fun x => x.faults.any f) || (s.tq p).waitRecs.any g || (s.tq p).live.any fun x => g x.2

/-- The save of a group is given up, for its launch ends (R124): it stays off its tile. -/
def State.stay (s : State) (k g : Nat) : State :=
  s.updGroup k g fun x => { x with place := .displaced, phase := 4, target := none, out := [] }

/-- A party's work ends in error (R260, R66): a copy completes FAULT, a step fails, a launch ends, a completion word is abandoned, a
SIGNAL or WAITV completes FAULT (its ref is its command), a held packet is refused. -/
def State.engFail (s : State) (who : AckFor) (ref : Nat) : State :=
  match who with
  | .ctx => s
  | .copy => { s with queues := Tbl.mapV (fun _ q => q.map fun (c : CopyCmd) => if c.id = ref then { c with status := 8 } else c) s.queues }
  | .collective => { s with steps := s.steps.map fun (x : CollStep) => if x.id = ref then { x with failed := true } else x }
  | .save =>
    let back := (match Tbl.find? s.launches ref with | some l => l.groups | none => []).filter fun (g : Nat × GroupSt) => decide (g.2.phase = 3)
    (back.foldl (fun (s : State) (g : Nat × GroupSt) => s.stay ref g.1) s).endLaunch ref []
  | .cword => { s with cwords := s.cwords.map fun (w : CWord) => if w.id = ref then { w with abandoned := true } else w }
  | .signal =>
    match s.windows.find? (fun (q : Nat × Window) => match q.2.run with | some r => decide (r.cmd.uid = ref) | none => false) with
    | some q => s.completeCmd (q.1 / 16) (q.1 % 16) 8 0
    | none => s
  | .eth => { s with heldPackets := s.heldPackets.map fun (h : HeldPacket) => if h.id = ref then { h with failed := true } else h }

/-- An engine's access meets a page that is not present, or a MIG page it would write: it waits for service, asked for once. c is the
context on whose behalf it acts with its generation, or none (R260). -/
def State.engWait (s : State) (who : AckFor) (ref p launch group : Nat) (c : Option (Nat × Nat)) (pva : Nat) (w : Walk) : State :=
  if s.waitsFor p who ref then s
  else
    let f : PageFault := { id := s.nextId, asid := (s.partAsid p).1, part := p, pva, tile := 0, ctx := 0, gen := 0
                           launch := p * 65536 + launch, group, who, ref, stage := 5 }
    let s := s.engUse f.asid
    match w with
    | .storage _ _ _ _ _ _ => State.fresh { s with faults := s.faults ++ [f] }
    | .page _ => State.fresh { s with faults := s.faults ++ [{ f with stage := 4 }] }
    | .absent d =>
      let (cx, g) := c.getD (0xFF, 0)
      s.pushRec p { kind := 2, code := causePageAbsent, detail := d, launch, group, ctx := cx, gen := g, addr := BitVec.ofNat 64 pva
                    aux := BitVec.ofNat 64 (s.partAsid p).1, at_ := s.CYC, who, ref }

/-! ## Fault messages and their combining (R179) -/

/-- The key of a fault: its page, and whether it is a sub-page (R176). -/
def State.faultKey (s : State) (f : PageFault) : Nat × Bool :=
  let sub := ((s.asidOf f.tile f.asid).region f.pva).isSome
  (f.pva / (if sub then 1024 else 0x200000), sub)

/-- Whether two faults of one die have one key. -/
def State.sameKey (s : State) (f g : PageFault) : Bool :=
  decide (f.who = .ctx) && decide (g.who = .ctx) && decide (f.tile / 1024 = g.tile / 1024) && decide (f.asid = g.asid) && s.faultKey f = s.faultKey g

/-- A router of a die, as one number. -/
def routerNum (die x y : Nat) : Nat := die * 128 + 8 * x + y
/-- The port by which a message of origin (x0, y0) arrives at (x, y), X before Y: 0 local, 1 and 2 from lower and higher x, 3 and 4 from
lower and higher y. -/
def arrivalPort (x0 y0 x y : Nat) : Nat :=
  if x = x0 ∧ y = y0 then 0 else if y = y0 then (if x0 < x then 1 else 2) else if y0 < y then 3 else 4
/-- The next router on the way to the pager at (8, 4). -/
def towardsPager (x y : Nat) : Nat × Nat :=
  if x < 8 then (x + 1, y) else if 8 < x then (x - 1, y) else if y < 4 then (x, y + 1) else if 4 < y then (x, y - 1) else (x, y)

/-- The fault replaced. -/
def State.setFault (s : State) (f : PageFault) : State := { s with faults := s.faults.map fun (g : PageFault) => if g.id = f.id then f else g }

/-- FAULT_MESSAGE (R179): the message at a router joins the entry of its key, or opens one where one is free and moves on. -/
def execFaultMessage (id : Nat) (s : State) : Out :=
  match s.faults.find? (fun (f : PageFault) => decide (f.id = id)) with
  | none => .next s
  | some f =>
    if f.stage ≠ 0 then .next s
    else if f.rx = 8 ∧ f.ry = 4 then .next (s.setFault { f with stage := 2 })
    else
      let (page, sub) := s.faultKey f
      let r := routerNum (f.tile / 1024) f.rx f.ry
      let es := Tbl.getD s.combine r []
      let (x0, y0) := routerOf f.tile
      let port := arrivalPort x0 y0 f.rx f.ry
      let isKey := fun (e : Combine) => decide (e.asid = f.asid) && decide (e.page = page) && e.sub == sub
      if es.any isKey then
        let es := es.map fun (e : Combine) => if isKey e then { e with ports := if e.ports.contains port then e.ports else e.ports ++ [port] } else e
        .next ((State.setFault { s with combine := Tbl.put s.combine r es } { f with stage := 1 }))
      else
        let es := if es.length < 32 then es ++ [{ asid := f.asid, page, sub, ports := [port] }] else es
        let (x, y) := towardsPager f.rx f.ry
        .next (State.setFault { s with combine := Tbl.put s.combine r es } { f with rx := x, ry := y })

/-- The entries of a key leave every router of the die (R179). -/
def State.freeCombine (s : State) (f : PageFault) : State :=
  let (page, sub) := s.faultKey f
  let die := f.tile / 1024
  { s with combine := Tbl.mapV (fun r es => if r / 128 = die then
      es.filter fun (e : Combine) => !(decide (e.asid = f.asid) && decide (e.page = page) && e.sub == sub) else es) s.combine }

/-- The faults that a wake or a trap for f reaches: f itself and those absorbed under its key. -/
def State.waitersOf (s : State) (f : PageFault) : List PageFault :=
  s.faults.filter fun g => decide (g.id = f.id) || (decide (g.stage = 1) && s.sameKey f g)
/-- R124: whether the group of a fault migrates, its wait included, or is displaced, so that what becomes of the fault is held for it. -/
def State.heldOff (s : State) (f : PageFault) : Bool := s.groupMoves f.launch f.group
/-- The tile where the context of a fault now lies (R124): none while its group migrates or is displaced. -/
def State.whereIs (s : State) (f : PageFault) : Option Nat :=
  if s.heldOff f then none
  else match Tbl.find? s.launches f.launch with
  | some l => (l.tileOf f.group).filter fun t => (s.tile t).grp = some ⟨f.launch, f.group⟩
  | none => none

/-- The trap of a context that waits on a page (R179): its latched instruction is the trapping one, or its fetch. -/
def State.trapParked (s : State) (f : PageFault) (cause detail : Nat) : State :=
  match s.whereIs f with
  | none => s
  | some t =>
    let x := s.ctx t f.ctx
    if !s.alive t f.ctx f.gen ∨ x.park ≠ 9 then s
    else
      let l : Latch := x.latch.getD { pc := x.pc, fetch := true }
      s.takeTrap t f.ctx { cause, pc := l.pc, insn := l.insn, fetch := l.fetch, prog := l.prog, detail
                           addr := BitVec.ofNat 64 f.pva, vaddr := some (BitVec.ofNat 64 f.va), aux := BitVec.ofNat 64 f.asid }

/-- Faults end in a trap of their contexts (R179, R66); one whose group is away takes it after the resume (R124). -/
def State.trapWaiters (s : State) (ws : List PageFault) (cause detail : Nat) : State :=
  let away := (ws.filter s.heldOff).map (·.id)
  let here := ws.filter fun g => !s.heldOff g
  let gone := here.map (·.id)
  let s := { s with faults := (s.faults.filter fun g => !gone.contains g.id).map fun g =>
               if away.contains g.id then { g with stage := 7, trap := some (cause, detail) } else g }
  here.foldl (fun (s : State) g => s.trapParked g cause detail) s

/-- R178: a die's second level takes an entry; it holds 32,768, and the oldest leaves. -/
def State.tlb2Fill (s : State) (die : Nat) (e : Xlat) : State :=
  let (here, other) := s.tlb2.partition fun q => decide (q.1 = die)
  { s with tlb2 := ((die, e) :: here.filter fun q => q.2 ≠ e).take 32768 ++ other }

/-- PAGER_WALK (R179): the die's pager takes a fault into service, 256 at a time, walks the tables and acts by what it finds. -/
def execPagerWalk (id : Nat) (s : State) : Out :=
  match s.faults.find? (fun (f : PageFault) => decide (f.id = id)) with
  | none => .next s
  | some f =>
    let die := f.tile / 1024
    let held := s.faults.filter fun g => decide (4 ≤ g.stage) && decide (g.stage < 7) && decide (g.who = .ctx) && decide (g.tile / 1024 = die)
    if f.stage ≠ 2 ∨ 256 ≤ held.length then .next s
    else
      let s := s.holdAsid f.tile f.asid
      let en := (s.partAsid f.part).2
      let h := s.asidOf f.tile f.asid
      let s := if h.serves f.part en then s.walked h f.pva else s
      match s.walk h f.part f.pva en with
      | .page e =>
        if f.rw && e.mig then .next (s.setFault { f with stage := 4 })
        else
          let lacks := fun (g : PageFault) => (g.rd && !e.r) || (g.wr && !e.w) || (g.xq && !e.x)
          let (bad, good) := (s.waitersOf f).partition lacks
          let s := (s.tlb2Fill die e).trapWaiters bad causePageRights 0
          match good with
          | [] => .next (s.freeCombine f)
          | g :: _ => .next (s.setFault { (if good.contains f then f else g) with stage := 6 })
      | .storage _ _ _ _ _ _ => .next (s.setFault { f with stage := 5 })
      | .absent d => .next ((s.freeCombine f).trapWaiters (s.waitersOf f) causePageAbsent d)

/-- A context parked on its translation wakes (R109); it translates afresh. -/
def State.wakeFault (s : State) (f : PageFault) : State :=
  match s.whereIs f with
  | none => s
  | some t => if s.alive t f.ctx f.gen ∧ (s.ctx t f.ctx).park = 9 then s.updCtx t f.ctx fun x => x.wake s.cyc else s

/-- FAULT_WAKE (R179, R124): the wake retraces the ports, frees the entries and wakes the contexts; for a group that migrates or is
displaced it is held until the resume, as is the trap of such a group. -/
def execFaultWake (id : Nat) (s : State) : Out :=
  match s.faults.find? (fun (f : PageFault) => decide (f.id = id)) with
  | none => .next s
  | some f =>
    let gone := fun (s : State) (ids : List Nat) => { s with faults := s.faults.filter fun g => !ids.contains g.id }
    if f.stage = 7 then
      if s.heldOff f then .next s
      else match f.trap with
        | some (cause, detail) => .next ((gone s [id]).trapParked f cause detail)
        | none => .next ((gone s [id]).wakeFault f)
    else if f.stage ≠ 6 then .next s
    else if f.who ≠ .ctx then .next (gone s [id])
    else
      let ws := s.waitersOf f
      let here := ws.filter fun g => !s.heldOff g
      let away := (ws.filter s.heldOff).map (·.id)
      let s := here.foldl (fun (s : State) g => s.wakeFault g) (gone (s.freeCombine f) (here.map (·.id)))
      .next { s with faults := s.faults.map fun (g : PageFault) => if away.contains g.id then { g with stage := 7 } else g }

/-! ## The storage queue engines (R60 to R66) -/

/-- Namespace table entry k as one number (R62). -/
def State.nsEnt (s : State) (k : Nat) : Nat := (s.pfr (0x5000 + 16 * k)).toNat + 2 ^ 64 * (s.pfr (0x5008 + 16 * k)).toNat
/-- R59: whether an SSD is there: a × 16 port carries only the SSD of its link 0. -/
def State.ssdThere (s : State) (d : Nat) : Bool := d % 4 = 0 || nth s.boot.storBif (d / 4) 0 = 1
/-- Whether the page of a storage-backed entry can be read for a partition: the namespace is valid, of the partition, with a block size
of 512 or 4,096 bytes, and the page lies within it; and its SSD, which is there and whose link is up (R59, R62, R66). -/
def State.nsSsd (s : State) (p ns lba : Nat) : Option Nat :=
  let e := s.nsEnt ns
  let sh := bits e 21 18
  if bit e 0 && decide (bits e 31 26 = p) && (sh = 9 || sh = 12) && decide (lba + 2 ^ (21 - sh) ≤ bits e 127 64) && s.ssdThere (bits e 25 22)
    && !bit s.ssdDown (bits e 25 22)
  then some (bits e 25 22) else none

/-- The free-frame pool of a partition. -/
def State.pool (s : State) (p : Nat) : Pool := Tbl.getD s.pools p {}
/-- LOW_WM of a partition (R63). -/
def State.lowWm (s : State) (p : Nat) : Nat := (s.pfr (0x6010 + 32 * p)).toNat % 2 ^ 17

/-- The oldest frame is taken, with the watermark interrupt at the crossing (R64). -/
def State.takeFrame (s : State) (p : Nat) : Option (State × Nat) :=
  match (s.pool p).frames with
  | [] => none
  | f :: rest =>
    let s1 := { s with pools := Tbl.put s.pools p { s.pool p with frames := rest } }
    let wm := s.lowWm p
    some (if rest.length < wm ∧ wm ≤ rest.length + 1 then s1.raise 0 (64 + p) else s1, f)
/-- A frame returns to its pool, and is kept though that holds 65,536 already: the spec gives none a refusal but a push (DESIGN CHOICE, log 55). -/
def State.giveFrame (s : State) (p f : Nat) : State :=
  { s with pools := Tbl.put s.pools p { s.pool p with frames := (s.pool p).frames ++ [f] } }

/-- Pages waiting for a frame take frames in the order in which they began to wait (R64). -/
def State.feedPages (s : State) (p : Nat) : State :=
  match s.pages.find? (fun (x : PageSvc) => decide (x.part = p) && x.frame.isNone) with
  | none => s
  | some x => match s.takeFrame p with
    | none => s
    | some (s, f) => { s with pages := s.pages.map fun (y : PageSvc) => if y.id = x.id then { y with frame := some f } else y }

/-- The number of Read commands that bring a page from an SSD (R60): the 2 MiB divided by the largest transfer, 2^n pages of 4 KiB. -/
def readCount (ssd : Nat) : Nat := 2 ^ (9 - Config.mdts ssd)
/-- R65: the paging queue pair of an SSD: (4 × p + j) mod 48 + 1 for link j of port p. -/
def pagingQueue (ssd : Nat) : Nat := ssd % 48 + 1
/-- The Reads of a page into its frame (R60, R62, R65), each with the PRP list of its part of the frame. -/
def PageSvc.commands (x : PageSvc) (ent frame : Nat) : List PageRead :=
  let n := readCount x.ssd
  let blocks := 2 ^ (21 - bits ent 21 18) / n
  (List.range n).map fun i => {
    queue := pagingQueue x.ssd, nsid := bits ent 63 32, slba := x.lba + i * blocks, blocks
    prps := (List.range (512 / n)).map fun j => frame + 4096 * (512 / n * i + j) }
/-- The entries taken of a paging queue of an SSD. -/
def State.readsOut (s : State) (ssd queue : Nat) : Nat :=
  s.pages.foldl (fun n x => if x.ssd = ssd then n + (x.reads.filter fun r => decide (r.queue = queue)).length else n) 0
/-- Pages that have a frame submit their Reads in order, as their queue of 1,024 entries has room for them (R60, log 55). One whose namespace entry has
had VALID cleared meanwhile still submits them, by the entry as it then stands: R62 gives it no other end (DESIGN CHOICE, log 55). -/
def State.submitReads (s : State) : State :=
  s.pages.foldl (fun (s : State) x => match x.frame with
    | some f =>
      let rs := x.commands (s.nsEnt x.ns) f
      if x.reads.isEmpty ∧ s.readsOut x.ssd (pagingQueue x.ssd) + rs.length ≤ 1024 then
        { s with pages := s.pages.map fun (y : PageSvc) => if y.id = x.id then { y with reads := rs, since := s.hub } else y }
      else s
    | none => s) s

/-- A storage fault ends in error for its waiters (R66): each context takes STORAGE_ERROR, an engine's work ends in error. -/
def State.storageError (s : State) (f : PageFault) : State :=
  if f.who = .ctx then (s.freeCombine f).trapWaiters (s.waitersOf f) causeStorageError 0
  else { (s.engFail f.who f.ref) with faults := s.faults.filter fun g => decide (g.id ≠ f.id) }

/-- A storage fault enters service (R65): it joins its page, or begins one, which takes a frame and has its Reads submitted; a page of no readable
namespace fails at once. -/
def State.servePage (s : State) (f : PageFault) : State :=
  let same := fun (x : PageSvc) => decide (x.part = f.part) && decide (x.pva = f.pva / 0x200000)
  if s.pages.any same then { s with pages := s.pages.map fun (x : PageSvc) => if same x then { x with faults := x.faults ++ [f] } else x }
  else
    let s := s.engUse f.asid
    let h := s.engAsid f.asid
    let s := if h.serves f.part true then s.walked h f.pva else s
    match s.walk h f.part f.pva true with
    | .storage lba ns _ _ _ _ =>
      match s.nsSsd f.part ns lba with
      | none => s.storageError f
      | some ssd =>
        let x : PageSvc := { id := s.nextId, part := f.part, asid := f.asid, pva := f.pva / 0x200000, entry := s.peekN (s.leafPa h f.pva) 8
                             ns, lba, ssd, faults := [f] }
        let s := if (s.pool f.part).frames.isEmpty then s.raise 0 (128 + f.part) else s
        ((State.fresh { s with pages := s.pages ++ [x] }).feedPages f.part).submitReads
    | _ => s.setFault { f with stage := 6 }

/-- Waiting faults enter service in arrival order while fewer than 4,096 pages are in it (R65); k bounds them. -/
def State.admitPages (s : State) : Nat → State
  | 0 => s
  | k + 1 => match s.pageWait with
    | [] => s
    | f :: rest => if 4096 ≤ s.pages.length then s else (State.servePage { s with pageWait := rest } f).admitPages k

/-- STORAGE_FAULT (R65): a fault joins a page in service or enters service; with 4,096 pages in it, or others waiting, it waits in arrival order. -/
def execStorageFault (id : Nat) (s : State) : Out :=
  match s.faults.find? (fun (f : PageFault) => decide (f.id = id)) with
  | none => .next s
  | some f =>
    if f.stage ≠ 5 ∨ (s.pageWait.any fun g => decide (g.id = id)) = true ∨ s.pages.any (fun x => x.faults.any fun g => decide (g.id = id)) = true then .next s
    else if s.pages.any (fun x => decide (x.part = f.part) && decide (x.pva = f.pva / 0x200000)) then .next (s.servePage f)
    else if 4096 ≤ s.pages.length ∨ s.pageWait ≠ [] then .next { s with pageWait := s.pageWait ++ [f] }
    else .next (s.servePage f)

/-- A page leaves service, and others of the engines' work go on. -/
def State.nextPages (s : State) (p : Nat) : State :=
  let s := s.feedPages p
  (s.admitPages s.pageWait.length).submitReads
/-- The waiters of a page in service are woken, and it leaves service. -/
def State.wakePage (s : State) (x : PageSvc) : State :=
  let s := { s with pages := s.pages.filter fun y => decide (y.id ≠ x.id) }
  x.faults.foldl (fun (s : State) f => s.setFault { f with stage := 6 }) s
/-- A page in service ends in error (R66): its frame returns. -/
def State.failPage (s : State) (x : PageSvc) : State :=
  let s := { s with pages := s.pages.filter fun y => decide (y.id ≠ x.id) }
  let s := match x.frame with | some f => s.giveFrame x.part f | none => s
  (x.faults.foldl (fun (s : State) f => s.storageError f) s).nextPages x.part
/-- The pages picked end in error, one after another. -/
def State.failPages (s : State) (pick : PageSvc → Bool) : State :=
  ((s.pages.filter pick).map (·.id)).foldl (fun (s : State) id => match s.pages.find? fun y => decide (y.id = id) with
    | some y => s.failPage y
    | none => s) s

/-- A frame's 2 MiB as the SSD's DMA leaves them in memory (R56): the bytes given by offset, zero elsewhere; no cached copy stays; the lines listed by
index are poisoned, the others clean. An OFFLINE range discards the writes (R58). -/
def State.fillFrame (s : State) (frame : Nat) (data : List Host.Cell) (bad : List Nat) : State :=
  let inside := fun (pa : Nat) => decide (frame ≤ pa) && decide (pa < frame + 0x200000)
  let s := { s with
    mem := { s.mem with cxl := s.mem.cxl.filter fun c => !inside (64 * c.1) }
    tiles := Tbl.mapV (fun _ v => { v with l1 := v.l1.filter fun c => !inside (64 * c.1) }) s.tiles }
  if s.offline frame then s
  else
    let there := fun (key : Nat) => match s.mrtOf frame with
      | some k => (s.keyPa k key).any inside
      | none => inside key
    let put := fun (m : List Host.Cell) (c : Host.Cell) =>
      if c.1 < 0x200000 then match s.memKey (frame + c.1) with | some k => Mem.putCell m k c.2 | none => m else m
    let keep := s.mem.poison.filter fun l => !there (64 * l)
    let new := (bad.filter (· < 32768)).filterMap fun l => (s.memKey (frame + 64 * l)).map (· / 64)
    { s with mem := { s.mem with cells := data.foldl put (s.mem.cells.filter fun c => !there c.1), poison := new.eraseDups ++ keep } }

/-- STORAGE_READ_COMPLETE (R65, R66): the Reads of a page complete; the entry is installed if it still is the one that faulted, and the wakes are sent. -/
def execStorageReadComplete (id : Nat) (ok : Bool) (data : List Host.Cell) (bad : List Nat) (s : State) : Out :=
  match s.pages.find? (fun (x : PageSvc) => decide (x.id = id)) with
  | none => .next s
  | some x =>
    match (if x.reads.isEmpty then none else x.frame) with
    | none => .next s
    | some frame =>
      if !ok then .next (s.failPage x)
      else
        let h := s.engAsid x.asid
        let pa := s.leafPa h (x.pva * 0x200000)
        let s := s.fillFrame frame data bad
        if s.peekN pa 8 ≠ x.entry then .next (((s.wakePage x).giveFrame x.part frame).nextPages x.part)
        else
          let v := x.entry % 16 / 2 * 2 + (if bit x.entry 6 then 64 else 0) + 16 + 1 + frame
          .next (((s.applyWrite x.part h.tenant pa 8 v none false false).wakePage x).nextPages x.part)

/-- STORAGE_TIMEOUT (R66): STOR_TMO hub cycles have passed since the Reads were submitted; the engine aborts them through the firmware's admin queue. -/
def execStorageTimeout (id : Nat) (s : State) : Out :=
  match s.pages.find? (fun (x : PageSvc) => decide (x.id = id)) with
  | none => .next s
  | some x =>
    if x.reads ≠ [] ∧ x.since + (s.pfr 0x6800).toNat % 2 ^ 32 ≤ s.hub then .next (s.failPage x) else .next s

/-- SSD_LINK_DOWN (R59, R66, R71): the pages in service on an SSD that is there end as for an error; PF vector 2; a non-fatal record goes to each enabled
partition with a namespace on it. -/
def execSsdLinkDown (ssd : Nat) (s : State) : Out :=
  if bit s.ssdDown ssd || !s.ssdThere ssd then .next s
  else
    let s := State.raise { s with ssdDown := s.ssdDown + 2 ^ ssd } 0 2
    let s := s.failPages fun x => decide (x.ssd = ssd)
    let parts := (List.range 64).filter fun p => (s.part p).enabled
      && (List.range 256).any fun k => bit (s.nsEnt k) 0 && decide (bits (s.nsEnt k) 31 26 = p) && decide (bits (s.nsEnt k) 25 22 = ssd)
    .next (parts.foldl (fun (s : State) p => s.pushRec p { kind := 3, code := 70, at_ := s.CYC, aux := BitVec.ofNat 64 ssd }) s)

/-- FREE_FRAME_PUSH (R63): a frame that is misaligned or outside the partition's ranges, or finds the pool full, sets REJ. -/
def execFreeFramePush (part : Nat) (v : Word) (s : State) : Out :=
  let f := v.toNat % 2 ^ 52
  let q := s.pool part
  let inRange := match s.mrtOf f with
    | some k => decide (s.mrtPart k = part) && decide (f + 0x200000 ≤ s.mrtBase k + s.mrtSize k)
    | none => false
  if f % 0x200000 ≠ 0 ∨ inRange = false ∨ 65536 ≤ q.frames.length then .next { s with pools := Tbl.put s.pools part { q with rej := true } }
  else .next ((State.feedPages { s with pools := Tbl.put s.pools part { q with frames := q.frames ++ [f] } } part).submitReads)

/-! ## Shootdown (R180, R181) -/

/-- Whether a shootdown covers a page. -/
def Shoot.covers (x : Shoot) (asid pva : Nat) : Bool :=
  decide (x.asid = asid) && (x.all || (decide (x.page ≤ pva / 0x200000) && decide (pva / 0x200000 < x.page + x.n)))
/-- Whether a shootdown covers a translation. -/
def Shoot.hits (x : Shoot) (e : Xlat) : Bool := x.covers e.asid (e.page * e.size)

/-- R181, R210: a stamped load that waits at the old home of a page shot down is withdrawn and re-issued to the new home with what it has counted of
SLIM. -/
def State.reissueStamped (s : State) (x : Shoot) : State :=
  { s with reqs := s.reqs.map fun r =>
      let p := s.partOf r.tile
      let asid := (s.partAsid p).1
      if r.kind = .ldaW ∧ r.stamped ∧ r.stage = .waiting ∧ x.covers asid r.pva = true then
        match s.walk (s.asidOf r.tile asid) p r.pva (s.partAsid p).2 with
        | .page e => { r with stage := .flight, pa := e.pa r.pva, spent := s.slimCount r }
        | _ => r
      else r }
/-- R203: the L1 copies that a shootdown invalidates: of the frames of the translations that it covers, and those that were filled by a covered page. -/
def State.shotL1 (s : State) (x : Shoot) : State :=
  let es := (s.tiles.flatMap fun (_, v) => v.tlb.filter fun e => x.hits e) ++ (s.tlb2.map (·.2)).filter fun e => x.hits e
  let hit := fun (line : Nat) (l : L1Line) => x.covers l.asid l.pva
    || es.any fun e => decide (e.frame ≤ 64 * line) && decide (64 * line < e.frame + e.size)
  { s with tiles := Tbl.mapV (fun _ (v : Tile) => { v with l1 := v.l1.filter fun c => !hit c.1 c.2 }) s.tiles }

/-- What SHOOT_CTL holds of a write: GO only writes and the reserved bits read 0 (R9, R180). -/
def shootCtl (w : Nat) : Word := BitVec.ofNat 64 (bits w 62 62 * 2 ^ 62 + bits w 60 48 * 2 ^ 48 + bits w 31 0)

/-- SHOOTDOWN_REQUEST (R180): a write of SHOOT_CTL. Covered translations leave every TLB and instruction cache, covered copies leave L1 (R203), partials of
the partition are gathered (R181), and the shootdown waits for the stores translated before it. -/
def execShootdownRequest (v : Word) (s : State) : Out :=
  let w := v.toNat
  let s := s.setPf 0xB408 (shootCtl w)
  if !bit w 63 || s.shoot.isSome then .next s
  else
    let a := (s.pfr 0xB400).toNat
    let all := bit w 62
    if bit w 61 ∨ bits w 47 32 ≠ 0 ∨ a % 0x200000 ≠ 0 ∨ bits a 63 52 ≠ 0 ∨ (all = false ∧ bits w 31 0 = 0) then .next (s.setPf 0xB410 2)
    else
      let x : Shoot := {
        asid := bits w 60 48, all, page := bits a 51 21, n := bits w 31 0
        stores := (s.reqs.filter fun r => (r.kind = .store || r.kind = .amo || r.kind = .elect || r.kind = .stc) && decide (r.stage ≠ .reply)).map (·.id) }
      let mark := fun (y : Ctx) => { y with str := y.str.map fun (st : Stream) => if st.out then { st with ahead := st.ahead.map fun v => { v with old := true } } else st }
      let h := s.asidEntry x.asid
      let reload := fun (gs : List AsidHeld) => if all then gs.map fun (g : AsidHeld) => if g.asid = x.asid then h else g else gs
      let lines := (s.tiles.flatMap fun (_, v) => v.parts.map (·.1)).eraseDups
      let s := lines.foldl (fun (s : State) l => s.gatherFrom h.part h.tenant l fun t => decide (s.partOf t = h.part)) s
      let s := s.shotL1 x
      let s := { s with
        tiles := Tbl.mapV (fun _ (v : Tile) => { v with
          tlb := v.tlb.filter fun e => !x.hits e
          icache := v.icache.filter fun e => !x.covers (e.1 / 2 ^ 52) (e.1 % 2 ^ 52)
          ctxs := Tbl.mapV (fun _ y => mark y) v.ctxs
          asids := reload v.asids }) s.tiles
        tlb2 := s.tlb2.filter (fun (q : Nat × Xlat) => !x.hits q.2)
        engAsids := reload s.engAsids }
      .next ((State.reissueStamped { s with shoot := some x } x).setPf 0xB410 1)

/-- SHOOTDOWN_COMPLETE (R180): every store and stream vector of an earlier epoch is acknowledged; BUSY clears and the writers held on MIG pages wake. -/
def execShootdownComplete (s : State) : Out :=
  match s.shoot with
  | none => .next s
  | some x =>
    let out := s.reqs.any fun r => x.stores.contains r.id && decide (r.stage ≠ .reply)
    let str := s.tiles.any fun q => q.2.ctxs.any fun y => y.2.str.els.any fun st => st.ahead.any (·.old)
    if out || str then .next s
    else
      let s := { s with faults := s.faults.map fun (f : PageFault) => if f.stage = 4 ∧ x.covers f.asid f.pva = true then { f with stage := 6 } else f }
      .next (State.setPf { s with shoot := none } 0xB410 0)

end Sys2Proof.Machine
end

