-- ==== Sys2Proof/Machine/Launching.lean ====
section
/-!
DEFINITION. Launches (R87 to R103): launch records, buffer handles (R80, R83), placement, the start of a tile group, and completion.
-/
namespace Sys2Proof.Machine

/-! ## Reading a launch record (R88 to R90) -/

/-- n bytes within one line at a PVA of partition p, read at the home; none where they cannot be read. -/
def State.pvaRead (s : State) (p pva n : Nat) : Option (State × Nat) :=
  if 2 ^ 52 < pva + n then none
  else match s.engXlate p pva true false false with
    | .ok pa e =>
      let (s, v, bad) := s.engRead p e pa n
      if bad then none else some (s, v)
    | _ => none

/-- k pieces of n bytes each, one after another, as a list. -/
def State.pvaList (s : State) (p pva n : Nat) : Nat → Option (State × List Nat)
  | 0 => some (s, [])
  | k + 1 => match s.pvaRead p pva n with
    | none => none
    | some (s, v) => match s.pvaList p (pva + n) n k with
      | none => none
      | some (s, vs) => some (s, v :: vs)

/-- A segment image (R133): its words and whether a reserved bit is set. -/
def Seg.ofNat (v : Nat) : Seg := { w0 := BitVec.ofNat 64 v, w1 := BitVec.ofNat 64 (v / 2 ^ 64) }
def Seg.rsvd (g : Seg) : Bool :=
  let w := g.w0.toNat
  let ty := bits w 61 60
  bits w 63 62 ≠ 0 || bit w 59 || bits w 55 52 ≠ 0 || decide (bits g.w1.toNat 63 61 ≠ 0)
    || (ty = 2 && bits w 51 19 ≠ 0) || (ty = 3 && bits w 51 25 ≠ 0)

/-- Byte k of a 512-byte record. -/
def byteOf (v k : Nat) : Nat := v / 2 ^ (8 * k) % 256
/-- The fields of a launch record (R88); under a class word, the class is the one in the record. -/
def Record.ofNat (v : Nat) : Record :=
  let f := fun (off n : Nat) => v / 2 ^ (8 * off) % 2 ^ (8 * n)
  { cls := f 6 1 % 4, tiles := f 8 1, dies := f 9 1, clusters := f 0xA 1, ctx := f 0xB 1, nranks := f 0xC 2, myrank := f 0xE 2
    entry := BitVec.ofNat 64 (f 0x10 8), handler := BitVec.ofNat 64 (f 0x18 8), arg0 := BitVec.ofNat 64 (f 0x20 8)
    args := BitVec.ofNat 64 (f 0x28 8), save := f 0x30 8, saveLen := f 0x38 8, hlist := f 0x40 8, nhandles := f 0x48 2
    swapTh := if f 0x4C 4 = 0 then 4096 else f 0x4C 4, ckptLimit := if f 0x50 4 = 0 then 200000 else f 0x50 4
    ranktab := f 0x58 8, cword := f 0x60 8, cval := BitVec.ofNat 64 (f 0x68 8)
    seg := Fixed.ofFn 8 fun i => Seg.ofNat (f (0x80 + 16 * i) 16)
    trole := (List.range 64).map fun i => byteOf v (0x100 + i), crole := (List.range 128).map fun i => byteOf v (0x140 + i)
    drole := (List.range 4).map fun i => byteOf v (0x1C0 + i) }

/-- Tile groups of a launch (R87). -/
def Record.groups (r : Record) : Nat := r.tiles * r.clusters * r.dies

/-- R90: whether the 512 bytes of a record fail with BAD_FIELD. -/
def recordBad (v : Nat) : Bool :=
  let f := fun (off n : Nat) => v / 2 ^ (8 * off) % 2 ^ (8 * n)
  let r := Record.ofNat v
  let between := fun (x lo hi : Nat) => decide (lo ≤ x) && decide (x ≤ hi)
  let codeOk := fun (a : Word) =>
    let g := r.seg.getD (a.toNat / 2 ^ 61) {}
    bits g.w0.toNat 61 60 = 1 && bit g.w0.toNat 58
  let roles := fun (l : List Nat) (n : Nat) => l.all fun b => b = 255 || decide (b < n)
  !( f 0 4 = 0x4A564C52 && f 4 2 = 1 && decide (f 6 1 < 4) && f 7 1 = 0 && f 0x4A 2 = 0 && f 0x54 4 = 0 && f 0x70 16 = 0 && f 0x1C4 60 = 0
    && between r.tiles 1 8 && between r.dies 1 4 && between r.clusters 1 128 && between r.ctx 1 64
    && (r.nranks = 0 || between r.nranks 2 1024) && (if r.nranks = 0 then r.myrank = 0 else decide (r.myrank < r.nranks))
    && decide (r.nhandles ≤ 64) && between r.swapTh 256 (2 ^ 24) && between r.ckptLimit 1000 (2 ^ 31)
    && r.entry.toNat % 4 = 0 && r.handler.toNat % 4 = 0 && r.save % 4096 = 0 && r.hlist % 8 = 0 && r.cword % 8 = 0
    && (r.nranks = 0 || r.ranktab % 32 = 0) && codeOk r.entry && (r.handler = 0 || codeOk r.handler)
    && !r.seg.els.any (·.rsvd) && roles r.trole r.tiles && roles r.crole r.clusters && roles r.drole r.dies
    && decide (4096 + 524288 * r.groups ≤ r.saveLen) )

/-- The partition to which endpoint context n is bound (R36). -/
def State.epPart (s : State) (n : Nat) : Option Nat :=
  let w := (s.pfr (0x40018 + 64 * n)).toNat
  if bit w 32 then some (bits w 21 16) else none

/-- R88 to R90, R72: what the command processor reads at the acceptance of a launch whose record lies at a PVA: the record with its
handles and ranks, or the status it fails with. -/
def State.readRecord (s : State) (p pva : Nat) : State × ReadRecord :=
  if pva % 64 ≠ 0 then (s, .bad 2)
  else match s.pvaList p pva 64 8 with
  | none => (s, .bad 8)
  | some (s, ls) =>
    let v := ls.foldr (fun x acc => x + 2 ^ 512 * acc) 0
    let r := Record.ofNat v
    let r := { r with cls := if 2 ≤ r.cls ∧ s.feature 6 = false then 1 else r.cls }
    if recordBad v || (r.cls = 0 && !s.feature 5) then (s, .bad 2)
    else if r.args ≠ 0 ∧ (s.pvaRead p r.args.toNat 1).isNone then (s, .bad 8)
    else match s.pvaList p r.hlist 8 r.nhandles with
    | none => (s, .bad 8)
    | some (s, hs) =>
      let handles := hs.map fun h => (h % 2 ^ 32, bits h 39 32)
      if hs.any (fun h => bits h 63 40 ≠ 0 || bits h 39 32 = 0 || decide (3 < bits h 39 32)) then (s, .bad 2)
      else match s.pvaList p r.ranktab 32 r.nranks with
      | none => (s, .bad 8)
      | some (s, rs) =>
        let ranks := rs.map fun x => { addr := BitVec.ofNat 128 x, ep := bits x 143 128, lep := bits x 159 144, key := BitVec.ofNat 64 (x / 2 ^ 192) : Rank }
        let badRank := fun (i : Nat) (x : Nat) => i ≠ r.myrank && (bits x 191 160 ≠ 0 || decide (511 < bits x 159 144) || decide (s.epPart (bits x 159 144) ≠ some p))
        if (rs.mapIdx badRank).any id then (s, .bad 2) else (s, .ok r handles ranks)

/-! ## Buffer handles (R80, R83) -/

/-- A handle of a partition; a HID outside 1 to 65,535 names none (R80, R90). -/
def State.handle (s : State) (p hid : Nat) : Handle := if 0 < hid ∧ hid < 65536 then Tbl.getD s.handles (p * 65536 + hid) {} else {}
/-- That handle changed. -/
def State.updHandle (s : State) (p hid : Nat) (f : Handle → Handle) : State :=
  if 0 < hid ∧ hid < 65536 then { s with handles := Tbl.put s.handles (p * 65536 + hid) (f (s.handle p hid)) } else s

/-- R83: a user of identifier uid takes its place among the users of the handles it names (intent 1 reads, 2 and 3 write), in acceptance
order; the users it must wait for: each writer before it, and, where it writes, each reader. One that ends without having run (R86) leaves those before
it to be waited for. -/
def State.takeHandles (s : State) (p uid : Nat) (names : List (Nat × Nat)) : State × List Nat :=
  names.foldl (fun (s, deps) (hid, intent) =>
    let h := s.handle p hid
    let ws := h.writers.filter s.users.contains
    let rs := h.readers.filter s.users.contains
    let s := s.updHandle p hid fun h => if intent = 1 then { h with writers := ws, readers := rs ++ [uid] } else { h with writers := ws ++ [uid], readers := rs }
    (s, deps ++ ((if intent = 1 then ws else ws ++ rs).filter (· ≠ uid)))) ({ s with users := s.users ++ [uid] }, [])

/-- Whether a user still waits for another (R83). -/
def State.depsOpen (s : State) (deps : List Nat) : Bool := deps.any fun u => s.users.contains u

/-- Whether every handle named is registered and no retirement of it has been accepted (R80, R86). -/
def State.handlesOk (s : State) (p : Nat) (names : List (Nat × Nat)) : Bool :=
  names.all fun q => (s.handle p q.1).reg && !(s.handle p q.1).gone

/-- R194: every partial that the tiles picked, of partition p, hold is gathered at its home. -/
def State.gatherTiles (s : State) (p : Nat) (pick : Nat → Bool) : State :=
  let lines := s.tiles.flatMap fun (t, v) => if pick t then v.parts.map fun q => (t, q.1) else []
  lines.foldl (fun (s : State) q => s.gatherFrom p (s.tenantOf q.1 p) q.2 pick) s

/-- R83: at the completion of a writer, the partials of the handle's range are gathered at their homes: every tile of the partition
holds its partials by line, so all of them go. -/
def State.writerActions (s : State) (p uid : Nat) : State :=
  let mine := s.handles.any fun q => decide (q.1 / 65536 = p) && q.2.writers.contains uid
  if mine then
    s.gatherTiles p fun t => decide (s.partOf t = p)
  else s

/-! ## Placement (R87, R91, R93, R94) -/

/-- Whether a launch still holds its tiles. -/
def Launch.holds (l : Launch) (t : Nat) : Bool :=
  l.groups.any fun q => decide (q.2.tile = t) || decide (q.2.target = some t)
/-- R87, R118: whether a launch of a class may take tile t now: no launch of classes 1 to 3 holds it, or, for class 0, no group runs on it
and none moves to it. -/
def State.mayTake (s : State) (cls t : Nat) : Bool :=
  (s.tile t).grp.isNone && s.launches.all fun q =>
    if cls = 0 ∧ q.2.r.cls ≠ 0 then !q.2.groups.any fun g => decide (g.2.target = some t) || (decide (g.2.tile = t) && g.2.slab.isNone)
    else !q.2.holds t

/-- R94: the tiles of each group of a shape, in group index order, where may says which tiles are free to take. -/
def State.chooseTiles (s : State) (p : Nat) (r : Record) (may : Nat → Bool) : Option (List Nat) :=
  let tilesOf := fun (n : Nat) => ((List.range 8).map (8 * n + ·)).filter fun t => s.usable t && may t
  let clustersOf := fun (d : Nat) => ((List.range 128).map (128 * d + ·)).filter fun n => s.partHas p n && decide (r.tiles ≤ (tilesOf n).length)
  let dies := (List.range 4).filter fun d => decide (r.clusters ≤ (clustersOf d).length)
  if dies.length < r.dies then none
  else some ((dies.take r.dies).flatMap fun d => ((clustersOf d).take r.clusters).flatMap fun n => (tilesOf n).take r.tiles)

/-! ## The start of a tile group (R95) -/

/-- The crown as it starts. -/
def crownOf (l : Launch) (g : Nat) (cyc : Nat) : Ctx :=
  let vals := [(10, l.r.arg0), (11, l.r.args), (12, BitVec.ofNat 64 l.num), (13, BitVec.ofNat 64 g), (14, BitVec.ofNat 64 l.r.myrank)]
  let x : Ctx := { state := .slotted, slot := some 0, seg := l.r.seg, pc := l.r.entry, readyAt := cyc + 1 }
  vals.foldl (fun (x : Ctx) q => x.setReg q.1 { val := q.2, dirty := true }) x

/-- R95, R137: group g of launch k starts on tile t, its bank format registers at their reset values. The scratchpad's bytes are free values again, under a
seed of their own (log 3). -/
def State.startGroup (s : State) (k : Nat) (l : Launch) (g t : Nat) : State :=
  let v := s.tile t
  let seed := s.nextId
  let s := s.setTile t { v.vacate with
    grp := some ⟨k, g⟩, ctxs := [(0, crownOf l g s.cyc)], rotLo := 0xFEDCBA9876543210, rotHi := 0xFEDCBA9876543210, rotNext := none
    junk := seed, bank := ({} : Tile).bank }
  let inside := fun (pa : Nat) => decide (spadPa t 0 ≤ pa) && decide (pa < spadPa t 0x80000)
  State.fresh { s with mem := { s.mem with cells := s.mem.cells.filter fun c => !inside c.1 } }

/-- The launches of a partition that wait for room, with every handle they name free (R83, R97). -/
def State.waiting (s : State) (p : Nat) : List (Nat × Launch) :=
  s.launches.filter fun q => decide (q.2.part = p) && decide (q.2.st = .waiting) && !s.depsOpen q.2.deps

/-- The oldest of some launches. -/
def oldest (ls : List (Nat × Launch)) : Option (Nat × Launch) :=
  ls.foldl (fun (b : Option (Nat × Launch)) q => match b with
    | none => some q
    | some c => if q.2.seq < c.2.seq then some q else b) none

/-- R97: the next launch placed: class 0 first, in acceptance order; else the one chosen before, while it waits; else the oldest of the class with the
smallest virtual time. -/
def State.nextLaunch (s : State) (p : Nat) : Option (Nat × Launch) :=
  let w := s.waiting p
  match oldest (w.filter fun q => decide (q.2.r.cls = 0)) with
  | some q => some q
  | none => match w.find? fun q => decide ((s.part p).chosen = some q.1) with
  | some q => some q
  | none =>
    let cs := [1, 2, 3].filter fun c => w.any fun q => decide (q.2.r.cls = c)
    let best := cs.foldl (fun (b : Option Nat) c => match b with
      | none => some c
      | some d => if nth (s.part p).vt (c - 1) 0 < nth (s.part p).vt (d - 1) 0 then some c else b) none
    match best with
    | some c => oldest (w.filter fun q => decide (q.2.r.cls = c))
    | none => none

/-- W_c of a partition (R97): a weight of 0 is 1. -/
def State.weight (s : State) (p c : Nat) : Nat := max 1 (bits (s.pfr (0xA000 + 8 * p)).toNat (8 * c - 1) (8 * c - 8))
/-- R97: the virtual time of class c after a placement of n groups; the three are brought down before one would reach 2^63. -/
def State.chargeClass (s : State) (p c n : Nat) : State :=
  if c = 0 then s else s.updPart p fun q =>
    let d := 65536 * n / s.weight p c
    let vt := if 2 ^ 63 ≤ nth q.vt (c - 1) 0 + d then let m := q.vt.foldl min (nth q.vt 0 0); q.vt.map (· - m) else q.vt
    { q with vt := vt.set (c - 1) (nth vt (c - 1) 0 + d) }
/-- R97: when a class goes from no launch that waits for room to one, its virtual time rises to the smallest of the other waiting classes. -/
def State.wakeClass (s : State) (p c : Nat) : State :=
  let has := fun (k : Nat) => s.launches.any fun q =>
    decide (q.2.part = p) && decide (q.2.st = .waiting) && q.2.startAt.isSome && decide (q.2.r.cls = k)
  let others := ([1, 2, 3].filter fun k => k ≠ c && has k).map fun k => nth (s.part p).vt (k - 1) 0
  match others with
  | [] => s
  | v :: rest =>
    if c = 0 ∨ has c = true then s
    else s.updPart p fun q => { q with vt := q.vt.set (c - 1) (max (nth q.vt (c - 1) 0) (rest.foldl min v)) }

/-- R83, R84, R97: a launch whose handles have come free starts, and waits for room from then on. -/
def State.startLaunch (s : State) (k : Nat) (l : Launch) : State :=
  if l.st ≠ .waiting ∨ l.startAt.isSome = true ∨ s.depsOpen l.deps = true then s
  else (s.wakeClass l.part l.r.cls).updLaunch k fun l => { l with startAt := some s.CYC }

/-- R96: the launch number allotted next in a partition. -/
def State.allotNum (s : State) (p : Nat) : Nat → Nat → Nat
  | _, 0 => 1
  | n, k + 1 => let m := if n = 0 ∨ 65535 < n then 1 else n
                if (Tbl.find? s.launches (p * 65536 + m)).isSome then s.allotNum p (m + 1) k else m

/-- A launch accepted: its number, and its place in acceptance order, which is that of its user identifier (R96, R97). It waits for its handles and for
room. -/
def State.addLaunch (s : State) (l : Launch) : State × Nat :=
  let p := l.part
  let num := s.allotNum p (s.part p).nextNum 65536
  let s := s.updPart p fun q => { q with nextNum := num + 1 }
  let l := { l with num, seq := l.uid }
  (State.startLaunch { s with launches := Tbl.put s.launches (p * 65536 + num) l } (p * 65536 + num) l, num)

/-- The class-0 launch's next victim among placed groups of a partition (R98): class 3 first, then 2, then 1, the most recently placed launch
first; a group already on its way is none. -/
def State.victim (s : State) (p : Nat) : Option (Nat × Nat) :=
  let can := s.launches.filter fun q => decide (q.2.part = p) && decide (1 ≤ q.2.r.cls) && q.2.groups.any fun g => decide (g.2.place = .running)
  let best := can.foldl (fun (b : Option (Nat × Launch)) q => match b with
    | none => some q
    | some c => if c.2.r.cls < q.2.r.cls ∨ (c.2.r.cls = q.2.r.cls ∧ c.2.placedAt < q.2.placedAt) then some q else b) none
  match best with
  | some q => (q.2.groups.find? fun g => decide (g.2.place = .running)).map fun g => (q.1, g.1)
  | none => none

/-- A context that counts as stopped in a migration's wait (R119): Free, Halted, Stopped, parked, or stopped after CKPT. -/
def Ctx.atRest (x : Ctx) : Bool :=
  decide (x.state = .free) || decide (x.state = .halted) || decide (x.state = .stopped) || decide (x.park ≠ 0) || x.ckptStop

/-- R237, R244: an entry's deadline does not count from here on; REMAIN keeps what is left of it. DESIGN CHOICE (log 70): so it does at the close. -/
def Reasm.pause (e : Reasm) (cyc : Nat) : Reasm := match e.due with | some d => { e with due := none, remain := d - cyc } | none => e
/-- R244: it counts again, where the entry is one that a deadline can close. -/
def Reasm.unpause (e : Reasm) (cyc : Nat) : Reasm :=
  if (e.state = 1 ∨ e.state = 2 ∨ e.state = 3) ∧ e.closing = false ∧ e.remain ≠ 0xFFFFFFFF then { e with due := some (cyc + e.remain) } else e

/-- A placed group's move begins (R98, R119): what the stamped loads of its tile and its deadlines have counted is kept (R112, R244), and contexts that count
as stopped issue nothing further. -/
def State.beginMove (s : State) (k g : Nat) (full : Bool) : State :=
  let t := match (Tbl.find? s.launches k).bind fun l => l.tileOf g with | some t => t | none => 0
  let s := { s with reqs := s.reqs.map fun (r : Req) => if r.tile = t ∧ r.stage = ReqStage.waiting then { r with spent := s.slimCount r } else r }
  let s := s.updTile t fun v => { v with
    reasm := v.reasm.map (·.pause s.cyc), ctxs := Tbl.mapV (fun _ (x : Ctx) => if x.atRest then { x with ckptStop := true } else x) v.ctxs }
  s.updGroup k g fun x => { x with place := .migrating, phase := 1, full, since := s.cyc, target := none }

/-- A group of classes 1 to 3 is to leave its tile for a class-0 launch (R98, R119): no wait for CKPT, the whole scratchpad. -/
def State.displace (s : State) (k g : Nat) : State :=
  s.beginMove k g true

/-- Groups on their way off their tiles for a class-0 launch. -/
def State.leaving (s : State) (p : Nat) : Bool :=
  s.launches.any fun q => decide (q.2.part = p) && q.2.groups.any fun g => decide (g.2.place = .migrating) && g.2.target.isNone && g.2.slab.isNone

/-! ## The end of a launch (R77, R96, R101) -/

/-- Whether a context of a group is over. -/
def Tile.allOver (v : Tile) (ending : Bool) : Bool :=
  v.ctxs.all fun q => decide (q.2.state = .halted) || decide (q.2.state = .free) || (ending && decide (q.2.state = .stopped))

/-- Whether a message may be delivered now: it is on its way, and no REL or FENCE.S of its sender, where that is a context, holds it (R231). -/
def State.flitMoves (s : State) (m : FlitMsg) : Bool :=
  !m.notice && m.since.isNone
    && (m.engine || (!s.groupAway m.launch m.srcGroup && !(s.ctx m.f.srcTile m.f.srcCtx).fences.any fun f => decide (f.id < m.id)))

/-- Whether a launch is ending by a terminal trap. -/
def State.ending (s : State) (k : Nat) : Bool := match Tbl.find? s.launches k with | some l => decide (l.st = .ending) | none => false

/-- Whether a flit, a fill or a notice of a launch is still to be delivered (R232). While it ends, those count that can move: one that is refused, or whose
sender is off its tile, does not. -/
def State.flitsOut (s : State) (k : Nat) : Bool := s.flits.any fun m => decide (m.launch = k) && (!s.ending k || m.notice || s.flitMoves m)

/-- Whether an access waits where only what another party does can end it: at its home, or at the port behind such a one of its context. -/
def State.dormant (s : State) (r : Req) : Bool :=
  let waits := fun (q : Req) => [ReqStage.waiting, .withdrawing, .refused].contains q.stage
  waits r || (decide (r.stage = .port) && s.reqs.any fun q => decide (q.tile = r.tile) && decide (q.ctx = r.ctx) && decide (q.id < r.id) && waits q)

/-- Whether a launch has run to its end: every context halted or, where a terminal trap ended it, stopped, and nothing of it in flight
(R77, R232, R259). -/
def State.launchEnded (s : State) (k : Nat) (l : Launch) : Bool :=
  let ending := decide (l.st = .ending)
  let tiles := s.tiles.filter fun q => decide (q.2.grp.map (·.launch) = some k)
  let onTile := fun (t : Nat) => tiles.any fun q => decide (q.1 = t)
  (ending || decide (l.st = .running)) && tiles.all (fun q => q.2.allOver ending)
    && l.groups.all (fun g => decide (g.2.place = .running) || (decide (g.2.place = .displaced) && (ending || (match g.2.slab with
        | some v => v.allOver ending
        | none => true))))
    && !s.reqs.any (fun r => onTile r.tile && !s.dormant r)
    && !s.launches.any (fun q => decide (q.2.parent = some k))
    && !s.flitsOut k
    && !s.copyMsgs.any (fun c => decide (c.part * 65536 + c.launch = k))
    && !s.queues.any (fun q => q.2.any fun c => decide (c.part * 65536 + c.launch = k))
    && !s.cwords.any (fun w => decide (w.part * 65536 + w.launch = k))
    && (!ending || !s.steps.any fun x => decide (x.launch = k))

/-- A launch is over with a status: its tiles are free, its completion is recorded, and the launch that started it knows of a FAULT (R101). -/
def State.launchOver (s : State) (k status : Nat) : State :=
  match Tbl.find? s.launches k with
  | none => s
  | some l =>
    let mine := fun (t : Nat) => decide ((s.tile t).grp.map (·.launch) = some k)
    let s := { s with
      reqs := s.reqs.filter fun r => !mine r.tile
      counts := s.counts.filter fun q => !mine q.tile
      rreads := s.rreads.filter fun r => !mine r.tile
      barWait := s.barWait.filter fun w => !mine w.2.2.1
      faults := orphans (fun f => decide (f.launch = k)) s.faults
      pageWait := orphans (fun f => decide (f.launch = k)) s.pageWait
      pages := s.pages.map fun (x : PageSvc) => { x with faults := orphans (fun f => decide (f.launch = k)) x.faults }
      flits := s.flits.filter fun m => decide (m.launch ≠ k)
      rmsgs := s.rmsgs.filter fun m => m.rank.isSome || decide (m.dkey ≠ k)
      steps := s.steps.filter fun x => decide (x.launch ≠ k)
      collCur := s.collCur.filter fun x => decide (x.launch ≠ k)
      arrived := s.arrived.filter fun c => !(decide (c.part = l.part) && decide (c.launch = l.num))
      tiles := Tbl.mapV (fun _ (v : Tile) => if v.grp.map (fun (g : GroupRef) => g.launch) = some k then v.vacate else v) s.tiles
      launches := Tbl.erase s.launches k
      users := s.users.filter (· ≠ l.uid) }
    let s := s.moveEnds k
    let s := match l.parent with
      | some j => if l.trapped then s.updLaunch j fun q => { q with trapped := true } else s
      | none => s
    let s := match l.cmd with
      | some (v, w) => s.completeCmd v w status l.num
      | none => s
    s.firedOver l status
/-- The launch has run to its end: OK, or FAULT where a terminal trap ended it or a launch that it started (R77, R101). -/
def State.finishLaunch (s : State) (k : Nat) : State :=
  s.launchOver k (match Tbl.find? s.launches k with | some l => if l.trapped then 8 else 0 | none => 0)

/-- LAUNCH_PLACEMENT (R83, R94, R97, R98): launches of a partition whose handles have come free start; the next one is placed where it has room, and
ends NO_ROOM where its shape could not be placed even with every other launch absent. A class-0 launch without room displaces one group more and is placed
once the slots are vacated; of the other classes, nothing is placed past the one that is chosen while it waits. -/
def execLaunchPlacement (part : Nat) (s : State) : Out :=
  if !s.partLive part then .next s
  else
    let s := (s.launches.filter fun q => decide (q.2.part = part)).foldl (fun (s : State) q => s.startLaunch q.1 q.2) s
    match s.nextLaunch part with
    | none => .next s
    | some (k, l) =>
      if (s.chooseTiles part l.r fun _ => true).isNone then .next (s.launchOver k 5)
      else match s.chooseTiles part l.r (s.mayTake l.r.cls) with
      | some ts =>
        let groups : Table GroupSt := ts.mapIdx fun g t => (g, { tile := t })
        let l := { l with st := .running, placedAt := s.nextId, groups }
        let s := State.fresh { s with launches := Tbl.put s.launches k l }
        let s := s.chargeClass part l.r.cls l.r.groups
        .next (groups.foldl (fun (s : State) q => s.startGroup k l q.1 q.2.tile) s)
      | none =>
        if l.r.cls ≠ 0 then .next (s.updPart part fun q => { q with chosen := some k })
        else if s.leaving part = true then .next s
        else match s.victim part with
          | some (j, g) => .next (s.displace j g)
          | none => .next s

/-- LAUNCH_COMPLETE (R77, R96, R101): the writer actions run, then CVAL leaves for CWORD; without one the launch is over at once. -/
def execLaunchComplete (part num : Nat) (s : State) : Out :=
  let k := part * 65536 + num
  match Tbl.find? s.launches k with
  | none => .next s
  | some l =>
    if !s.launchEnded k l then .next s
    else
      let s := s.gatherTiles part fun t => decide ((s.tile t).grp.map (·.launch) = some k)
      let s := s.writerActions part l.uid
      if l.r.cword = 0 then .next (s.finishLaunch k)
      else
        let w : CWord := { id := s.nextId, part, launch := num, addr := BitVec.ofNat 64 l.r.cword, val := l.r.cval, launchEnd := some k }
        .next (State.fresh { (s.updLaunch k fun l => { l with st := .finished }) with cwords := s.cwords ++ [w] })

/-! ## Completion words (R225, R414) -/

/-- A copy leaves its queue with its status (R195, R225): a host COPY's command completes, after the actions of a writer (R83). -/
def State.copyGone (s : State) (key id status : Nat) : State :=
  let q := Tbl.getD s.queues key []
  let s1 := { s with queues := Tbl.put s.queues key (q.filter fun (c : CopyCmd) => decide (c.id ≠ id)) }
  match (q.find? fun (c : CopyCmd) => decide (c.id = id)).bind (·.host) with
  | some (v, w, uid) => (s1.writerActions (v - 1) uid).completeCmd v w status 0
  | none => s1

/-- An entry of a tile's reassembly table changed. -/
def State.updEntry (s : State) (t n : Nat) (f : Reasm → Reasm) : State :=
  s.updTile t fun v => { v with reasm := v.reasm.set n (f (v.reasm.getD n {})) }

/-- The close of an entry is over (R244): STATE is 4, and after a write that failed the opener takes ROUTE_CFG (R245). -/
def State.shutEntry (s : State) (t n : Nat) : State :=
  let e := (s.tile t).reasm.getD n {}
  let s := s.updEntry t n fun e => { e with state := 4, closing := false, bad := false }
  if e.bad then s.defer t e.owner (s.ctx t e.owner).gen { cause := causeRouteCfg, pc := e.pc, insn := e.insn } else s

/-- The tile of the party a completion word reports to. -/
def State.wordTile (s : State) (w : CWord) : Nat :=
  match Tbl.find? s.launches (w.part * 65536 + w.launch) with
  | some l => (l.tileOf w.group).getD w.tile
  | none => w.tile

/-- What completes with a completion word: a copy, a reassembly entry (R244), a launch, a command. -/
def State.wordDone (s : State) (w : CWord) : State :=
  let s := { s with cwords := s.cwords.filter fun (x : CWord) => decide (x.id ≠ w.id) }
  let s := match w.copy with | some (key, id, st) => s.copyGone key id st | none => s
  let s := match w.entry with
    | some (n, g) => if (((s.tile (s.wordTile w)).reasm.getD n {}).gen = g) then s.shutEntry (s.wordTile w) n else s
    | none => s
  let s := match w.launchEnd with | some k => s.finishLaunch k | none => s
  match w.host with
  | some (v, win, st, d) => s.completeCmd v win st d
  | none => s

/-- COMPLETION_WORD_WRITE (R225, R414): the status, where there is one, and then the word are written through the party's address
space; the write waits for a page that is not present; a word that cannot be written is abandoned with CWORD_FAULT. -/
def execCompletionWordWrite (id : Nat) (s : State) : Out :=
  match s.cwords.find? (fun (w : CWord) => decide (w.id = id)) with
  | none => .next s
  | some w =>
    let t := s.wordTile w
    let fault := fun (s : State) =>
      (s.pushRec w.part { kind := 3, code := 71, launch := w.launch, group := w.group, addr := w.addr, at_ := s.CYC }).wordDone w
    let away := ((w.segs.isSome || w.entry.isSome) && s.groupAway (w.part * 65536 + w.launch) w.group)
      || match w.segs with | some segs => s.farAway t segs w.addr.toNat | none => false
    if away then .next s
    else if w.abandoned then .next (fault s)
    else
      let word := fun (s : State) => match s.engAddr w.part t w.segs w.addr.toNat 8 false true true with
        | .ok pa e => (s.engineWrite w.part e pa 8 w.val.toNat w.iter false).wordDone w
        | .fail _ => fault s
        | .waits pva x => s.engWait .cword w.id w.part w.launch w.group w.behalf pva x
      match w.status with
      | none => .next (word s)
      | some st => match s.engAddr w.part t w.segs (w.addr.toNat + 8) 8 false true true with
        | .ok pa e => match s.engAddr w.part t w.segs w.addr.toNat 8 false true true with
          | .ok _ _ => .next (word (s.engineWrite w.part e pa 8 st w.iter false))
          | _ => .next (word s)
        | .fail _ => .next (fault s)
        | .waits pva x => .next (s.engWait .cword w.id w.part w.launch w.group w.behalf pva x)

end Sys2Proof.Machine
end

