-- ==== Sys2Proof/Machine/System.lean ====
section
/-!
DEFINITION. The context and system instructions (R363, R378 to R393) and the slots of a tile (R104 to R108).
-/
namespace Sys2Proof.Machine

/-! ## Slots (R104, R107) -/

/-- Whether a slot of a tile is taken, by a context or by a swap in progress. -/
def Tile.slotTaken (v : Tile) (n : Nat) : Bool :=
  v.ctxs.any (fun q => decide (q.2.slot = some n)) || (match v.swap with | some w => decide (w.slot = n) | none => false)
/-- R107: the slot where context c is placed, or none for the context cache. -/
def Tile.placeFor (v : Tile) (c : Nat) : Option Nat :=
  if c = 15 then some 15 else ((List.range 14).map (· + 1)).find? fun n => !v.slotTaken n

/-- Whether a cached context is ready (R109, R113); one whose record waits for a page stays in the cache (R115). -/
def Ctx.cacheReady (x : Ctx) (n : Nat) : Bool :=
  decide (x.state = .cached) && !x.recWait && decide (x.park = 0) && !x.busy && decide (x.readyAt ≤ n) && !x.ckptStop
/-- The cached context that has been ready longest, the lower number on a tie (R107, R113), but for one that a swap is bringing in (R114). -/
def Tile.bestCached (v : Tile) (n : Nat) : Option Nat :=
  (v.ctxs.filter fun q => q.2.cacheReady n && v.swap.map (·.enter) ≠ some q.1).foldl (fun (b : Option (Nat × Nat)) q => match b with
    | none => some (q.1, q.2.readyAt)
    | some (c, r) => if q.2.readyAt < r then some (q.1, q.2.readyAt) else some (c, r)) none |>.map (·.1)

/-- A context enters a slot with its record and retry latch intact, and its streams take units (R107, R114, R131). -/
def State.enterSlot (s : State) (t c n : Nat) : State :=
  (s.updCtx t c fun x => { x with slot := some n, state := if x.state = .cached then .slotted else x.state }).grantUnits t
/-- R107: a free slot is filled by the cached context that has been ready longest. -/
def State.refill (s : State) (t n : Nat) : State :=
  if n = 0 ∨ n = 15 then s
  else match (s.tile t).bestCached s.cyc with
    | some c => s.enterSlot t c n
    | none => s

/-! ## Message queue registers (R363) -/

/-- Whether an earlier write of x30 by the context has yet to be accepted (R363). -/
def Ctx.sending (x : Ctx) : Bool := x.txPend.isSome || decide ((x.reg 30).st = .pending)

/-- R363: QMAP written; a change of the mapping leaves x30 and x31 full and holding 0. -/
def setQmap (s : State) (t c : Nat) (v : Word) : Iss :=
  let x := s.ctx t c
  if x.sending || (!x.mapped && decide ((x.reg 31).st = .pending)) then .hold s
  else if 1 < v.toNat then .fail s causeQueue
  else .done (s.updCtx t c fun x =>
    let y := { x with qmap := v }
    if x.mapped = y.mapped then y else (y.setReg 30 { dirty := true }).setReg 31 { dirty := true })
/-- R363: QDEST written. -/
def setQdest (s : State) (t c : Nat) (v : Word) : Iss :=
  if (s.ctx t c).sending then .hold s else .done (s.updCtx t c fun x => { x with qdest := v })

/-- QCFG (R363). -/
def execQcfg (S a : Nat) (s : State) : Out := issue S s fun s t c => withOps s t c [a] [] fun vs s => setQmap s t c (arg1 vs)
/-- QDEST (R363). -/
def execQdest (S a : Nat) (s : State) : Out := issue S s fun s t c => withOps s t c [a] [] fun vs s => setQdest s t c (arg1 vs)

/-! ## System registers (R378 to R380) -/

/-- Registers only the crown may access (R378). -/
def crownOnly (r : Nat) : Bool := r = 13 || r = 14 || decide (16 ≤ r)
/-- Registers that only read (R378). -/
def readOnly (r : Nat) : Bool := r = 4 || r = 9 || r = 10 || r = 12 || decide (17 ≤ r)

/-- CTXID (R379). -/
def State.ctxid (s : State) (t c : Nat) : Nat :=
  c + 2 ^ 8 * (s.ctx t c).gen + 2 ^ 16 * s.groupIdx t + 2 ^ 32 * (match s.launchOf t with | some l => l.num | none => 0)

/-- The value an SRD of register r returns (R378). -/
def State.sysReg (s : State) (t c r : Nat) : Word :=
  let x := s.ctx t c
  let v := s.tile t
  match r with
  | 0 => x.iter.setWidth 64
  | 1 => x.rnd.setWidth 64
  | 2 => (x.fflAt s.cyc).setWidth 64
  | 3 => BitVec.ofNat 64 x.vl
  | 4 => BitVec.ofNat 64 v.acstat
  | 5 => x.slim.setWidth 64
  | 6 => x.qmap
  | 7 => x.qdest &&& 0xFF3F1FFFFF
  | 8 => x.role
  | 9 => BitVec.ofNat 64 (s.ctxid t c)
  | 10 => BitVec.ofNat 64 s.CYC
  | 11 => flag x.schk
  | 12 => BitVec.ofNat 64 x.orph
  | 13 => v.rotLo
  | 14 => v.rotHi
  | 15 => x.rtmap
  | 16 => v.tepc
  | 17 => v.tfpc
  | 18 => v.taddr
  | _ => v.tcause

/-- SRD (R378, R380): an SRD of FFL waits for every earlier result that may raise a flag. -/
def execSrd (S d r : Nat) (s : State) : Out :=
  issue S s fun s t c =>
    if 20 ≤ r then .fail s causeIllegal
    else if crownOnly r && decide (c ≠ 0) then .fail s causePriv
    else withOps s t c [] [d] fun _ s =>
      if r = 2 ∧ s.fflWaits t c = true then .hold s else .done (s.setX t c d (s.sysReg t c r) 2)

/-- R108: half of a rotation table as written: entries 15 and 31 read 15. -/
def rotHalf (v : Word) : Word := v ||| 0xF000000000000000
/-- R108: whether a table gives every slot from 0 to 14 an entry. -/
def rotOk (lo hi : Word) : Bool :=
  let es := (List.range 16).flatMap fun e => [bits lo.toNat (4 * e + 3) (4 * e), bits hi.toNat (4 * e + 3) (4 * e)]
  (List.range 15).all fun n => es.contains n

/-- A write of a half of the rotation table (R108): it takes effect at the next cycle n with n mod 32 = 0. -/
def setRot (s : State) (t : Nat) (hi : Bool) (v : Word) : Iss :=
  let w := s.tile t
  let (l, h) := w.rotNext.getD (w.rotLo, w.rotHi)
  let (l, h) := if hi then (l, rotHalf v) else (rotHalf v, h)
  if rotOk l h then .done (s.updTile t fun w => { w with rotNext := some (l, h), rotAt := (s.cyc / 32 + 1) * 32 })
  else .fail s causeIllegal

/-- The effect of an SWR of value v to register r (R378, R379). -/
def writeSys (s : State) (t c r : Nat) (v : Word) : Iss :=
  let n := v.toNat
  let put := fun (f : Ctx → Ctx) => Iss.done (s.updCtx t c f)
  let only := fun (ok : Bool) (f : Ctx → Ctx) => if ok then put f else Iss.fail s causeIllegal
  match r with
  | 0 => only (decide (n < 2 ^ 32)) fun x => { x with iter := v.setWidth 32 }
  | 1 => only (decide (n < 32) && decide (n % 8 < 6)) fun x => { x with rnd := v.setWidth 8 }
  | 2 => only (decide (n < 128)) fun x => { x with ffl := v.setWidth 8, fflLate := x.fflLate.filter fun p => decide (s.cyc < p.1) }
  | 3 => only (decide (1 ≤ n) && decide (n ≤ 2048)) fun x => { x with vl := n }
  | 5 => only (decide (n < 2 ^ 32)) fun x => { x with slim := v.setWidth 32 }
  | 6 => setQmap s t c v
  | 7 => setQdest s t c v
  | 8 => only (decide (n < 2)) fun x => { x with role := v }
  | 11 => only (decide (n < 2)) fun x => { x with schk := n = 1 }
  | 13 => setRot s t false v
  | 14 => setRot s t true v
  | 15 => only (n % 8 = 0) fun x => { x with rtmap := v }
  | _ => if n % 4 = 0 then .done (s.updTile t fun w => { w with tepc := v }) else .fail s causeIllegal

/-- SWR (R378, R380); privilege comes before the rules of its entry (R291, log 10). -/
def execSwr (S a r : Nat) (s : State) : Out :=
  issue S s fun s t c =>
    if 20 ≤ r then .fail s causeIllegal
    else if crownOnly r && decide (c ≠ 0) then .fail s causePriv
    else if readOnly r then .fail s causeIllegal
    else withOps s t c [a] [] fun vs s => writeSys s t c r (arg1 vs)

/-- ROTATION_TABLE_APPLY (R108). -/
def execRotationTableApply (tile : Nat) (s : State) : Out :=
  let v := s.tile tile
  match v.rotNext with
  | some (l, h) => if v.rotAt ≤ s.cyc then .next (s.setTile tile { v with rotLo := l, rotHi := h, rotNext := none }) else .next s
  | none => .next s

/-! ## SPAWN and REAP (R381 to R383) -/

/-- The context SPAWN starts (R381); x10 to x14 go over with their poison (R264). -/
def spawned (x : Ctx) (old : Ctx) (slot : Option Nat) (entry : Word) (staging : Bool) (cyc : Nat) : Ctx :=
  let y : Ctx := { state := if slot.isSome then .slotted else .cached, slot, gen := (old.gen + 1) % 256, seg := x.seg, pc := entry, iter := x.iter
                   rnd := x.rnd, slim := x.slim, schk := x.schk, rtmap := x.rtmap, role := flag staging, readyAt := cyc + 1, rxq := old.rxq }
  [10, 11, 12, 13, 14].foldl (fun (y : Ctx) r => y.setReg r { val := (x.reg r).seen cyc, poison := (x.reg r).poison, dirty := true }) y

/-- SPAWN at tile scope (R381). -/
def execSpawn (S d a b : Nat) (s : State) : Out :=
  issue S s fun s t c =>
    if c ≠ 0 then .fail s causePriv
    else withOps s t c [a, b] [d] fun vs s =>
      let w := (arg2 vs).toNat
      let n := w % 64
      if 128 ≤ w ∨ n = 0 ∨ s.ctxN t ≤ n then .fail s causeIllegal
      else if (arg1 vs).toNat % 4 ≠ 0 then .trap s causeMisalign (arg1 vs) 0
      else if s.portHolds t c false || !s.tileDone t c then .hold s
      else
        let old := s.ctx t n
        if old.state ≠ .free then .done (s.setX t c d (BitVec.ofInt 64 (-1)) 2)
        else
          let y := spawned (s.ctx t c) { old with rxq := [] } ((s.tile t).placeFor n) (arg1 vs) (bit w 6) s.cyc
          let s := { s with counts := s.counts.filter fun k => !(decide (k.tile = t) && decide (k.ctx = n)) }
          .done ((s.updCtx t n fun _ => y).setX t c d (BitVec.ofNat 64 (y.gen * 256 + n)) 2)

/-- The partials of a tile are gathered at their homes (R194). -/
def State.gatherTile (s : State) (t : Nat) : State :=
  let p := s.partOf t
  (s.tile t).parts.foldl (fun (s : State) q => s.gatherFrom p (s.tenantOf t p) q.1 fun k => decide (k = t)) s

/-- The command processor's answer to a dependent launch (R100, R382): its number, or the negated status. -/
def State.acceptDependent (s : State) (t pva : Nat) : State × Int :=
  match (s.tile t).grp with
  | none => (s, 0)
  | some g =>
    let p := s.partOf t
    if 256 ≤ (s.launches.filter fun q => decide (q.2.part = p) && q.2.parent.isSome).length then (s, -4)
    else match s.readRecord p pva with
      | (s, .bad st) => (s, -(st : Int))
      | (s, .none) => (s, -8)
      | (s, .ok r hs ranks) =>
        if !s.handlesOk p hs then (s, -3)
        else if (s.chooseTiles p r fun _ => true).isNone then (s, -5)
        else
          let uid := s.nextId
          let (s, deps) := s.fresh.takeHandles p uid hs
          let (s, num) := s.addLaunch { part := p, num := 0, r, handles := hs, ranks, parent := some g.launch, uid, deps, acceptedAt := s.CYC }
          (s, num)

/-- SPAWN at die scope (R382): the stores that precede it are performed at package scope first; the answer lands as a variable-latency
result. -/
def execSpawnDie (S d a : Nat) (s : State) : Out :=
  issue S s fun s t c =>
    if !s.feature 8 then .fail s causeIllegal
    else if c ≠ 0 then .fail s causePriv
    else withOps s t c [a] [d] fun vs s =>
      if s.portHolds t c false || s.storesOut t c s.nextId then .hold s
      else
        let (s, n) := (s.gatherTile t).acceptDependent t (arg1 vs).toNat
        let s := s.setPending t c d
        .done (State.fresh { s with reqs := s.reqs ++ [{ s.reqOf t c .load 0 0 8 none with id := s.nextId, stage := .reply, dst := d, val := BitVec.ofInt 64 n }] })

/-- REAP (R383). -/
def execReap (S d a : Nat) (s : State) : Out :=
  issue S s fun s t c =>
    if c ≠ 0 then .fail s causePriv
    else withOps s t c [a] [d] fun vs s =>
      let n := (arg1 vs).toNat
      if 64 ≤ n ∨ n = 0 ∨ s.ctxN t ≤ n then .fail s causeIllegal
      else
        let y := s.ctx t n
        match y.state with
        | .halted => .done ((s.updCtx t n fun x => { x with state := .free, rxq := [] }).setX t c d 0 2)
        | .free => .done (s.setX t c d 2 2)
        | _ => .done (s.setX t c d 1 2)

/-! ## YIELD, HALT, CKPT (R384 to R386) -/

/-- YIELD (R384): with a ready cached context, the swap of R114 follows. -/
def execYield (S : Nat) (s : State) : Out :=
  issue S s fun s t c =>
    if c ≠ 0 ∧ c ≠ 15 ∧ (s.ctx t c).state = .slotted ∧ ((s.tile t).bestCached s.cyc).isSome = true then
      .done (s.updCtx t c fun x => { x with swapNow := true })
    else .done s

/-- Whether anything of a context is still to land or to be let go (R385). -/
def State.ctxWork (s : State) (t c : Nat) : Bool :=
  let x := s.ctx t c
  let v := s.tile t
  x.x.els.any (fun r => decide (r.st = .pending)) || s.loadsOut t c s.nextId || s.storesHeld t c s.nextId || !x.fences.isEmpty || x.txPend.isSome
    || x.str.els.any (·.undrained) || s.unitBusy t c s.nextId || v.divq.any (fun o => decide (o.ctx = c)) || v.fdivq.any (fun o => decide (o.ctx = c))

/-- A context is halted: its accumulators are free, its slot is refilled (R107, R132, R385). -/
def State.haltCtx (s : State) (t c : Nat) : State :=
  let slot := (s.ctx t c).slot
  let s := s.updTile t fun v => { v with acc := v.acc.map fun (a : Acc) => if a.owner = some c then { a with owner := none } else a }
  let s := s.updCtx t c fun x => { x with state := .halted, slot := none, latch := none, park := 0, swapNow := false, str := Fixed.fill 8 {} }
  let s := (s.dropRemote t c).grantUnits t
  match slot with
  | some n => s.refill t n
  | none => s

/-- HALT (R385): the context stops issuing until its results have landed, its streams drained and its held accesses gone. -/
def execHalt (S : Nat) (s : State) : Out :=
  issue S s fun s t c => if s.ctxWork t c then .hold s else .done (s.haltCtx t c)

/-- CKPT (R386). -/
def execCkpt (S a : Nat) (s : State) : Out :=
  issue S s fun s t c => withOps s t c [a] [] fun vs s =>
    if (arg1 vs).toNat % 4 ≠ 0 then .trap s causeMisalign (arg1 vs) 0
    else .done (s.updCtx t c fun x => { x with lastCkpt := arg1 vs, ckptStop := x.ckptStop || s.ckptWait t })

/-! ## ITER, traps, segments, time (R387 to R391) -/

/-- ITERSET (R387). -/
def execIterset (S a : Nat) (s : State) : Out :=
  issue S s fun s t c => withOps s t c [a] [] fun vs s => .done (s.updCtx t c fun x => { x with iter := (arg1 vs).setWidth 32 })
/-- ITERINC (R387). -/
def execIterinc (S d : Nat) (s : State) : Out :=
  issue S s fun s t c => withOps s t c [] [d] fun _ s =>
    let n := (s.ctx t c).iter + 1
    .done ((s.updCtx t c fun x => { x with iter := n }).setX t c d (n.setWidth 64) 2)

/-- TRAP (R388). -/
def execTrap (S a : Nat) (s : State) : Out :=
  issue S s fun s t c => withOps s t c [a] [] fun vs s => .trap s causeUser (arg1 vs) 0

/-- TRET (R389, R258). -/
def execTret (S a : Nat) (s : State) : Out :=
  issue S s fun s t c =>
    if c ≠ 0 then .fail s causePriv
    else withOps s t c [a] [] fun vs s =>
      let n := (arg1 vs).toNat
      if !(s.tile t).inH || decide (2 ≤ n) then .fail s causeIllegal
      else .ret (s.trapReturn t n)

/-- SEGLD (R390). -/
def execSegld (S a b : Nat) (s : State) : Out :=
  issue S s fun s t c =>
    if c ≠ 0 then .fail s causePriv
    else withOps s t c [a, b] [] fun vs s =>
      let w := (arg1 vs).toNat
      let n := bits w 8 3
      let va := (arg2 vs).toNat
      if 512 ≤ w ∨ (s.ctx t n).state = .free then .fail s causeIllegal
      else if va % 16 ≠ 0 then .trap s causeMisalign (arg2 vs) 0
      else match s.loadBlock t c va 2 with
        | .stop i => i
        | .bytes s v poison =>
          let g := Seg.ofNat v
          if poison then .trap s causePoison (arg2 vs) 0
          else if g.rsvd then .fail s causeIllegal
          else .done (s.updCtx t n fun x => { x with seg := x.seg.set (w % 8) g })

/-- RDCYC (R391). -/
def execRdcyc (S d : Nat) (s : State) : Out :=
  issue S s fun s t c => withOps s t c [] [d] fun _ s => .done (s.setX t c d (BitVec.ofNat 64 s.CYC) 2)

end Sys2Proof.Machine
end

