-- ==== Sys2Proof/Machine/CopyEngine.lean ====
section
/-!
DEFINITION. The copy engines (R219 to R226): the bytes of a copy, its granules with their conversion, its queues and its completion.
-/
namespace Sys2Proof.Machine

/-! ## Containers and byte counts (R137, R143, R149, R221, R228) -/

/-- The container of a format: its width, with 1000 added for a block format, whose elements lie in group records (R149). -/
def containerOf (code : Nat) : Nat := if Num.isBlock code then 1000 + Num.width code else Num.width code
/-- Vectors of a group record with elements of a width (R149). -/
def recVecs (w : Nat) : Nat := if w = 4 then 133 else 261
/-- The bytes of n packed elements in a container: whole group records with their codes and scale, and what is left over. -/
def containerBytes (k n : Nat) : Nat :=
  if 1000 ≤ k then n / 16384 * (64 * recVecs (k - 1000)) + n % 16384 * (k - 1000) / 8 else n * k / 8
/-- The elements whose run has taken b bytes of a container so far. -/
def containerEls (k b : Nat) : Nat :=
  if 1000 ≤ k then b / (64 * recVecs (k - 1000)) * 16384 else b * 8 / k

/-- COUNT0. -/
def Shape.count0 (h : Shape) : Nat := (h.dims.headD (0, 0, 0)).1
/-- The number of runs (R221). -/
def Shape.runs (h : Shape) : Nat := h.dims.tail.foldl (fun n d => n * d.1) 1
/-- The offsets of run n at the source and the destination, dimension 1 innermost (R221). -/
def Shape.offsets (h : Shape) (n : Nat) : Int × Int :=
  let r := h.dims.tail.foldl (fun (a : (Int × Int) × Nat) d =>
    ((a.1.1 + (a.2 % d.1 : Nat) * d.2.1, a.1.2 + (a.2 % d.1 : Nat) * d.2.2), a.2 / d.1)) ((0, 0), n)
  r.1
/-- Source and destination address of run n. -/
def Shape.srcAt (h : Shape) (n : Nat) : Nat := wrap 64 (h.src.toNat + (h.offsets n).1)
def Shape.dstAt (h : Shape) (n : Nat) : Nat := wrap 64 (h.dst.toNat + (h.offsets n).2)

/-- The lowest and highest byte offset that the runs of a side touch, relative to its address. -/
def Shape.reach (h : Shape) (pick : Nat × Int × Int → Int) (run : Nat) : Int × Int :=
  h.dims.tail.foldl (fun (a : Int × Int) d =>
    let e := ((d.1 : Int) - 1) * pick d
    if e < 0 then (a.1 + e, a.2) else (a.1, a.2 + e)) (0, (run : Int) - 1)

/-- A shape block from its bytes as a number (R220). -/
def Shape.ofNat (v : Nat) : Shape :=
  let nd := bits v 151 144
  let dim := fun (i : Nat) => v / 2 ^ (256 + 192 * i)
  { src := BitVec.ofNat 64 v, dst := BitVec.ofNat 64 (v / 2 ^ 64), sfmt := bits v 132 128, dfmt := bits v 140 136, ndim := nd
    space := bit v 152, cfill := bit v 153
    rsvd := bits v 135 133 ≠ 0 || bits v 143 141 ≠ 0 || bits v 159 154 ≠ 0 || bits v 255 160 ≠ 0
      || (List.range (min nd 14)).any fun i => bits (dim i) 63 32 ≠ 0 || (i = 0 && bits (dim i) 191 64 ≠ 0)
    dims := (List.range (min nd 14)).map fun i => (bits (dim i) 31 0, sgn 64 (bits (dim i) 127 64), sgn 64 (bits (dim i) 191 128)) }
/-- Vectors of a shape block (R220); one whose NDIM is out of range is taken as its header. -/
def shapeVecs (ndim : Nat) : Nat := if ndim = 0 ∨ 14 < ndim then 1 else (32 + 24 * ndim + 63) / 64
/-- R222: whether a shape fails with BAD_FIELD. -/
def Shape.bad (h : Shape) : Bool := h.rsvd || h.ndim = 0 || decide (14 < h.ndim) || h.dims.any fun d => d.1 = 0

/-! ## Places -/

/-- The launch key of a copy. -/
def CopyCmd.key (c : CopyCmd) : Nat := c.part * 65536 + c.launch
/-- The key of a queue and of its engine. -/
def queueKey (die eng q : Nat) : Nat := (die * 16 + eng) * 8 + q
def CopyCmd.queue (c : CopyCmd) : Nat := queueKey c.die c.eng c.q
/-- The tile where the issuer's group lies. -/
def State.copyTile (s : State) (c : CopyCmd) : Nat :=
  match Tbl.find? s.launches c.key with
  | some l => (l.tileOf c.group).getD c.tile
  | none => c.tile

/-- R122, R229: whether an address of a copy lies by role in the scratchpad of a group that is away. -/
def State.copyAway (s : State) (c : CopyCmd) (va : Nat) : Bool :=
  if c.shape.space then false
  else
    let g := (c.segs.getD (va / 2 ^ 61) {}).w0.toNat
    if bits g 61 60 = 2 then s.groupAway c.key c.group
    else if bits g 61 60 = 3 then s.roleAway (s.copyTile c) (bits g 24 19) else false

/-- R181: whether a copy is that of a page's migration: a host COPY whose source page has MIG set (log 49). -/
def State.ownMig (s : State) (c : CopyCmd) : Bool :=
  c.host.isSome && (match s.engAddr c.part 0 none c.shape.src.toNat 1 true false false with | .ok _ (some e) => e.mig | _ => false)
/-- A copy's address checked and translated for its issuer (R134, R219, R222). The copy of a migration alone writes a MIG page without waiting (R181). -/
def State.copyAddr (s : State) (c : CopyCmd) (va n : Nat) (w : Bool) : EngAddr :=
  s.engAddr c.part (s.copyTile c) (if c.shape.space then none else some c.segs) (va % 2 ^ 64) n (!w) w (w && !s.ownMig c)

/-- A side's format by where it lies: the bank format register of a scratchpad bank, or the shape's (R221). -/
def State.sideFmt (s : State) (pa code : Nat) : OFmt :=
  if isSpad pa ∧ pa % 0x80000 < 0x60000 then
    .ofBank ((s.tile (spadTile pa)).bank.getD (pa % 0x80000 / 0x20000) 0) (spadTile pa) (pa % 0x80000 / 0x20000)
  else { code }

/-- The format of a side of a copy at a virtual address: by the bank that it lies in, where it lies in one (R221). -/
def State.fmtAt (s : State) (c : CopyCmd) (va code : Nat) (w : Bool) : OFmt :=
  match s.copyAddr c va 1 w with
  | .ok pa _ => s.sideFmt pa code
  | _ => { code }

/-! ## Moving bytes -/

/-- A byte with its poison. -/
abbrev PByte := Nat × Bool
/-- What reading bytes of a copy gives. -/
inductive CopyGot | bytes (s : State) (bs : List PByte) | fail (status : Nat) | waits (pva : Nat) (w : Walk)

/-- Bytes from va on, line by line, read at their homes; k bounds the lines. -/
def State.copyRead (s : State) (c : CopyCmd) : Nat → Nat → Nat → CopyGot
  | 0, _, _ => .bytes s []
  | k + 1, va, n =>
    if n = 0 then .bytes s []
    else match s.copyAddr c va 1 false with
      | .fail _ => .fail 8
      | .waits pva w => .waits pva w
      | .ok pa _ =>
        let m := min n (64 - pa % 64)
        match s.copyAddr c va m false with
        | .fail _ => .fail 8
        | .waits pva w => .waits pva w
        | .ok pa e =>
          let (s, v, bad) := s.engRead c.part e pa m
          let bs := (List.range m).map fun i => (v / 256 ^ i % 256, bad)
          match s.copyRead c k (va + m) (n - m) with
          | .bytes s rest => .bytes s (bs ++ rest)
          | x => x

/-- Whether bytes from va on can be written: none, or how the granule ends. -/
def State.copyMay (s : State) (c : CopyCmd) : Nat → Nat → Nat → Option CopyGot
  | 0, _, _ => none
  | k + 1, va, n =>
    if n = 0 then none
    else match s.copyAddr c va 1 true with
      | .fail _ => some (.fail 8)
      | .waits pva w => some (.waits pva w)
      | .ok pa _ =>
        let m := min n (64 - pa % 64)
        match s.copyAddr c va m true with
        | .fail _ => some (.fail 8)
        | .waits pva w => some (.waits pva w)
        | .ok _ _ => s.copyMay c k (va + m) (n - m)

/-- Little-endian bytes as a number. -/
def bytesNat (bs : List PByte) : Nat := bs.foldr (fun b acc => b.1 + 256 * acc) 0

/-- R181, R200: the stamp that the copy of a page migration carries for bytes read at va: that of their line, where a host copy reads it through a
stamped page with MIG set (log 49). -/
def State.migStamp (s : State) (c : CopyCmd) (va : Option Nat) : Option W32 :=
  match va with
  | none => none
  | some a =>
    if c.host.isNone then none
    else match s.copyAddr c a 1 false with
      | .ok pa (some e) => if e.mig && e.stamp then some (Tbl.getD s.mem.stamps (pa / 64) 0) else none
      | _ => none

/-- R138: data that lands in a scratchpad bank goes before a vector instruction that uses the bank. -/
def State.inboundBank (s : State) (pa : Nat) : State :=
  if isSpad pa then s.updTile (spadTile pa) fun v => v.takeBank s.cyc (pa % 0x80000 / 0x20000) 1 else s

/-- Bytes written from va on, line by line, at their homes, with the copy's stamp (R200) and the poison they carry. from_ is where they were read, if
they are moved unchanged. -/
def State.copyWrite (s : State) (c : CopyCmd) : Nat → Option Nat → Nat → List PByte → State
  | 0, _, _, _ => s
  | k + 1, from_, va, bs =>
    if bs.isEmpty then s
    else match s.copyAddr c va 1 true with
      | .ok pa e =>
        let m := min bs.length (64 - pa % 64)
        let now := bs.take m
        let s := s.inboundBank pa
        let s := match (match e with | some x => if x.stamp then s.migStamp c from_ else none | none => none) with
          | some w => (s.gather c.part 0 (pa / 64)).stampWrite c.part pa m (bytesNat now) w (now.any (·.2))
          | none => s.engineWrite c.part e pa m (bytesNat now) c.iter (now.any (·.2))
        s.copyWrite c k (from_.map (· + m)) (va + m) (bs.drop m)
      | _ => s

/-! ## Elements -/

/-- An element of a copy: its value, with its poison. -/
abbrev CopyEl := Val × Bool
/-- What decoding elements of a copy gives. -/
inductive CopyEls | els (s : State) (es : List CopyEl) | fail (status : Nat) | waits (pva : Nat) (w : Walk)

/-- n elements, 16,384 at most, from index i of the run at va, in the container of a format that is not a block format, each decoded by the format of the
bank in which it lies where f stands for a whole side (own). -/
def State.plainEls (s : State) (c : CopyCmd) (f : OFmt) (own : Bool) (va i n : Nat) : CopyEls :=
  let w := Num.width f.code
  let b0 := i * w / 8
  let off := i * w % 8
  match s.copyRead c 1100 (va + b0) ((off + n * w + 7) / 8) with
  | .fail st => .fail st
  | .waits pva x => .waits pva x
  | .bytes s bs =>
    .els s ((List.range n).map fun j =>
      let lo := off + j * w
      let raw := bytesNat ((bs.drop (lo / 8)).take 4) / 2 ^ (lo % 8) % 2 ^ w
      ((s.decEl (if own then s.fmtAt c (va + b0 + lo / 8) c.shape.sfmt false else f) 0 0 raw).1, ((bs.drop (lo / 8)).take ((lo % 8 + w + 7) / 8)).any (·.2)))

/-- n elements from index i of the run at va in a block format, within one group (R149). -/
def State.blockEls (s : State) (c : CopyCmd) (f : OFmt) (va i n : Nat) : CopyEls :=
  let code := f.code
  let base := va + i / 16384 * (64 * blockVecs code)
  let j0 := i % 16384
  let data := 64 * blockData code
  match s.plainEls c { code := blockElem code } false base j0 n with
  | .fail st => .fail st
  | .waits pva x => .waits pva x
  | .els s es =>
    match s.copyRead c 8 (base + data + 256) 4 with
    | .fail st => .fail st
    | .waits pva x => .waits pva x
    | .bytes s sc =>
      match s.copyRead c 8 (base + data + j0 / 64) ((j0 + n - 1) / 64 - j0 / 64 + 1) with
      | .fail st => .fail st
      | .waits pva x => .waits pva x
      | .bytes s cs =>
        let sv := Num.fp32 (bytesNat sc)
        let sp := sc.any (·.2)
        .els s (es.mapIdx fun k e =>
          let cb := nth cs ((j0 + k) / 64 - j0 / 64) (0, false)
          let v := scaleVal (Num.mul e.1 sv).1 (cb.1 + 1) (-8)
          let v := match f.scale with | some b => (Num.mul v (Num.fp32 b)).1 | none => v
          (v, e.2 || sp || cb.2))

/-- n elements from index i of a run, group by group where the format is a block format; k bounds the groups. -/
def State.runEls (s : State) (c : CopyCmd) (f : OFmt) (va : Nat) : Nat → Nat → Nat → CopyEls
  | 0, _, _ => .els s []
  | k + 1, i, n =>
    if n = 0 then .els s []
    else if !Num.isBlock f.code then s.plainEls c f true va i n
    else
      let m := min n (16384 - i % 16384)
      match s.blockEls c f va i m with
      | .els s es => match s.runEls c f va k (i + m) (n - m) with
        | .els s more => .els s (es ++ more)
        | x => x
      | x => x

/-- Elements k to k + n of the whole copy, run by run; j bounds the runs. -/
def State.srcEls (s : State) (c : CopyCmd) (f : OFmt) : Nat → Nat → Nat → CopyEls
  | 0, _, _ => .els s []
  | j + 1, k, n =>
    if n = 0 then .els s []
    else
      let c0 := c.shape.count0
      let m := min n (c0 - k % c0)
      match s.runEls c f (c.shape.srcAt (k / c0)) 16 (k % c0) m with
      | .els s es => match s.srcEls c f j (k + m) (n - m) with
        | .els s more => .els s (es ++ more)
        | x => x
      | x => x

/-- An exact integer value. -/
def valInt : Val → Int
  | .fin s m _ => if s then -(m : Int) else m
  | _ => 0

/-- A value encoded for a destination that is no block format (R153, R158, R159). -/
def copyEnc (sf df : OFmt) (rnd : Nat) (v : Val) : Nat :=
  if sf.int && df.int then (Num.encodeInt df.code rnd (valInt v)).1 else (encEl df rnd v).1

/-- Elements packed into bytes (R143). -/
def packBytes (w : Nat) (es : List (Nat × Bool)) : List PByte :=
  let v := es.foldr (fun e acc => e.1 % 2 ^ w + 2 ^ w * acc) 0
  (List.range (es.length * w / 8)).map fun b =>
    (v / 2 ^ (8 * b) % 256, ((es.drop (8 * b / w)).take (if w < 8 then 8 / w else 1)).any (·.2))

/-! ## The block encoder (R150, R151) -/

/-- The bound M of a block format (R149). -/
def blockM (c : Nat) : Nat := [1, 127, 7, 448].getD (c - 18) 1
/-- The largest magnitude of some values. -/
def absMax (vs : List Val) : Val := vs.foldl (fun m v => if Num.cmp m (Num.abs v) = some .lt then Num.abs v else m) (.fin false 0 0)

/-- The bytes of a group record (R149, R150, R151) for 16,384 elements; a record of a group with poison is poisoned. -/
def blockRecord (code rnd : Nat) (es : List CopyEl) : List PByte :=
  let vs := es.map (·.1)
  let w := Num.width code
  let el := blockElem code
  let m := blockM code
  let p := es.any (·.2)
  let nil := (Num.encode el rnd (.fin false 0 0)).1
  let wild := vs.any fun v => Num.isNan v || Num.isInf v
  let sc := if wild then 0x7FC00000 else (Num.toFp32 (Num.rmode rnd) (Num.div (absMax vs) (.fin false m 0)).1).1
  let sv := Num.fp32 sc
  let none_ := wild || Num.isZero sv
  let codeFor := fun (b : List Val) =>
    let top := absMax b
    ((List.range 256).find? fun c => Num.cmp (scaleVal sv ((c + 1) * m) (-8)) top ≠ some .lt).getD 255
  let codes := (List.range 256).map fun b =>
    if wild then 255 else if none_ then 0 else codeFor ((vs.drop (64 * b)).take 64)
  let enc := fun (c : Nat) (v : Val) =>
    let q := (Num.div v (scaleVal sv (c + 1) (-8))).1
    let lim : Val := .fin (Num.neg? q) m 0
    (Num.encode el rnd (if Num.cmp (Num.abs q) (.fin false m 0) = some .gt then lim else q)).1
  let data := (List.range 256).flatMap fun b => ((vs.drop (64 * b)).take 64).map fun v =>
    (if none_ then nil else enc (nth codes b 0) v, p)
  packBytes w data ++ codes.map (·, p) ++ (List.range 4).map (fun i => (sc / 2 ^ (8 * i) % 256, p))
    ++ List.replicate 60 (0, p)

/-! ## A granule (R221, R222) -/

/-- How a granule ends. -/
inductive Moved
  | ok (s : State) (c : CopyCmd)
  | fail (status : Nat)
  | waits (pva : Nat) (w : Walk)
  | pause

/-- Bytes b to b + n of the destination as pieces of runs or records of u bytes: the piece's number, its offset and its bytes; k bounds
the pieces. -/
def pieces (u : Nat) : Nat → Nat → Nat → List (Nat × Nat × Nat)
  | 0, _, _ => []
  | k + 1, b, n => if n = 0 ∨ u = 0 then [] else
    let m := min n (u - b % u)
    (b / u, b % u, m) :: pieces u k (b + m) (n - m)

/-- The pieces checked for writing and then written; a copy that moves poison runs on (R222). -/
def State.writePieces (s : State) (c : CopyCmd) (ps : List (Nat × Option Nat × List PByte)) : Moved :=
  match ps.findSome? fun p => s.copyMay c 600 p.1 p.2.2.length with
  | some (.waits pva w) => .waits pva w
  | some (.fail st) => .fail st
  | some _ => .fail 8
  | none =>
    let bad := ps.any fun p => p.2.2.any (·.2)
    .ok (ps.foldl (fun (s : State) p => s.copyWrite c 600 p.2.1 p.1 p.2.2) s) (if bad && c.status = 0 then { c with status := 7 } else c)

/-- R143: bytes moved unchanged. -/
def State.moveRaw (s : State) (c : CopyCmd) (u d n : Nat) : Moved :=
  let go := (pieces u 300 d n).foldl (fun (acc : State × List (Nat × Option Nat × List PByte) × Option CopyGot) p =>
    match acc with
    | (s, out, none) => match s.copyRead c 600 (c.shape.srcAt p.1 + p.2.1) p.2.2 with
      | .bytes s bs => (s, out ++ [(c.shape.dstAt p.1 + p.2.1, some (c.shape.srcAt p.1 + p.2.1), bs)], none)
      | x => (s, out, some x)
    | _ => acc) (s, [], none)
  match go with
  | (s, out, none) => s.writePieces c out
  | (_, _, some (.waits pva w)) => .waits pva w
  | (_, _, some (.fail st)) => .fail st
  | (_, _, some _) => .fail 8

/-- A granule converted element by element, each encoded by the format of the bank in which it lands (R221). -/
def State.moveEls (s : State) (c : CopyCmd) (sf df : OFmt) (u d n : Nat) : Moved :=
  let w := Num.width df.code
  match s.srcEls c sf 3000 (d * 8 / w) (n * 8 / w) with
  | .fail st => .fail st
  | .waits pva x => .waits pva x
  | .els s es =>
    let c0 := c.shape.count0
    let bs := packBytes w (es.mapIdx fun i e =>
      let k := d * 8 / w + i
      (copyEnc sf (s.fmtAt c (c.shape.dstAt (k / c0) + k % c0 * w / 8) c.shape.dfmt true) c.rnd.toNat e.1, e.2))
    let ps := (pieces u 300 d n).map fun p => (c.shape.dstAt p.1 + p.2.1, none, (bs.drop (p.1 * u + p.2.1 - d)).take p.2.2)
    s.writePieces c ps

/-- A granule of group records. -/
def State.moveBlocks (s : State) (c : CopyCmd) (sf df : OFmt) (u d n : Nat) : Moved :=
  let r := 64 * blockVecs df.code
  let go := (pieces r 8 d n).foldl (fun (acc : State × List (Nat × Option Nat × List PByte) × Option Moved) p =>
    match acc with
    | (s, out, none) => match s.srcEls c sf 20000 (p.1 * 16384) 16384 with
      | .els s es =>
        let run := p.1 * r / u
        (s, out ++ [(c.shape.dstAt run + p.1 * r % u + p.2.1, none, ((blockRecord df.code c.rnd.toNat (es.map fun e =>
          (match df.scale with | some b => (Num.div e.1 (Num.fp32 b)).1 | none => e.1, e.2))).drop p.2.1).take p.2.2)], none)
      | .waits pva w => (s, out, some (.waits pva w))
      | .fail st => (s, out, some (.fail st))
    | _ => acc) (s, [], none)
  match go with
  | (s, out, none) => s.writePieces c out
  | (_, _, some x) => x

/-- R151: whether the runs of a side in a block format that starts at a physical address start at record boundaries of their bank and fit there; reach is
the lowest and the highest byte they touch, relative to it. -/
def recordOk (code pa : Nat) (reach : Int × Int) : Bool :=
  !isSpad pa || (pa % 0x20000 % (64 * blockVecs code) = 0 && decide (0 ≤ (pa % 0x20000 : Int) + reach.1) && decide ((pa % 0x20000 : Int) + reach.2 < 0x20000))

/-- R222: whether a copy fails with FORMAT, the formats of its sides being sf at pa sp and df at dp. -/
def CopyCmd.formatBad (c : CopyCmd) (sf df : OFmt) (sp dp : Nat) : Bool :=
  let c0 := c.shape.count0
  let w := fun (f : OFmt) => c0 * Num.width f.code % 8 ≠ 0
  let strides := fun (f : OFmt) (pick : Nat × Int × Int → Int) =>
    c.shape.dims.tail.all fun d => d.1 = 1 || decide (pick d % (64 * blockVecs f.code : Int) = 0)
  decide (24 ≤ sf.code) || decide (24 ≤ df.code) || w sf || w df
    || (sf.code ≠ df.code && (Num.isLut df.code || (Num.isLut sf.code && (!isSpad sp || sf.bad))))
    || (Num.isBlock df.code && (c0 % 16384 ≠ 0 || !recordOk df.code dp (c.shape.reach (·.2.2) (containerBytes (containerOf df.code) c0))
        || (isSpad dp && !strides df (·.2.2))))
    || (Num.isBlock sf.code && (!recordOk sf.code sp (c.shape.reach (·.2.1) (containerBytes (containerOf sf.code) c0)) || (isSpad sp && !strides sf (·.2.1))))

/-- The first source and destination address of the granule at destination byte d of a copy. -/
def CopyCmd.granuleAt (c : CopyCmd) (ks kd d : Nat) : Nat × Nat :=
  let c0 := c.shape.count0
  let u := containerBytes kd c0
  let n := d / u
  let off := d % u
  (c.shape.srcAt n + (if ks = kd then off else containerBytes ks (containerEls kd off)), c.shape.dstAt n + off)

/-- Where both sides of a copy stand at a granule: their physical addresses and formats. -/
inductive Sides | ok (sp dp : Nat) (sf df : OFmt) | fail (status : Nat) | waits (pva : Nat) (w : Walk)

/-- The sides of a copy at two addresses. -/
def State.sides (s : State) (c : CopyCmd) (a b : Nat) : Sides :=
  match s.copyAddr c a 1 false, s.copyAddr c b 1 true with
  | .ok sp _, .ok dp _ => .ok sp dp (s.sideFmt sp c.shape.sfmt) (s.sideFmt dp c.shape.dfmt)
  | .fail _, _ => .fail 8
  | .waits pva w, _ => .waits pva w
  | _, .fail _ => .fail 8
  | _, .waits pva w => .waits pva w

/-- The formats that the two sides of the destination bytes d to d + n of a copy find, at the ends of each piece (R221): a piece crosses at most one bank's
end. -/
def State.granuleFmts (s : State) (c : CopyCmd) (ks kd u d n : Nat) : List OFmt × List OFmt :=
  let ps := pieces u 300 d n
  let ends := fun (va m code : Nat) (w : Bool) => [s.fmtAt c va code w, s.fmtAt c (va + m - 1) code w]
  (ps.flatMap fun (r, o, m) =>
      let a := if ks = kd then o else containerBytes ks (containerEls kd o)
      ends (c.shape.srcAt r + a) (if ks = kd ∨ 1000 ≤ kd ∨ 1000 ≤ ks then 1 else containerBytes ks (containerEls kd (o + m)) - a) c.shape.sfmt false,
    ps.flatMap fun (r, o, m) => ends (c.shape.dstAt r + o) m c.shape.dfmt true)

/-- Whether the containers of both sides of a copy are known. -/
def CopyCmd.known (c : CopyCmd) : Bool := decide (c.widths.length = 2) && !c.widths.contains 0
/-- The containers of a copy's sides: as captured at its issue (R137). DESIGN CHOICE (log 31): a side whose page was not present then is as the first granule
finds it, and a side has one container, that of its first byte, so a bank of another one fails the granule as one that has changed. -/
def State.withWidths (s : State) (c : CopyCmd) : Moved :=
  if c.known then .ok s c
  else match s.sides c c.shape.src.toNat c.shape.dst.toNat with
    | .ok _ _ sf df =>
      let now := fun (i : Nat) (f : OFmt) => if nth c.widths i 0 = 0 then containerOf f.code else nth c.widths i 0
      .ok s { c with widths := [now 0 sf, now 1 df] }
    | .fail st => .fail st
    | .waits pva w => .waits pva w

/-- The destination bytes of a copy whose containers are known. -/
def CopyCmd.total (c : CopyCmd) : Nat := c.shape.runs * containerBytes (nth c.widths 1 0) c.shape.count0
/-- The source bytes read by the time that the destination has d bytes. -/
def CopyCmd.srcBytes (c : CopyCmd) (d : Nat) : Nat :=
  let c0 := c.shape.count0
  let ks := nth c.widths 0 0
  let kd := nth c.widths 1 0
  let u := containerBytes kd c0
  if u = 0 then 0
  else d / u * containerBytes ks c0 +
    (if ks = kd then d % u else if 1000 ≤ kd then
      containerBytes ks (min c0 ((d % u + 64 * recVecs (kd - 1000) - 1) / (64 * recVecs (kd - 1000)) * 16384))
    else containerBytes ks (containerEls kd (d % u)))

/-- The barrier object of a copy: its line on the issuer's tile. -/
def State.copyBar (s : State) (c : CopyCmd) : Option Nat :=
  if s.groupAway c.key c.group then none else c.bar.map fun p => spadLine (s.copyTile c) (pBank p) (pVidx p)

/-- R228: a copy's barrier counts n bytes down and takes flags. -/
def State.countCopy (s : State) (c : CopyCmd) (n flags : Nat) : State :=
  match s.copyBar c with
  | none => s
  | some line =>
    let b := (s.barrier line).countDown (if c.inward then n else 0) (if c.inward then 0 else n)
    s.putBarrier line { b with flags := b.flags ||| flags }

/-- One granule of a copy: the destination bytes from done on, at most 256. -/
def State.moveGranule (s : State) (c : CopyCmd) : Moved :=
  match s.withWidths c with
  | .fail st => .fail st
  | .waits pva w => .waits pva w
  | .pause => .pause
  | .ok s c =>
    let ks := nth c.widths 0 0
    let kd := nth c.widths 1 0
    let d := c.done
    let u := containerBytes kd c.shape.count0
    if ks = 0 ∨ kd = 0 ∨ u = 0 then .fail 6
    else
      let (a, b) := c.granuleAt ks kd d
      if s.copyAway c a || s.copyAway c b then .pause
      else match s.sides c a b with
      | .fail st => .fail st
      | .waits pva w => .waits pva w
      | .ok sp dp sf df =>
        let first := d = 0 && c.formatBad sf df sp dp
        let n := min 256 (c.total - d)
        let (sfs, dfs) := s.granuleFmts c ks kd u d n
        let off := fun (k : Nat) (fs : List OFmt) => fs.any fun f => containerOf f.code % 1000 ≠ k % 1000 || decide (24 ≤ f.code)
        if first || off ks sfs || off kd dfs then .fail 6
        else
          let r := if (sfs ++ dfs).all fun f => f.code = df.code then s.moveRaw c u d n
            else if Num.isBlock df.code then s.moveBlocks c sf df u d n
            else if Num.isLut df.code || (Num.isLut sf.code && (!isSpad sp || sf.bad)) then .fail 6
            else s.moveEls c sf df u d n
          match r with
          | .ok t c =>
            let c := { c with done := d + n }
            let spent := if c.inward then n else c.srcBytes (d + n) - c.srcBytes d
            let last := decide (c.total ≤ d + n) && c.status = 7
            let less := min c.counted spent
            .ok (if c.bar.isSome ∧ (0 < less ∨ last = true) then t.countCopy c less (if last then 2 else 0) else t) { c with counted := c.counted - less }
          | x => x

/-! ## Queues (R195, R223, R224) -/

/-- The members of a copy's entry: the copy and those merged with it. -/
def entryOf (q : List CopyCmd) : List CopyCmd :=
  match q with
  | [] => []
  | c :: _ => q.filter fun x => decide (x.id = c.id) || decide (x.lead = some (c.lead.getD c.id))

/-- Whether a copy's launch ends or is gone (R259). -/
def State.copyEnds (s : State) (c : CopyCmd) : Bool :=
  c.host.isNone && (match Tbl.find? s.launches c.key with | some l => decide (l.st = .ending) | none => true)

/-- R365: whether the completion word of form 0 is misaligned. -/
def CopyCmd.wordBad (c : CopyCmd) : Bool := (c.fence || !c.shape.cfill) && decide (c.cword.toNat % 16 ≠ 0)

/-- The status with which a copy ends, once it is known. A run of no whole byte ends FORMAT (R222); a misaligned completion word ends BAD_FIELD
(R365, log 59). -/
def State.copyOver (s : State) (c : CopyCmd) : Option Nat :=
  if c.ended then none
  else if s.copyEnds c then some 8
  else if c.fence then none
  else if c.badField || c.shape.bad || c.wordBad then some 2
  else if c.status ≠ 0 ∧ c.status ≠ 7 then some c.status
  else if c.known ∧ c.total ≤ c.done then some (if c.total = 0 then 6 else c.status)
  else none

/-- R122: whether a copy pauses: its group is away, or its next granule touches the scratchpad of a group that is. -/
def State.copyPaused (s : State) (c : CopyCmd) : Bool :=
  let (a, b) := if c.known then c.granuleAt (nth c.widths 0 0) (nth c.widths 1 0) c.done else (c.shape.src.toNat, c.shape.dst.toNat)
  (c.host.isNone && s.groupAway c.key c.group) || s.copyAway c a || s.copyAway c b

/-- Whether a copy has bytes to move now. -/
def State.copyMoves (s : State) (c : CopyCmd) : Bool := !c.ended && !c.fence && (s.copyOver c).isNone && !s.copyPaused c

/-- Whether the head entry of a queue has bytes to move now. -/
def State.canMove (s : State) (q : List CopyCmd) : Bool :=
  let es := entryOf q
  es.any s.copyMoves && !es.any (fun c => s.waitsFor c.part .copy c.id)

/-- R223: the queue an engine serves next, round-robin from the one after its last. -/
def State.nextQueue (s : State) (die eng : Nat) : Option Nat :=
  let last := Tbl.getD s.engLast (die * 16 + eng) 7
  ((List.range 8).map fun i => (last + 1 + i) % 8).find? fun q => s.canMove (Tbl.getD s.queues (queueKey die eng q) [])

/-- A copy of a queue replaced. -/
def State.setCopy (s : State) (key : Nat) (c : CopyCmd) : State :=
  { s with queues := Tbl.put s.queues key ((Tbl.getD s.queues key []).map fun (x : CopyCmd) => if x.id = c.id then c else x) }

/-- The elements that the destination of a copy has taken. -/
def CopyCmd.elsDone (c : CopyCmd) : Nat :=
  let kd := nth c.widths 1 0
  let u := containerBytes kd c.shape.count0
  if u = 0 then 0 else c.done / u * c.shape.count0 + containerEls kd (c.done % u)
/-- The elements that it has taken after its next granule. -/
def CopyCmd.nextEls (c : CopyCmd) : Nat :=
  let kd := nth c.widths 1 0
  if 1000 ≤ kd then (c.elsDone / 16384 + 1) * 16384 else c.elsDone + (if kd = 0 then 1 else 2048 / kd)

/-- One copy moved until it has taken the elements below k, or stops; n bounds its granules. -/
def State.moveTo (s : State) (key k : Nat) : Nat → CopyCmd → State
  | 0, _ => s
  | n + 1, c =>
    if k ≤ c.elsDone then s
    else match s.moveGranule c with
    | .pause => s
    | .fail st => s.setCopy key { c with status := st }
    | .waits pva w =>
      s.engWait .copy c.id c.part c.launch c.group (if c.host.isSome then none else some (c.ctx, c.gen)) pva w
    | .ok s d =>
      let s := s.setCopy key d
      if d.total ≤ d.done then s else s.moveTo key k n d

/-- COPY_GRANULE (R221, R223, R226): one turn of an engine. A merged entry moves the same elements for every requester: those of the largest granule of one. -/
def execCopyGranule (die eng q : Nat) (s : State) : Out :=
  if s.nextQueue die eng ≠ some q then .next s
  else
    let key := queueKey die eng q
    let s := { s with engLast := Tbl.put s.engLast (die * 16 + eng) q }
    match (entryOf (Tbl.getD s.queues key [])).filter s.copyMoves with
    | [] => .next s
    | [c] => .next (s.moveTo key (c.elsDone + 1) 1 c)
    | es =>
      let known := es.map fun c => match s.withWidths c with | .ok _ d => d | _ => c
      let k := known.foldl (fun k c => max k c.nextEls) 0
      .next (known.foldl (fun (s : State) x => s.moveTo key k 20000 x) s)

/-! ## Completion (R222, R225) -/

/-- R225: a fill of an engine leaves for a register of a context of the issuer's cluster group, with the copy that it completes; none where its role is not
bound. -/
def State.engineFill (s : State) (c : CopyCmd) (copy : Option (Nat × Nat × Nat)) : Option State :=
  let w := c.cword.toNat
  let t := s.copyTile c
  (s.roleGroup t (bits w 16 11)).map fun g =>
    let gen := (s.groupCtx c.key g (bits w 10 5)).gen
    let f : Flit := { srcTile := t, srcCtx := c.ctx, fill := true, freg := w % 32, gen, val := c.cval }
    State.fresh { s with flits := s.flits ++ [{ id := s.nextId, launch := c.key, srcGroup := c.group, dstGroup := g, dstCtx := bits w 10 5, f, engine := true, copy }] }

/-- The barrier flags of a status (R227). -/
def statusFlags (st : Nat) : Nat := if st = 8 then 1 else if st = 7 then 2 else if st = 0 then 0 else 4

/-- A copy ends with a status: what its barrier still counts is deducted (R222), the flags are set, and its completion leaves; the queue
moves on once that is written (R195). -/
def State.finishCopy (s : State) (key : Nat) (c : CopyCmd) (st : Nat) : State :=
  let fl := if st = 7 then 0 else statusFlags st
  let s := if c.bar.isSome ∧ (0 < c.counted ∨ fl ≠ 0) then s.countCopy c c.counted fl else s
  let s := s.setCopy key { c with counted := 0, status := st, ended := true }
  if c.shape.cfill && !c.fence then (s.engineFill c (some (key, c.id, st))).getD (s.copyGone key c.id st)
  else if c.cword = 0 ∨ c.cword.toNat % 16 ≠ 0 then s.copyGone key c.id st
  else
    let w : CWord := { id := s.nextId, part := c.part, launch := c.launch, addr := c.cword, tile := s.copyTile c, group := c.group, val := c.cval
                       segs := if c.host.isSome then none else if c.shape.space && !c.fence then none else some c.segs
                       status := some st, iter := c.iter, copy := some (key, c.id, st)
                       behalf := if c.host.isSome then none else some (c.ctx, c.gen) }
    State.fresh { s with cwords := s.cwords ++ [w] }

/-- R122: whether a copy is held for its group, which is off its tile while its launch goes on. -/
def State.copyHeld (s : State) (c : CopyCmd) : Bool := c.host.isNone && s.groupAway c.key c.group && !s.copyEnds c

/-- COPY_COMPLETE (R195, R222, R225, R259): a copy at the head of its queue whose outcome is known completes; one of a group that is away does so after the
resume (R122). -/
def execCopyComplete (die eng q : Nat) (s : State) : Out :=
  let key := queueKey die eng q
  match (entryOf (Tbl.getD s.queues key [])).findSome? fun c => if s.copyHeld c then none else (s.copyOver c).map fun st => (c, st) with
  | some (c, st) => .next (s.finishCopy key c st)
  | none => .next s

/-- Whether a command is in no queue any more, nor saved with a migrating group. -/
def State.copyDone (s : State) (id : Nat) : Bool :=
  !s.queues.any (fun q => q.2.any fun c => decide (c.id = id)) && !s.savedCopies.any fun c => decide (c.id = id)

/-- QFENCE_RELEASE (R224, R366): a queue fence at the head of its queue completes once every earlier command of the queues it names has. -/
def execQfenceRelease (die eng q : Nat) (s : State) : Out :=
  let key := queueKey die eng q
  match Tbl.getD s.queues key [] with
  | [] => .next s
  | c :: _ =>
    if c.fence ∧ !c.ended ∧ !s.copyHeld c ∧ c.after.all s.copyDone then .next (s.finishCopy key c (if c.badField || c.wordBad then 2 else 0)) else .next s

end Sys2Proof.Machine
end

