-- ==== Sys2Proof/Machine/CopyInstr.lean ====
section
/-!
DEFINITION. COPY and QFENCE (R364 to R366), their commands on the way to an engine (R223, R226), and the flits of the message queues
(R230 to R232).
-/
namespace Sys2Proof.Machine

/-! ## COPY and QFENCE -/

/-- R217, R362: whether scratchpad reads of an instruction of these engines must wait: stores of the tile to its own scratchpad lie in
its store buffer, or the context's bank accesses are not performed. -/
def State.spadWaits (s : State) (t c : Nat) : Bool :=
  s.reqs.any (fun r => r.inSb t && isSpad r.pa && decide (spadTile r.pa = t)) || s.bankBusy t c

/-- R362: a local pointer image that names n whole vectors of a bank. -/
def ptrReads (p n : Nat) : Bool := !pBad p && !pRemote p && decide (pVidx p + n ≤ 2048)

/-- n consecutive vectors of a tile from a pointer image on, as a number, and whether one is poisoned. -/
def State.ptrBlock (s : State) (t p n : Nat) : Nat × Bool :=
  let vs := s.vecs t (pBank p) (pVidx p) n
  (vs.foldr (fun v acc => v.1.toNat + 2 ^ 512 * acc) 0, vs.any (·.2))

/-- R221, R365: the format code of a counted side: of the bank where it lies in a scratchpad, be it by a LOCAL or REMOTE segment or by a translation that is
there, else the code of the shape. -/
def State.countFmt (s : State) (c : CopyCmd) (va code : Nat) : Nat :=
  let t := c.tile
  let g := (c.segs.getD (va / 2 ^ 61) {}).w0.toNat
  let off := g % 2 ^ 19 + va % 2 ^ 61
  let at_ := fun (d : Nat) => if 393216 ≤ off then code else bits ((s.tile d).bank.getD (off / 0x20000) 0).toNat 4 0
  if !c.shape.space && bits g 61 60 = 2 then at_ t
  else if !c.shape.space && bits g 61 60 = 3 then match s.tileRole t (bits g 24 19) with | some d => at_ d | none => code
  else (s.fmtAt c va code false).code

/-- R365: where the destination of a copy lies for its barrier: whether in the barrier's tile, or none for an unbound role. -/
def State.copyInward (s : State) (t : Nat) (h : Shape) (segs : Fixed Seg 8) : Option Bool :=
  let g := (segs.getD (h.dst.toNat / 2 ^ 61) {}).w0.toNat
  if h.space then some false
  else if bits g 61 60 = 2 then some true
  else if bits g 61 60 = 3 then (s.tileRole t (bits g 24 19)).map fun d => decide (d = t)
  else some false

/-- R228, R365: the bytes a copy counts, 0 where they cannot be formed. -/
def State.copyBytes (s : State) (c : CopyCmd) (inward : Bool) : Nat :=
  let h := c.shape
  let code := if inward then s.countFmt c h.dst.toNat h.dfmt else s.countFmt c h.src.toNat h.sfmt
  if h.ndim = 0 ∨ 14 < h.ndim ∨ (h.dims.any fun d => d.1 = 0) = true ∨ 24 ≤ code ∨ h.count0 * Num.width code % 8 ≠ 0 then 0
  else h.runs * containerBytes (containerOf code) h.count0

/-- R137: the containers of a copy's sides as they stand at its issue; 0 for a side whose page is not present. -/
def State.issueWidths (s : State) (c : CopyCmd) : List Nat :=
  let side := fun (va code : Nat) (w : Bool) => match s.copyAddr c va 1 w with
    | .ok pa _ => containerOf (s.sideFmt pa code).code
    | _ => 0
  [side c.shape.src.toNat c.shape.sfmt false, side c.shape.dst.toNat c.shape.dfmt true]

/-- R365: complete(FAULT) on the issuing tile: E_FAULT of a readable barrier object, then the completion by R225. -/
def State.copyFault (s : State) (c : CopyCmd) : State :=
  let s := match c.bar with
    | some p => if ptrReads p 1 && !s.poisoned (spadLine c.tile (pBank p) (pVidx p)) then s.countCopy c 0 1 else s
    | none => s
  if c.shape.cfill then (s.engineFill c none).getD s
  else if c.cword = 0 ∨ c.cword.toNat % 16 ≠ 0 then s
  else
    let w : CWord := { id := s.nextId, part := c.part, launch := c.launch, addr := c.cword, tile := c.tile, group := c.group, val := c.cval
                       segs := some c.segs, status := some 8, iter := c.iter, behalf := some (c.ctx, c.gen) }
    State.fresh { s with cwords := s.cwords ++ [w] }

/-- R226: whether the destination of a command is its issuer's own scratchpad. -/
def State.intoOwn (s : State) (c : CopyCmd) : Bool :=
  !c.fence && (match s.copyAddr c c.shape.dst.toNat 1 true with | .ok pa _ => isSpad pa && decide (spadTile pa = c.tile) | _ => false)
/-- The entry to which a command that is on its way belongs: that of the command it joined, or its own. -/
def CopyCmd.entry (c : CopyCmd) : Nat := c.lead.getD c.id
/-- Whether an earlier command of the same context for the same engine is on its way in an entry that x holds of: commands reach an engine in the order of
their issue. -/
def State.copyAfter (s : State) (c : CopyCmd) (x : Nat → Bool) : Bool :=
  s.copyMsgs.any fun y => decide (y.tile = c.tile) && decide (y.ctx = c.ctx) && decide (y.id < c.id) && decide (y.queue / 8 = c.queue / 8) && x y.entry

/-- R226: whether a later COPY may join a command that waits at its cluster's router. -/
def State.mayMerge (s : State) (m c : CopyCmd) : Bool :=
  let src := fun (x : CopyCmd) => match s.copyAddr x x.shape.src.toNat 1 false with | .ok pa _ => some pa | _ => none
  let members := s.copyMsgs.filter fun x => decide (x.entry = m.id)
  m.lead.isNone && !m.fence && decide (s.cyc < m.openTill) && decide (m.tile / 8 = c.tile / 8) && m.part = c.part && m.queue = c.queue
    && decide (members.length < 8) && !members.any (fun x => decide (x.tile = c.tile)) && s.intoOwn m && s.intoOwn c
    && m.shape.sfmt = c.shape.sfmt && m.shape.dst = c.shape.dst && m.shape.dims = c.shape.dims && (src m).isSome && src m = src c
    && !s.copyAfter c fun e => decide (m.id < e)

/-- The entries of a queue and those on their way to it (R223: at most 32). -/
def State.queueHeld (s : State) (key : Nat) : Nat :=
  ((Tbl.getD s.queues key [] ++ s.copyMsgs.filter fun x => decide (x.queue = key)).map (·.entry)).eraseDups.length

/-- A command leaves for its engine; a COPY into its own scratchpad waits at the router for others to join, or joins one (R226). One that its queue has no
room for is refused (R223), which is none. -/
def State.sendCopy (s : State) (c : CopyCmd) : Option State :=
  let c := { c with id := s.nextId }
  match s.copyMsgs.find? (fun m => s.mayMerge m c) with
  | some m => some (State.fresh { s with copyMsgs := s.copyMsgs ++ [{ c with lead := some m.id }] })
  | none =>
    if 32 ≤ s.queueHeld c.queue then none
    else some (State.fresh { s with copyMsgs := s.copyMsgs ++ [{ c with openTill := if s.intoOwn c then s.cyc + 64 else 0 }] })
/-- The issue of a command ends: it is sent, after f, or its context parks with PARK 11. -/
def State.sendIss (s : State) (c : CopyCmd) (f : State → State) : Iss :=
  match s.sendCopy c with
  | some s => .done (f s)
  | none => .park s 11 0 256

/-- What a command takes from its issuer (R219). -/
def State.cmdOf (s : State) (t c die w v : Nat) : CopyCmd :=
  let x := s.ctx t c
  { id := 0, die, eng := bits w 5 2, q := bits w 8 6, part := s.partOf t, launch := (match s.launchOf t with | some l => l.num | none => 0)
    group := s.groupIdx t, tile := t, ctx := c, gen := x.gen, role := w % 4, cword := BitVec.ofNat 64 (bits v 191 128)
    cval := BitVec.ofNat 64 (bits v 255 192), rnd := x.rnd, iter := x.iter, segs := x.seg, badField := bits v 511 256 ≠ 0 }

/-- The common part of COPY and QFENCE: the target word, the die role, and the command vector (R364, R365). -/
def withCopyCmd (S a b : Nat) (s : State) (ok : Nat → Bool) (k : State → Nat → Nat → CopyCmd → Nat → Iss) : Out :=
  issue S s fun s t c => withOps s t c [a, b] [] fun vs s =>
    let w := (arg1 vs).toNat
    let p := (arg2 vs).toNat
    if !ok w then .fail s causeIllegal
    else match s.dieRole t (w % 4) with
      | none => .fail s causeRole
      | some die =>
        if s.spadWaits t c then .hold s
        else if pBad p || pRemote p then .fail s causeIllegal
        else
          let (v, poison) := s.ptrBlock t p 1
          if poison then .fail s causePoison else k s t w (s.cmdOf t c die w v) v

/-- COPY (R228, R365): its checks, then its bytes are counted on its barrier and one command leaves. One that the engine's queue has no room for counts
nothing. -/
def execCopy (S a b : Nat) (s : State) : Out :=
  withCopyCmd S a b s (fun w => bits w 63 18 = 0 && bits w 17 10 = 0) fun s t w cmd v =>
    let sp := bits v 63 0
    let bp := bits v 127 64
    let barEn := bit w 9
    let cmd := { cmd with bar := if barEn then some bp else none, shapeP := BitVec.ofNat 64 sp }
    let head := if ptrReads sp 1 then (s.ptrBlock t sp 1).1 else 0
    let n := shapeVecs (bits head 151 144)
    if !ptrReads sp n || (barEn && !ptrReads bp 1) then
      .done (s.copyFault { cmd with shape := if ptrReads sp 1 then Shape.ofNat head else {} })
    else
      let (sb, poison) := s.ptrBlock t sp n
      if poison then .fail s causePoison
      else if barEn && s.poisoned (spadLine t (pBank bp) (pVidx bp)) then .fail s causeBarrier
      else
        let cmd := { cmd with shape := Shape.ofNat sb }
        let cmd := { cmd with widths := s.issueWidths cmd }
        if !barEn then s.sendIss cmd id
        else match s.copyInward t cmd.shape cmd.segs with
          | none => .fail s causeRole
          | some inward =>
            let cnt := s.copyBytes cmd inward
            let line := spadLine t (pBank bp) (pVidx bp)
            let o := s.barrier line
            let o := if inward then { o with inb := o.inb + cnt } else { o with outb := o.outb + cnt }
            if 0xFFFFFFFF < o.inb ∨ 0xFFFFFFFF < o.outb then .fail s causeBarrier
            else s.sendIss { cmd with inward, counted := cnt } fun s => if cnt = 0 then s else s.putBarrier line o

/-- QFENCE (R366). -/
def execQfence (S a b : Nat) (s : State) : Out :=
  withCopyCmd S a b s (fun w => bits w 63 18 = 0 && !bit w 9) fun s _ w cmd v =>
    s.sendIss { cmd with fence := true, after := [bits w 17 10], badField := cmd.badField || bits v 127 0 ≠ 0 } id

/-- COPY_MERGE_CLOSE (R226): the window closes and the merged command goes on to its engine. -/
def execCopyMergeClose (id : Nat) (s : State) : Out :=
  match s.copyMsgs.find? (fun c => decide (c.id = id)) with
  | none => .next s
  | some c =>
    if c.openTill ≠ 0 ∧ c.openTill ≤ s.cyc then
      .next { s with copyMsgs := s.copyMsgs.map fun (x : CopyCmd) => if x.id = id then { x with openTill := 0 } else x }
    else .next s

/-- A command enters its queue; a QFENCE holds it for the commands that are in the queues it names by then (R224). -/
def State.acceptCopy (s : State) (c : CopyCmd) : State :=
  let ids := fun (m : Nat) => ((List.range 8).filter (bit m)).flatMap fun i => (Tbl.getD s.queues (queueKey c.die c.eng i) []).map (·.id)
  let c := if c.fence then { c with after := ids (c.after.headD 0) } else c
  { s with queues := Tbl.put s.queues c.queue (Tbl.getD s.queues c.queue [] ++ [c]) }

/-- R196: whether a REL, or a FENCE.S at package scope or wider, that a context executed before the act of an identifier has still to complete. -/
def State.fencesBefore (s : State) (t c id : Nat) : Bool :=
  (s.ctx t c).fences.any fun f => (f.kind = .query || f.kind = .link) && decide (f.id < id)
/-- Whether a command waits for such a fence of its issuer. -/
def State.fencedOff (s : State) (c : CopyCmd) : Bool := s.fencesBefore c.tile c.ctx c.id

/-- Whether a command on its way in an entry stays there: for a release before it, for an earlier command of its context to the engine, or for the resume of
its group (R122). -/
def State.copyStays (s : State) (entry : Nat) (c : CopyCmd) : Bool :=
  (if s.groupOff c.key c.group then !s.copyEnds c else s.fencedOff c) || s.copyAfter c fun e => decide (e ≠ entry)

/-- COPY_COMMAND_ENQUEUE (R196, R223, R365): the command, with those merged into it, reaches its queue once the releases before it are complete, after the
earlier commands of its contexts for the engine. -/
def execCopyCommandEnqueue (id : Nat) (s : State) : Out :=
  match s.copyMsgs.find? (fun c => decide (c.id = id)) with
  | none => .next s
  | some c =>
    if c.lead.isSome ∨ c.openTill ≠ 0 then .next s
    else
      let all := s.copyMsgs.filter fun x => decide (x.entry = id)
      if all.any (s.copyStays id) then .next s
      else .next (all.foldl (fun (s : State) x => s.acceptCopy x) { s with copyMsgs := s.copyMsgs.filter fun x => decide (x.entry ≠ id) })

/-! ## Flits and fills (R230 to R232) -/

/-- Whether a word is a COPY or a QFENCE. -/
def isCopyWord (w : W32) : Bool := bits w.toNat 6 0 = 0x7B && bits w.toNat 14 12 = 0 && (bits w.toNat 28 25 = 2 || bits w.toNat 28 25 = 3)

/-- Whether a context waits with PARK 11 for its flit, and not for a COPY or QFENCE to issue again. -/
def Ctx.flitParked (x : Ctx) : Bool := decide (x.park = 11) && !(match x.latch with | some l => isCopyWord l.insn | none => false)

/-- A sender's flit is gone: it may write x30 again, and wakes if it waited for that (R127, R230); the write of x30 in its retry latch is complete, another
instruction there issues again. -/
def State.flitGone (s : State) (m : FlitMsg) : State :=
  if m.engine then s
  else s.updCtx m.f.srcTile m.f.srcCtx fun x =>
    let x := { x with txPend := none }
    if x.flitParked then { (x.wake s.cyc) with latch := x.latch.filter fun l => !l.sent } else if x.park = 1 ∧ x.waitOn = 30 then x.wake s.cyc else x

/-- A sender whose flit is refused parks with PARK 11, the write of x30 in its retry latch, or the instruction that it holds there (R111, R230). -/
def State.parkFlit (s : State) (t c : Nat) : State :=
  let x := s.ctx t c
  if (x.state = .slotted ∨ x.state = .cached) ∧ x.park = 0 ∧ !x.busy then
    s.parkWith t c 11 (some (x.latch.getD { x.sentBy with sent := true }))
  else s
/-- Whether a flit of a context is refused. -/
def State.flitHeld (s : State) (t c : Nat) : Bool :=
  s.flits.any fun m => !m.engine && !m.notice && m.since.isSome && decide (m.f.srcTile = t) && decide (m.f.srcCtx = c)
/-- A flit is refused, and its sender parks; one that waits for something else parks when it would issue next (R230). -/
def State.flitRefused (s : State) (m : FlitMsg) : State :=
  State.parkFlit { s with flits := s.flits.map fun (x : FlitMsg) => if x.id = m.id then { x with since := some s.cyc } else x } m.f.srcTile m.f.srcCtx

/-- The copy that a fill completes leaves its queue (R195). -/
def State.fillDone (s : State) (m : FlitMsg) : State := match m.copy with | some (key, id, st) => s.copyGone key id st | none => s

/-- A flit or fill is dropped, and a notice leaves for its sender (R232). -/
def State.flitDropped (s : State) (m : FlitMsg) : State :=
  State.flitGone { s with flits := s.flits.map fun (x : FlitMsg) => if x.id = m.id then { x with notice := true, copy := none } else x } m |>.fillDone m

/-- A flit or fill has landed. -/
def State.flitTaken (s : State) (m : FlitMsg) : State :=
  State.flitGone { s with flits := s.flits.filter fun (x : FlitMsg) => decide (x.id ≠ m.id) } m |>.fillDone m

/-- The tile of the group a message goes to, where it now takes messages: none while the group migrates or is displaced (R124). -/
def State.flitTile (s : State) (m : FlitMsg) : Option Nat :=
  if s.groupMoves m.launch m.dstGroup then none else (Tbl.find? s.launches m.launch).bind (·.tileOf m.dstGroup)

/-- FLIT_ARRIVE (R230, R232): a flit lands in the receive queue, is refused, or is dropped. -/
def execFlitArrive (id : Nat) (s : State) : Out :=
  match s.flits.find? (fun m => decide (m.id = id)) with
  | none => .next s
  | some m =>
    if m.f.fill ∨ !s.flitMoves m then .next s
    else match s.flitTile m with
      | none => .next (s.flitRefused m)
      | some t =>
        let y := s.ctx t m.dstCtx
        if y.gen ≠ m.f.gen ∨ y.state = .free ∨ y.state = .halted then .next (s.flitDropped m)
        else if 8 ≤ y.rxq.length then .next (s.flitRefused m)
        else .next ((s.updCtx t m.dstCtx fun x =>
          let x := { x with rxq := x.rxq ++ [m.f] }
          if x.park = 1 ∧ x.waitOn = 31 then x.wake s.cyc else x).flitTaken m)

/-- REGISTER_FILL (R127, R225, R232): a fill lands in an open register, or is dropped; of two that reach it in one cycle, the one from the lower tile
lands, where the register still holds what the other brought. While its launch ends, a fill of an engine for a group that is off its tile is dropped. -/
def execRegisterFill (id : Nat) (s : State) : Out :=
  match s.flits.find? (fun m => decide (m.id = id)) with
  | none => .next s
  | some m =>
    if !m.f.fill ∨ !s.flitMoves m then .next s
    else match s.flitTile m with
      | none => if !m.engine then .next (s.flitRefused m) else if s.ending m.launch then .next (s.flitDropped m) else .next s
      | some t =>
        let y := s.ctx t m.dstCtx
        let landed := fun (s : State) => (((s.landX t m.dstCtx m.f.freg m.f.val m.f.poison).updCtx t m.dstCtx fun x =>
          { x with fills := (x.fills.filter fun q => decide (q.1 = s.cyc) && decide (q.2.f.freg ≠ m.f.freg)) ++ [(s.cyc, m)] })).flitTaken m
        if y.gen ≠ m.f.gen ∨ y.state = .free ∨ y.state = .halted then .next (s.flitDropped m)
        else if (y.reg m.f.freg).st = .open then .next (landed s)
        else match y.fills.find? fun q => decide (q.1 = s.cyc) && decide (q.2.f.freg = m.f.freg) && decide (m.f.srcTile < q.2.f.srcTile)
            && decide (y.reg m.f.freg = { val := q.2.f.val, poison := q.2.f.poison, dirty := true }) with
          | some q => .next (landed { s with flits := s.flits ++ [{ q.2 with notice := true, copy := none }] })
          | none => .next (s.flitDropped m)

/-- SEND_RETRY (R111, R223, R230): after 256 cycles a refused flit leaves again, or a refused COPY re-issues. -/
def execSendRetry (tile ctx : Nat) (s : State) : Out :=
  let ripe := fun (m : FlitMsg) => decide (m.f.srcTile = tile) && decide (m.f.srcCtx = ctx)
    && (match m.since with | some n => decide (n + 256 ≤ s.cyc) | none => false)
  let x := s.ctx tile ctx
  let s := { s with flits := s.flits.map fun (m : FlitMsg) => if ripe m then { m with since := none } else m }
  if x.park = 11 ∧ x.flitParked = false ∧ x.parkedAt + 256 ≤ s.cyc then .next (s.updCtx tile ctx fun x => x.wake s.cyc) else .next s

/-- ORPHAN_NOTICE (R232): the sender's ORPH rises and a non-fatal record names the sender and the destination. -/
def execOrphanNotice (id : Nat) (s : State) : Out :=
  match s.flits.find? (fun m => decide (m.id = id)) with
  | none => .next s
  | some m =>
    let away := s.groupAway m.launch m.srcGroup
    if !m.notice || (away && !s.ending m.launch) then .next s
    else
      let s := { s with flits := s.flits.filter fun (x : FlitMsg) => decide (x.id ≠ id) }
      let t := m.f.srcTile
      let p := m.launch / 65536
      let s := if away then s else s.updCtx t m.f.srcCtx fun x => { x with orph := min (x.orph + 1) 0xFFFFFFFF }
      .next (s.pushRec p { kind := 3, code := 64, launch := launchNum m.launch, group := m.dstGroup, ctx := m.dstCtx, gen := m.f.gen
                           tile := (s.flitTile m).getD 0xFFFF, aux := BitVec.ofNat 64 (t + 2 ^ 16 * m.f.srcCtx), at_ := s.CYC })

end Sys2Proof.Machine
end

