-- ==== Sys2Proof/Machine/HomeEvents.lean ====
section
/-!
DEFINITION. The events of memory accesses: what happens at a line's home (R186, R187, R190, R201, R204, R350, R357), release
queries (R191), withdrawals (R206), watches (R358), landing results (R126) and deferred traps (R256).
-/
namespace Sys2Proof.Machine

/-- The rejection of a request by the directory of another partition (R170). -/
def State.rejectReq (s : State) (r : Req) : State :=
  let s := if r.kind = .sbind then { s with reqs := s.reqs.filter fun q => !q.binds r.tile r.ctx r.pc } else s.dropReq r.id
  let s := s.defer r.tile r.ctx r.gen { cause := causePageRights, pc := r.pc, insn := r.insn, addr := BitVec.ofNat 64 r.va }
  s.settle r.tile r.ctx

/-- The partials of a request's line are gathered at its home (R194). -/
def State.gatherReq (s : State) (r : Req) : State := s.gather (s.partOf r.tile) r.tenant (r.pa / 64)
/-- A request reads its line at the home (R171, R194). -/
def State.serveReq (s : State) (r : Req) : State := s.serve (s.partOf r.tile) r.tenant (r.pa / 64) r.shu

/-- HOME_STORE_APPLY (R186, R190, R301): the store leaves its tile's store buffer, is counted and applied at its home. An act that the port has let go is
done (R348, R352, R353, R359). -/
def execHomeStoreApply (id : Nat) (s : State) : Out :=
  match s.req? id with
  | none => .next s
  | some r =>
    if r.acts ∧ r.stage = .flight then if s.actWaits r then .next s else .next ((s.act r).settle r.tile r.ctx)
    else if r.kind ≠ .store ∨ r.stage ≠ .buffer ∨ r.stamped = true ∨ s.homeWaits r = true then .next s
    else
      let p := s.partOf r.tile
      let s := s.countWrite r.tile r.ctx (s.home p r.pa) r.round
      if s.rejects r then .next (s.rejectReq r)
      else
        let s := (s.gatherReq r).dropReq id
        .next ((s.applyWrite p r.tenant r.pa r.n r.data (some r.tile) r.poison r.shu).settle r.tile r.ctx)

/-- R186, R203: the storing tile's own stamped copy of a line leaves: one filled while the store was on its way is older than it. -/
def State.dropOwn (s : State) (t line : Nat) : State := s.updTile t fun v => { v with l1 := Tbl.erase v.l1 line }

/-- STAMPED_WRITE_APPLY (R201): as HOME_STORE_APPLY for a stamped line; a dropped write is acknowledged as dropped. -/
def execStampedWriteApply (id : Nat) (s : State) : Out :=
  match s.req? id with
  | none => .next s
  | some r =>
    if r.kind ≠ .store ∨ r.stage ≠ .buffer ∨ r.stamped = false ∨ s.homeWaits r = true then .next s
    else
      let p := s.partOf r.tile
      let s := s.countWrite r.tile r.ctx (s.home p r.pa) r.round
      if s.rejects r then .next (s.rejectReq r)
      else
        let (s, applied) := ((s.gatherReq r).dropOwn r.tile (r.pa / 64)).applyStamped p r.pa r.n r.data r.iter r.poison
        let s := if applied then s.dropReq id else s.setReq { r with stage := .reply, stale := true }
        .next (s.settle r.tile r.ctx)

/-- FFL.STALE (R156). -/
def stale : Byte := 0x40

/-- STAMPED_WRITE_ACK (R201, R210): a dropped write's acknowledgement sets FFL.STALE of its writer. -/
def execStampedWriteAck (id : Nat) (s : State) : Out :=
  match s.req? id with
  | none => .next s
  | some r =>
    if r.kind ≠ .store ∨ r.stage ≠ .reply then .next s
    else
      let s := if s.alive r.tile r.ctx r.gen then s.addFfl r.tile r.ctx stale 0 else s
      .next (s.dropReq id)

/-- Entries a home has for watches (R358): a slice 256, a scratchpad bank 32; H0 none. -/
def State.watchFree (s : State) (r : Req) : Bool :=
  let p := s.partOf r.tile
  let there := s.reqs.filter fun q => q.isWait && decide (q.stage = .waiting) && decide (s.home p q.pa = s.home p r.pa)
    && (!isSpad r.pa || decide (q.pa / 0x20000 = r.pa / 0x20000))
  decide (there.length < if isSpad r.pa then 32 else 256)

/-- R357, R358: a wait reads its word at the home: it is answered, or a watch is placed, or, with none free, it is refused. -/
def State.waitAtHome (s : State) (r : Req) : State :=
  let w := s.reqN r 8
  if waitHolds (r.kind = .waitc) r.op w r.cmp then
    s.setReq { r with stage := .reply, val := BitVec.ofNat 64 w, poison := s.reqBad r }
  else if isHost r.pa || s.watchFree r then s.setReq { r with stage := .waiting, since := s.cyc }
  else s.setReq { r with stage := .refused, since := s.cyc }

/-- R346, R357: a wait has been entered at its home, and its context, where it has issued on and waits for nothing else, parks there: PARK 3 for WAITW, 4
for WAITC. Its latch holds the wait and where the context goes on (log 69). -/
def State.parkWait (s : State) (r : Req) : State :=
  let x := s.ctx r.tile r.ctx
  if s.alive r.tile r.ctx r.gen && (decide (x.state = .slotted) || decide (x.state = .cached)) && decide (x.park = 0) && !x.busy && x.latch.isNone
      && x.deferred.isNone then
    s.parkWith r.tile r.ctx (if r.kind = .waitc then 4 else 3) (some { insn := r.insn, pc := r.pc, next := some x.pc })
  else s

/-- HOME_LOAD (R187, R203, R299, R300, R357): a load or a wait reaches its home. A wait of a tile that quiesces (R119), or on a word of another that does,
goes back to the port, and reads its word again after the resume (R124). -/
def execHomeLoad (id : Nat) (s : State) : Out :=
  match s.req? id with
  | none => .next s
  | some r =>
    if r.stage ≠ .flight ∨ s.homeWaits r = true ∨ (r.pastBuffer && s.sbOlder r.tile (r.pa / 64) r.entry) = true then .next s
    else if s.rejects r then
      if r.kind = .load ∨ r.kind = .sbind ∨ r.isWait = true then .next (s.rejectReq r) else .next s
    else if r.kind = .load ∨ r.kind = .sbind then
      let s := s.serveReq r
      let v := s.reqN r r.n
      let (v, all) := if r.pastBuffer then (v, false) else s.overlay r.tile r.ctx r.id r.pa v r.n
      let s := s.setReq { r with stage := .reply, val := r.extend v, data := v, poison := !all && s.reqBad r }
      if cacheable r.shu r.pa then
        .next (s.fillL1 (s.partOf r.tile) r.tenant r.tile (r.pa / 64) r.pva (if r.stamped then some (Tbl.getD s.mem.stamps (r.pa / 64) 0) else none))
      else .next s
    else if r.isWait then
      if (s.tile r.tile).quiet || (isSpad r.pa && (s.tile (spadTile r.pa)).quiet) then .next (s.setReq { r with stage := .port })
      else
        let s := (s.serveReq r).waitAtHome r
        .next (if (s.req? id).any fun q => decide (q.stage = .reply) then s else s.parkWait r)
    else .next s

/-- WATCH_RETRY (R358): a refused wait reads the word again after 256 cycles. -/
def execWatchRetry (id : Nat) (s : State) : Out :=
  match s.req? id with
  | none => .next s
  | some r =>
    if r.isWait = true ∧ r.stage = .refused ∧ r.since + 256 ≤ s.cyc then .next (((s.serveReq r).waitAtHome r).parkWait r) else .next s

/-- HOST_WATCH_POLL (R358): H0 reads a watched host or peer word every 1,024 cycles. -/
def execHostWatchPoll (id : Nat) (s : State) : Out :=
  match s.req? id with
  | none => .next s
  | some r =>
    if r.isWait = true ∧ r.stage = .waiting ∧ isHost r.pa = true ∧ r.since + 1024 ≤ s.cyc then .next ((s.serveReq r).waitAtHome r) else .next s

/-- The new value of an atomic and its flags (R350): op is f4, n the bytes; integers are compared signed. -/
def amoNew (op n rnd old b cmp : Nat) : Nat × Nat :=
  let w := 8 * n
  match op with
  | 0 => ((old + b) % 2 ^ w, 0)
  | 1 => (if sgn w old < sgn w b then b else old, 0)
  | 2 => (if sgn w b < sgn w old then b else old, 0)
  | 3 => (b, 0)
  | 4 => (if old = cmp then b else old, 0)
  | 5 => (old &&& b, 0)
  | 6 => (old ||| b, 0)
  | 7 => (old ^^^ b, 0)
  | 8 =>
    let (v, bad) := Num.sum (Num.rmode rnd) [Num.fp32 old, Num.fp32 b]
    let (x, fl) := Num.toFp32 (Num.rmode rnd) v
    (x, if bad then fl ||| NV else fl)
  | _ => ((Num.toFp32 0 (Num.maxV (Num.fp32 old) (Num.fp32 b))).1, 0)

/-- R351: whether the AtomicOp that H0 sends for an atomic on a host or peer line completes with error status: a free value of the counter uses (log 12). -/
def State.opFails (s : State) (r : Req) : Bool := isHost r.pa && decide (r.kind = .amo) && bit (Config.freeWord 2 s.uses).toNat 0
/-- The state after an AtomicOp has used its free values. -/
def State.spend (s : State) (r : Req) : State := if isHost r.pa && decide (r.kind = .amo) then { s with uses := s.uses + 1 } else s

/-- HOME_ATOMIC (R189, R201, R350, R351, R356): the atomic is one write in coherence order; a poisoned line takes no write. H0
sends an atomic on a host or peer line as an AtomicOp; where that completes with error status, nothing is written and the register is full, poisoned and a
free value (log 12). A payload that the NoC poisoned (R266) is written as poison. -/
def execHomeAtomic (id : Nat) (s : State) : Out :=
  match s.req? id with
  | none => .next s
  | some r =>
    if r.stage ≠ .flight ∨ (r.kind ≠ .amo ∧ r.kind ≠ .elect) ∨ s.homeWaits r = true ∨ s.sbOlder r.tile (r.pa / 64) r.entry = true then .next s
    else
      let p := s.partOf r.tile
      let line := r.pa / 64
      let s := s.countWrite r.tile r.ctx (s.home p r.pa) r.round
      if s.rejects r then .next (s.rejectReq r)
      else
        let s := s.serveReq r
        let old := s.reqN r r.n
        let fails := s.opFails r
        let spoilt := r.poison
        let bad := fails || s.reqBad r
        let dropped := r.stamped && r.iter.ult (Tbl.getD s.mem.stamps line 0)
        let (new, fl) := if r.kind = .elect then (2 ^ 63 + r.iter.toNat, 0) else amoNew r.op r.n r.rnd.toNat old r.data r.cmp
        let wins := r.kind = .elect && (!bit old 63 || decide (old % 2 ^ 32 ≠ r.iter.toNat))
        let writes := !bad && !dropped && (r.kind = .amo || wins)
        let r := { r with
          stage := .reply, poison := bad, stale := dropped
          val := if fails then Config.freeWord 3 s.uses else if r.kind = .elect then flag (writes && wins) else r.extend old
          flags := if writes then BitVec.ofNat 8 fl else 0 }
        let s := (s.spend r).setReq r
        if !writes then .next s
        else if r.stamped then .next ((s.dropOwn r.tile line).applyStamped p r.pa r.n new r.iter spoilt).1
        else .next (s.applyWrite p r.tenant r.pa r.n new (some r.tile) spoilt r.shu)

/-- R204: a stamped load answered at its home fills L1 with the line and its stamp. -/
def State.answerLda (s : State) (r : Req) : State :=
  let line := r.pa / 64
  let stamp := Tbl.getD s.mem.stamps line 0
  let s := s.setReq (r.answer s stamp)
  if cacheable r.shu r.pa then s.fillL1 (s.partOf r.tile) r.tenant r.tile line r.pva (if r.stamped then some stamp else none) else s

/-- A stamped load ends in STALE_TIMEOUT (R204, R206): its destinations are as they were, and it stays in the retry
latch. For a crown that has entered its handler meanwhile it is evaluated afresh after TRET (R258). -/
def State.staleTrap (s : State) (r : Req) : State :=
  let s := ((s.dropReq r.id).unPend r.tile r.ctx r.dst (bit r.data 0)).unPend r.tile r.ctx (r.dst + 1) (bit r.cmp 0)
  if (match (s.ctx r.tile r.ctx).latch with | some l => decide (l.pc = r.pc) | none => false) = false then s
  else s.takeTrap r.tile r.ctx { cause := causeStaleTimeout, pc := r.pc, insn := r.insn, addr := BitVec.ofNat 64 r.va }

/-- Loads waiting in the wait list of a slice (R205: 64 entries). -/
def State.waitListFull (s : State) (slice : Nat) : Bool :=
  decide (64 ≤ (s.reqs.filter fun q => decide (q.kind = .ldaW) && (decide (q.stage = .waiting) || decide (q.stage = .withdrawing))
    && decide (q.pa / 0x800000 = slice)).length)

/-- STAMPED_LOAD_AT_HOME (R203 to R205, R207): the load is answered, trapped where SLIM is 0, refused by a full wait list (PARK 8) or
entered in it (PARK 7), and, where its tile quiesces (R119), withdrawn at once. -/
def execStampedLoadAtHome (id : Nat) (s : State) : Out :=
  match s.req? id with
  | none => .next s
  | some r =>
    if r.stage ≠ .flight ∨ (r.kind ≠ .ldaW ∧ r.kind ≠ .ldaN) ∨ s.homeWaits r = true ∨ s.sbOlder r.tile (r.pa / 64) r.entry = true then .next s
    else if s.rejects r then .next (s.rejectReq r)
    else
      let s := s.serveReq r
      if r.kind = .ldaN ∨ r.stamped = false ∨ r.young (Tbl.getD s.mem.stamps (r.pa / 64) 0) = true then .next (s.answerLda r)
      else if (s.ctx r.tile r.ctx).slim = 0 then .next (s.staleTrap r)
      else
        let full := s.waitListFull (r.pa / 0x800000)
        let q := if full then { r with stage := .refused, since := s.cyc, spent := 0 } else { r with stage := .waiting, since := s.cyc }
        let s := (s.setReq q).parkLatched r.tile r.ctx r.pc (if full then 8 else 7) (if full then 256 else 0)
        .next (if (s.tile r.tile).quiet then s.withdraw q else s)

/-- The stamped load of a context at a stage. -/
def State.ldaAt (s : State) (t c : Nat) (st : ReqStage) : Option Req :=
  s.reqs.find? fun r => decide (r.tile = t) && decide (r.ctx = c) && decide (r.kind = .ldaW) && decide (r.stage = st)

/-- A context goes on from PARK 8: its load issues again from the retry latch, its count of SLIM afresh. -/
def Ctx.wakeRefused (x : Ctx) (cyc : Nat) : Ctx := { (x.wake cyc) with latch := x.latch.map fun l => { l with timer := 0 } }

/-- STAMPED_LOAD_RETRY (R111, R117, R205): 256 cycles after the refusal the load issues again from the retry latch. A context that has resumed in PARK 8
counts what its latch holds of them. -/
def execStampedLoadRetry (tile ctx : Nat) (s : State) : Out :=
  let x := s.ctx tile ctx
  match s.ldaAt tile ctx .refused, x.latch with
  | some r, l =>
    if r.since + 256 ≤ s.cyc then
      .next ((s.withdraw r).updCtx tile ctx fun x => if l.map (·.pc) = some r.pc then x.wakeRefused s.cyc else x)
    else .next s
  | none, some l =>
    if x.park = 8 ∧ x.state ≠ .stopped ∧ x.parkedAt + l.timer ≤ s.cyc ∧ (s.tile tile).quiet = false then
      .next (s.updCtx tile ctx fun x => x.wakeRefused s.cyc)
    else .next s
  | none, none => .next s

/-- SLIM_TIMEOUT (R206): the waiting load's count reaches SLIM and a withdrawal leaves for the home. -/
def execSlimTimeout (tile ctx : Nat) (s : State) : Out :=
  match s.ldaAt tile ctx .waiting with
  | none => .next s
  | some r =>
    let lim := (s.ctx tile ctx).slim
    if lim ≠ 0xFFFFFFFF ∧ lim.toNat ≤ s.slimCount r then .next (s.setReq { r with stage := .withdrawing }) else .next s

/-- STALE_WITHDRAW_ACK (R206): the entry was freed, and STALE_TIMEOUT is raised; an answer given before the withdrawal arrived
completes the load instead. -/
def execStaleWithdrawAck (tile ctx : Nat) (s : State) : Out :=
  match s.ldaAt tile ctx .withdrawing with
  | none => .next s
  | some r => .next (s.staleTrap r)

/-- LOAD_RESULT_LAND (R126, R204, R265, R350, R357): a reply lands; an LDA.W, or a wait on which its context is parked, completes its context's
instruction, and the acquire of a wait is over (R193). -/
def execLoadResultLand (id : Nat) (s : State) : Out :=
  match s.req? id with
  | none => .next s
  | some r =>
    if r.stage ≠ .reply ∨ r.kind = .store then .next s
    else if r.kind = .sbind then .next ((s.bindLand r.tile r.ctx r.pc).settle r.tile r.ctx)
    else
      let s := s.dropReq id
      if !s.alive r.tile r.ctx r.gen then .next s
      else
        let (t, c) := (r.tile, r.ctx)
        let s := s.landX t c r.dst r.val r.poison
        let s := s.addFfl t c (if r.stale then r.flags ||| stale else r.flags) 0
        let s := if r.kind = .ldaW ∨ r.kind = .ldaN then s.landX t c (r.dst + 1) (r.age.signExtend 64) false else s
        let s := if r.kind = .ldaW then s.completeAt t c r.pc else s
        let x := s.ctx t c
        let s := if r.isWait && (decide (x.park = 3) || decide (x.park = 4) || ((s.tile t).inH && decide (c = 0))) then s.completeAt t c r.pc else s
        .next (s.settle t c)

/-- PARTIAL_EVICTION (R190, R194): the partial leaves for its home, where it is combined at once; it is a write of the round then
current, and waits until that round number is free. -/
def execPartialEviction (tile line : Nat) (s : State) : Out :=
  match Tbl.find? (s.tile tile).parts line with
  | none => .next s
  | some q =>
    let r := (s.ctx tile q.ctx).relRnd
    if (s.ctx tile q.ctx).roundShut s.nextId r then .next s
    else
      let p := s.partOf tile
      let s := s.countWrite tile q.ctx (s.home p (64 * line)) r
      .next (s.gatherFrom p (s.tenantOf tile p) line (fun t => decide (t = tile)))

/-- R191, R192: the hold that heads the port's queue ends. -/
def State.popFence (s : State) (tile ctx : Nat) : State :=
  (s.updCtx tile ctx fun x => { x with fences := x.fences.tail }).settle tile ctx

/-- R191: one query of the release that heads the port's queue: the stores have left, the homes gather the partials of every line of which this tile
holds one (R194), and when the counts add up and every earlier access has returned, its bank accesses included (R352), the held accesses go on and
the clearing pass leaves. At system scope H0's read on the link then goes out, and its completion, the next query, ends the hold (R192, log 53). -/
def execReleaseQuery (tile ctx : Nat) (s : State) : Out :=
  let x := s.ctx tile ctx
  match x.fences with
  | [] => .next s
  | f :: rest =>
    if f.kind = .link then .next (s.popFence tile ctx)
    else if f.kind ≠ .query then .next s
    else if s.reqs.any (fun r => decide (r.tile = tile) && decide (r.ctx = ctx) && decide (r.id < f.id) && !r.returns
      && decide (r.stage ≠ .reply)
      && (decide (r.kind ≠ .store) || decide (r.stage = .port) || decide (r.stage = .buffer))) then .next s
    else
      let p := s.partOf tile
      let s := (s.tile tile).parts.foldl (fun s q => s.gather p (s.tenantOf tile p) q.1) s
      let x := s.ctx tile ctx
      if s.countSum tile ctx f.round + x.spill.getD f.round 0 = x.issued.getD f.round 0 ∧ s.loadsOut tile ctx f.id = false
          ∧ s.unitBusy tile ctx f.id = false then
        let s := s.updCtx tile ctx fun x => { x with clearing := x.clearing.set f.round true }
        if f.sys then .next (s.updCtx tile ctx fun x => { x with fences := { f with kind := .link, loads := true } :: rest })
        else .next (s.popFence tile ctx)
      else .next s

/-- RELEASE_CLEAR_RETURN (R191): the clearing pass of a finished release returns: its counts are zero and its round is free. -/
def execReleaseClearReturn (tile ctx : Nat) (s : State) : Out :=
  let x := s.ctx tile ctx
  match (List.range 4).find? fun r => x.clearing.getD r false with
  | none => .next s
  | some r =>
    let s := { s with counts := s.counts.filter fun k => !(decide (k.tile = tile) && decide (k.ctx = ctx) && decide (k.round = r)) }
    let s := s.updCtx tile ctx fun x => { x with
      closed := x.closed.set r (x.fences.any fun f => decide (f.kind = .query) && decide (f.round = r)), clearing := x.clearing.set r false
      issued := x.issued.set r 0, spill := x.spill.set r 0 }
    .next (s.settle tile ctx)

/-- DEFERRED_TRAP (R256): the context reaches issue and takes its deferred trap; the instruction that would have issued does
not. -/
def execDeferredTrap (tile ctx : Nat) (s : State) : Out :=
  match (s.ctx tile ctx).deferred with
  | none => .next s
  | some d => .next (s.takeTrap tile ctx { cause := d.cause, pc := d.pc, insn := d.insn, addr := d.addr, detail := 3 })

end Sys2Proof.Machine
end

