-- ==== Sys2Proof/Machine/Route.lean ====
section
/-!
DEFINITION. Route and reassembly (R233 to R245, R367 to R371).
-/
namespace Sys2Proof.Machine

/-! ## Messages to other ranks (R240, R248) -/

/-- The default spray width of an endpoint context (R36). -/
def State.epSpray (s : State) (n : Nat) : Nat := bits (s.pfr (0x40018 + 64 * n)).toNat 31 24

/-- The fabric address of endpoint context n (R36). -/
def State.epOwn (s : State) (n : Nat) : BitVec 128 := BitVec.ofNat 128 ((s.pfr (0x40000 + 64 * n)).toNat + 2 ^ 64 * (s.pfr (0x40008 + 64 * n)).toNat)

/-- A message leaves for rank k of a launch under RUD, on the endpoint and under the key of its rank table entry (R240, R248, R250). -/
def State.sendRank (s : State) (l : Launch) (k off ev width : Nat) (carries : Carries) (data : List Byte) (poison : Bool) (contrib : Option Contribution) (aop : Nat) : State :=
  let r := nth l.ranks k {}
  State.fresh { s with tx := s.tx ++ [{ id := s.nextId, ep := r.lep, dst := r.addr, dstEp := r.ep, key := r.key, off, ev, width, data, poison, contrib, aop, carries }] }

/-- n bytes of a number. -/
def natBytes (v : Nat) (n : Nat) : List Byte := (List.range n).map fun i => BitVec.ofNat 8 (v / 2 ^ (8 * i))

/-- The row header (R234). -/
def RouteMsg.header (m : RouteMsg) : Nat :=
  m.orank + 2 ^ 16 * m.launch + 2 ^ 32 * m.group + 2 ^ 48 * m.entry + 2 ^ 56 * m.gen + 2 ^ 64 * m.rs + 2 ^ 72 * m.tgt + 2 ^ 80 * m.wvec
    + 2 ^ 96 * m.weight.toNat

/-- A route message enters: for a group of this package it is on its way; for another rank it leaves through Ethernet. -/
def State.sendRoute (s : State) (l : Launch) (m : RouteMsg) : State :=
  let m := { m with id := s.nextId }
  let s := State.fresh { s with rmsgs := s.rmsgs ++ [m] }
  match m.rank with
  | none => s
  | some k =>
    let data := natBytes m.header 16 ++ m.data.flatMap fun d => natBytes d.1.toNat 64
    s.sendRank l k m.roles 0 (s.epSpray (nth l.ranks k {}).lep) (.row m.id) data (m.data.any (·.2)) none (16 + m.kind)

/-! ## Entries (R236, R237, R242 to R244) -/

/-- Entry n of tile t. -/
def State.entry (s : State) (t n : Nat) : Reasm := (s.tile t).reasm.getD n {}
/-- A field of an entry's descriptor (R236): 0 OUT, 1 to 4 the buffers, 5 STATUS, 6 CWORD, 7 CVAL. -/
def Reasm.word (e : Reasm) (i : Nat) : Nat := (nth e.desc i 0).toNat
/-- The bits of row r in a mask. -/
def rowBits (m r : Nat) : Nat := bits m (4 * r + 3) (4 * r)
/-- R243: whether every selected slot of a row is settled. -/
def Reasm.rowDone (e : Reasm) (r : Nat) : Bool :=
  rowBits e.expect r &&& (15 ^^^ (rowBits e.ret r ||| rowBits e.drop r ||| rowBits e.tout r)) = 0

/-- The segments by which an entry's addresses go: those of the context that opened it. -/
def State.entrySegs (s : State) (t : Nat) (e : Reasm) : Option (Fixed Seg 8) := some (s.ctx t e.owner).seg

/-- R155, R243: the flags of a combine as CFLAGS has them. -/
def toCflags (f : Nat) : Nat := b2n (bit f 0) + 2 * b2n (bit f 2) + 4 * b2n (bit f 3) + 8 * b2n (bit f 4)

/-- One element of a row's weighted combine (R243): the values of the returned slots with their weights, in slot order. -/
def combineSlots (ws : List (Nat × Nat)) : Nat × Nat :=
  let r := ws.foldl (fun (acc : Option Nat × Nat) p =>
    match acc.1 with
    | none =>
      let (v, bad) := Num.mul (Num.fp32 p.1) (Num.fp32 p.2)
      let (x, f) := Num.toFp32 0 v
      (some x, acc.2 ||| (if bad then f ||| NV else f))
    | some a =>
      let (v, f) := Num.fma 0 (Num.fp32 p.1) (Num.fp32 p.2) (Num.fp32 a)
      let (x, g) := Num.toFp32 0 v
      (some x, acc.2 ||| f ||| g)) (none, 0)
  (r.1.getD 0, r.2)

/-- Output vector v of row r: read from the buffers, combined and written. The flag tells whether every access succeeded. -/
def State.writeRowVec (s : State) (t n r v : Nat) : State × Bool :=
  let e := s.entry t n
  let p := s.partOf t
  let segs := s.entrySegs t e
  let at_ := 64 * e.wvec * r + 64 * v
  let slots := (List.range 4).filter fun k => bit (rowBits e.ret r) k
  let rvAt := spadPa t (pBank e.rv * 0x20000 + 64 * pVidx e.rv + 32 * r + 16)
  let weights := slots.map fun k => s.peekN (rvAt + 4 * k) 4
  let wPoison := !slots.isEmpty && s.poisoned (rvAt / 64)
  let got := slots.foldl (fun (acc : Option (State × List Nat × Bool)) k => match acc with
    | none => none
    | some (s, vs, q) => match s.segRead p t segs 3 (e.word (1 + k) + at_) 64 with
      | .ok s v q2 => some (s, vs ++ [v], q || q2)
      | _ => none) (some (s, [], wPoison))
  match got with
  | none => (s, false)
  | some (s, vs, poison) =>
    let els := (List.range 16).map fun i => combineSlots (weights.zip (vs.map fun v => bits v (32 * i + 31) (32 * i)))
    let out := els.foldr (fun x acc => x.1 + 2 ^ 32 * acc) 0
    match s.segWrite p t segs e.iter poison 3 (e.word 0 + at_) 64 out with
    | .ok s _ _ => (s.updEntry t n fun e => { e with cflags := els.foldl (fun f x => f ||| toCflags x.2) e.cflags }, true)
    | _ => (s, false)

/-- An output row: its vectors in order, a vector that fails skipped. -/
def State.writeRow (s : State) (t n r : Nat) : State × Bool :=
  (List.range (s.entry t n).wvec).foldl (fun (acc : State × Bool) v =>
    let (s, ok) := acc.1.writeRowVec t n r v
    (s, acc.2 && ok)) (s, true)

/-- R239: ROUTE retires: the unit is free and its context goes on. -/
def State.retireRoute (s : State) (t n : Nat) : State :=
  match (s.tile t).route with
  | none => s
  | some u =>
    if u.entry ≠ n then s
    else
      let s := match u.waiting with
        | some id => if u.held then { s with rmsgs := s.rmsgs.filter fun m => decide (m.id ≠ id) } else s
        | none => s
      ((s.updTile t fun v => { v with route := none }).updEntry t n fun e => { e with state := 3 }).completeAt t u.ctx u.pc

/-- The status block (R244). -/
def Reasm.statusBlock (e : Reasm) : Nat :=
  e.done + 2 ^ 16 * e.cflags + 2 ^ 32 * e.gen + 2 ^ 64 * e.expect + 2 ^ 128 * e.ret + 2 ^ 192 * e.drop + 2 ^ 256 * e.tout + 2 ^ 320 * e.disc

/-- The close of an entry (R244, R245): the slots not settled time out, the rows still to be written are written, the status block follows, a write that
fails being skipped, ROUTE retires, and CWORD leaves through the partition's address space (R414), after which STATE becomes 4. -/
def State.closeEntry (s : State) (t n : Nat) (fault : Bool) : State :=
  let s := s.updEntry t n fun e => { e with tout := e.tout ||| (e.expect &&& ((2 ^ 64 - 1) ^^^ (e.ret ||| e.drop))), closing := true }
  let s := s.updEntry t n fun e => e.pause s.cyc
  let (s, rows) := ((List.range 16).filter fun r => !bit (s.entry t n).done r).foldl (fun (acc : State × Bool) r =>
    let (s, ok) := acc.1.writeRow t n r
    (s, acc.2 && ok)) (s, true)
  let e := s.entry t n
  let p := s.partOf t
  let (s, block) := match s.segWrite p t (s.entrySegs t e) e.iter false 3 (e.word 5) 64 e.statusBlock with | .ok s _ _ => (s, true) | _ => (s, false)
  let s := (s.retireRoute t n).updEntry t n fun e => { e with bad := fault || !rows || !block }
  if e.word 6 = 0 then s.shutEntry t n
  else
    let w : CWord := { id := s.nextId, part := p, launch := (match s.launchOf t with | some l => l.num | none => 0), addr := nth e.desc 6 0
                       behalf := some (e.owner, (s.ctx t e.owner).gen), tile := t, group := s.groupIdx t, val := nth e.desc 7 0, iter := e.iter, entry := some (n, e.gen) }
    State.fresh { s with cwords := s.cwords ++ [w] }

/-- Rows whose slots are settled complete in order; an entry whose rows are all complete closes, and so does one whose row fails (R243 to
R245). -/
def State.settleEntry (s : State) (t n : Nat) : State :=
  let s := (List.range 16).foldl (fun (s : State) r =>
    let e := s.entry t n
    if e.closing || bit e.done r || !e.rowDone r || !(e.state = 2 || e.state = 3) then s
    else match s.writeRow t n r with
      | (s, true) => s.updEntry t n fun e => { e with done := e.done ||| 2 ^ r }
      | (s, false) => s.closeEntry t n true) s
  let e := s.entry t n
  if !e.closing ∧ (e.state = 2 ∨ e.state = 3) ∧ e.done = 0xFFFF then s.closeEntry t n false else s

/-! ## The route unit (R239, R240) -/

/-- The row message of pair i of a tile's route, with its target number and its map entry. -/
def State.rowMsg (s : State) (t : Nat) (l : Launch) (u : RouteUnit) (i tgt ent : Nat) : RouteMsg :=
  let e := s.entry t u.entry
  let r := i / 4
  let rank := bits ent 31 16
  let local_ := rank = 0xFFFF || decide (l.r.nranks ≠ 0 ∧ rank = l.r.myrank)
  { id := 0, kind := 0, part := l.part, skey := l.part * 65536 + l.num, sgroup := s.groupIdx t, rank := if local_ then none else some rank
    dkey := l.part * 65536 + l.num, dgroup := (l.roleGroup (bits ent 14 13) (bits ent 12 6) (bits ent 5 0)).getD 0, roles := ent % 2 ^ 15
    orank := if l.r.nranks = 0 then 0xFFFF else l.r.myrank, launch := l.num, group := s.groupIdx t, entry := u.entry, gen := e.gen
    rs := r + 16 * (i % 4), tgt, wvec := e.wvec
    weight := BitVec.ofNat 32 (s.peekN (spadPa t (pBank e.rv * 0x20000 + 64 * pVidx e.rv + 32 * r + 16 + 4 * (i % 4))) 4)
    data := s.vecs t (pBank e.tilep) (pVidx e.tilep + r * e.wvec) e.wvec }

/-- The route unit hands out its next pair, or ROUTE retires once SENT equals EXPECT (R239). -/
def State.routeNext (s : State) (t : Nat) : State :=
  match (s.tile t).route, s.launchOf t with
  | some u, some l =>
    if u.waiting.isSome then s
    else
      let e := s.entry t u.entry
      match u.plan.find? fun p => decide (u.next ≤ p.1) with
      | some (i, tgt, ent) =>
        let m := s.rowMsg t l u i tgt ent
        (s.updTile t fun v => { v with route := some { u with next := i + 1, waiting := some s.nextId, held := false } }).sendRoute l m
      | none => if e.sent = e.expect then s.retireRoute t u.entry else s
  | _, _ => s

/-- The group of this package that sent a route message. -/
def State.origin (s : State) (m : RouteMsg) : Option GroupSt := (Tbl.find? s.launches m.skey).bind fun l => Tbl.find? l.groups m.sgroup
/-- Its tile, from which it has not been lifted (R245): its route unit is there, though the tile be quiet. -/
def State.originTile (s : State) (m : RouteMsg) : Option Nat :=
  (s.origin m).bind fun x => if x.slab.isSome ∨ x.place = .displaced then none else some x.tile

/-- The unit that handed out a row is done with it: its slot is marked sent where it was delivered, and the next pair follows. -/
def State.rowGone (s : State) (m : RouteMsg) (sent : Bool) : State :=
  let s := { s with rmsgs := s.rmsgs.filter fun x => decide (x.id ≠ m.id) }
  match s.originTile m with
  | none => s
  | some t =>
    let e := s.entry t m.entry
    let s := if sent && e.gen = m.gen && (e.state = 2 || e.state = 3) then
        s.updEntry t m.entry fun e => { e with sent := e.sent ||| 2 ^ (4 * (m.rs % 16) + m.rs / 16) } else s
    let s := match (s.tile t).route with
      | some u => if u.waiting = some m.id then s.updTile t fun v => { v with route := some { u with waiting := none, held := false } } else s
      | none => s
    s.routeNext t

/-- A drop notice leaves for the origin that a message names (R240, R241). -/
def State.dropNotice (s : State) (l : Launch) (m : RouteMsg) : State :=
  let local_ := m.orank = 0xFFFF || decide (l.r.nranks ≠ 0 ∧ m.orank = l.r.myrank)
  s.sendRoute l { m with kind := 2, rank := if local_ then none else some m.orank, dkey := l.part * 65536 + m.launch, dgroup := m.group
                         skey := l.part * 65536 + l.num, data := [] }

/-- What stands in the way of a row at its target (R240, R245): it lands, it is refused, or it is held; where the roles of a row from another rank name no
group of the launch, nothing is there to take it, and it is refused as under DROP (DESIGN CHOICE, log 70). -/
inductive RowFate | lands (tile slot : Nat) | refused (tile : Nat) (slot : Option Nat) | held | unbound (l : Launch) | lost
  deriving DecidableEq, Repr

/-- R240. -/
def State.rowFate (s : State) (m : RouteMsg) : RowFate :=
  match Tbl.find? s.launches m.dkey with
  | none => .lost
  | some l => match l.tileOf m.dgroup with
    | none => .unbound l
    | some t =>
      if s.groupMoves m.dkey m.dgroup then .held
      else match (List.range 8).find? fun i => let g := (s.tile t).rttgt.getD i {}; g.valid && g.tgt = m.tgt with
        | none => .refused t none
        | some i =>
          let g := (s.tile t).rttgt.getD i {}
          if g.wmax < m.wvec then .refused t (some i)
          else if (g.tail + 2 ^ 32 - g.head) % 2 ^ 32 < g.cap then .lands t i
          else if g.wait then .held else .refused t (some i)

/-- ROUTE_ROW_ARRIVE (R234, R240): a row lands in its target's ring and its arrival word rises, or it is refused, or held under WAIT with
its context parked (PARK 12). One that the unit of a group that is off its tile holds stays there (R245). -/
def execRouteRowArrive (id : Nat) (s : State) : Out :=
  match s.rmsgs.find? (fun m => decide (m.id = id)) with
  | none => .next s
  | some m =>
    if m.kind ≠ 0 ∨ m.rank.isSome = true ∨ ((s.origin m).isSome ∧ s.originTile m = none) then .next s
    else match s.rowFate m with
    | .lost => .next (s.rowGone m true)
    | .unbound l => .next ((s.dropNotice l m).rowGone m false)
    | .held =>
      match s.originTile m with
      | none => .next s
      | some t => match (s.tile t).route with
        | some u =>
          if u.waiting = some id ∧ !u.held then
            .next ((s.updTile t fun v => { v with route := some { u with held := true } }).parkLatched t u.ctx u.pc 12 0)
          else .next s
        | none => .next s
    | .refused t slot =>
      let s := match slot with
        | some i => s.updTile t fun v => { v with rttgt := v.rttgt.set i (let g := v.rttgt.getD i {}; { g with drops := min (g.drops + 1) 0xFFFFFFFF }) }
        | none => s
      match s.launchOf t with
      | some l => .next ((s.dropNotice l m).rowGone m false)
      | none => .next (s.rowGone m false)
    | .lands t i =>
      let g := (s.tile t).rttgt.getD i {}
      let p := s.partOf t
      let base := spadPa t (bits g.ring 12 11 * 0x20000 + 64 * (g.ring % 2048 + g.tail % g.cap * (1 + g.wmax)))
      let s := s.applyWrite p 0 base 64 m.header none false false
      let s := (m.data.mapIdx fun k d => (k, d)).foldl (fun (s : State) q => s.applyWrite p 0 (base + 64 * (q.1 + 1)) 64 q.2.1.toNat none q.2.2 false) s
      let s := s.updTile t fun v => { v with rttgt := v.rttgt.set i { g with tail := (g.tail + 1) % 2 ^ 32 } }
      let aw := spadPa t (bits g.aword 12 11 * 0x20000 + 64 * (g.aword % 2048))
      .next ((s.applyWrite p 0 aw 8 (s.peekN aw 8 + 1) none false false).rowGone m true)

/-- ROUTE_HANDOUT_RESUME (R240): the ring has freed a slot, and the held row goes on. -/
def execRouteHandoutResume (tile : Nat) (s : State) : Out :=
  match (s.tile tile).route with
  | none => .next s
  | some u =>
    match (if u.held then u.waiting.bind fun id => s.rmsgs.find? fun m => decide (m.id = id) else none) with
    | none => .next s
    | some m =>
      if s.rowFate m = .held then .next s
      else .next ((s.updTile tile fun v => { v with route := some { u with held := false } }).updCtx tile u.ctx fun x =>
        if x.park = 12 ∧ (match x.latch with | some l => decide (l.pc = u.pc) | none => false) = true then { x with park := 0, busy := true } else x)

/-- R244: an entry whose deadline has come closes; one still open closes with nothing written. -/
def State.deadline (s : State) (t n : Nat) : State :=
  let e := s.entry t n
  match e.due with
  | none => s
  | some d =>
    if s.cyc < d ∨ e.closing = true ∨ e.state = 0 ∨ e.state = 4 ∨ (s.tile t).quiet = true then s
    else if e.state = 1 then s.updEntry t n fun e => { e.pause s.cyc with state := 4, expect := 0 }
    else s.closeEntry t n false

/-- R242: whether an entry accepts a return or a drop notice. -/
def Reasm.accepts (e : Reasm) (m : RouteMsg) : Bool :=
  let i := 4 * (m.rs % 16) + m.rs / 16
  (e.state = 2 || e.state = 3) && !e.closing && e.gen = m.gen && bit e.expect i && !bit (e.ret ||| e.drop ||| e.tout) i

/-- A return or notice at its origin: it is held while the group migrates or is displaced, dropped where the launch has ended, discarded, or given to k. A
deadline that has come is applied before it (R245). -/
def State.atOrigin (s : State) (m : RouteMsg) (k : State → Nat → State) : State :=
  let gone := { s with rmsgs := s.rmsgs.filter fun x => decide (x.id ≠ m.id) }
  match Tbl.find? s.launches m.dkey with
  | none => gone
  | some l => match l.tileOf m.dgroup with
    | none => gone
    | some t =>
      if s.groupMoves m.dkey m.dgroup then s
      else
        let gone := gone.deadline t m.entry
        if (gone.entry t m.entry).accepts m then k gone t
        else gone.updEntry t m.entry fun e => { e with disc := min (e.disc + 1) 0xFFFFFFFF }

/-- R405: whether an earlier return or notice that the same context of the same tile sent for the same entry has yet to reach the origin. -/
def State.noticeWaits (s : State) (m : RouteMsg) : Bool :=
  m.sctx.isSome && s.rmsgs.any fun x => decide (x.id < m.id) && decide (x.sctx = m.sctx) && decide (x.skey = m.skey) && decide (x.sgroup = m.sgroup)
    && decide (x.dkey = m.dkey) && decide (x.dgroup = m.dgroup) && decide (x.entry = m.entry) && x.rank.isNone

/-- ROUTE_DROP_NOTICE (R242, R405): the slot's DROP bit is set, and SENT with it (R240). -/
def execRouteDropNotice (id : Nat) (s : State) : Out :=
  match s.rmsgs.find? (fun m => decide (m.id = id)) with
  | none => .next s
  | some m =>
    if m.kind ≠ 2 ∨ m.rank.isSome = true ∨ s.noticeWaits m = true then .next s
    else .next (s.atOrigin m fun s t =>
      let b := 2 ^ (4 * (m.rs % 16) + m.rs / 16)
      let s := s.updEntry t m.entry fun e => { e with drop := e.drop ||| b, sent := e.sent ||| b }
      (s.settleEntry t m.entry).routeNext t)

/-- ROUTE_RETURN_ARRIVE (R242, R405): the row is written to its slot's buffer, then its RET bit is set. -/
def execRouteReturnArrive (id : Nat) (s : State) : Out :=
  match s.rmsgs.find? (fun m => decide (m.id = id)) with
  | none => .next s
  | some m =>
    if m.kind ≠ 1 ∨ m.rank.isSome = true ∨ s.noticeWaits m = true then .next s
    else .next (s.atOrigin m fun s t =>
      let e := s.entry t m.entry
      let va := e.word (1 + m.rs / 16) + 64 * e.wvec * (m.rs % 16)
      let put := (m.data.take e.wvec).mapIdx (fun k d => (k, d)) |>.foldl (fun (acc : Option State) q => match acc with
        | none => none
        | some s => match s.segWrite (s.partOf t) t (s.entrySegs t e) e.iter q.2.2 3 (va + 64 * q.1) 64 q.2.1.toNat with
          | .ok s _ _ => some s
          | _ => none) (some s)
      match put with
      | none => s.closeEntry t m.entry true
      | some s => (s.updEntry t m.entry fun e => { e with ret := e.ret ||| 2 ^ (4 * (m.rs % 16) + m.rs / 16) }).settleEntry t m.entry)

/-- What the transport answered to a message for another rank (R240): a row counts as sent, or as dropped where it failed; a return or notice is done
with. -/
def State.rowAcked (s : State) (id : Nat) (ok : Bool) : State :=
  match s.rmsgs.find? (fun m => decide (m.id = id)) with
  | none => s
  | some m =>
    if m.kind ≠ 0 then { s with rmsgs := s.rmsgs.filter fun x => decide (x.id ≠ id) }
    else if ok then s.rowGone m true
    else match Tbl.find? s.launches m.skey with
      | some l => (s.dropNotice l m).rowGone m false
      | none => s.rowGone m false

/-- REASSEMBLY_DEADLINE (R244): an entry whose deadline has come closes; one still open closes with nothing written. -/
def execReassemblyDeadline (tile n : Nat) (s : State) : Out := .next (s.deadline tile n)

/-! ## The instructions (R367 to R371) -/

/-- R72, R362. -/
def withRoute (S : Nat) (s : State) (k : State → Nat → Nat → Iss) : Out :=
  issue S s fun s t c => if !s.feature 3 then .fail s causeIllegal else k s t c

/-- The map entries of the used slots, read in order as loads (R235, R239): each pair, its target number and its entry. -/
def State.readMap (s : State) (t c : Nat) (rtmap : Nat) : List (Nat × Nat) → Except Iss (State × List (Nat × Nat × Nat))
  | [] => .ok (s, [])
  | (i, tgt) :: rest =>
    match s.loadBlock t c (rtmap + 8 * tgt) 1 with
    | .stop x => .error x
    | .bytes s v poison =>
      if poison then .error (.trap s causePoison (BitVec.ofNat 64 (rtmap + 8 * tgt)) 0)
      else match s.readMap t c rtmap rest with
        | .error x => .error x
        | .ok (s, ps) => .ok (s, (i, tgt, v) :: ps)

/-- R239: the trap of a map entry's roles, where one is not bound. -/
def mapBad (l : Launch) (ent : Nat) : Option Nat :=
  let rank := bits ent 31 16
  if !bit ent 63 then some causeRouteCfg
  else if rank = 0xFFFF ∨ (l.r.nranks ≠ 0 ∧ rank = l.r.myrank) then
    (if (l.roleGroup (bits ent 14 13) (bits ent 12 6) (bits ent 5 0)).isNone then some causeRole else none)
  else if l.r.nranks ≤ rank then some causeRole else none

/-- ROUTE (R239, R367). It waits for the releases before it, which order its reads of memory (R196). A re-issue of the ROUTE that the unit serves goes on
where the unit stands. -/
def execRoute (S n a b : Nat) (s : State) : Out :=
  withRoute S s fun s t c =>
    let x := s.ctx t c
    let e := s.entry t n
    let pa := (x.ptr.getD a 0).toNat
    let pb := (x.ptr.getD b 0).toNat
    let mine := match (s.tile t).route with | some u => decide (u.ctx = c) && decide (u.gen = x.gen) && decide (u.entry = n) && decide (u.pc = x.pc) | none => false
    if mine then
      match (s.tile t).route with
      | some u =>
        if u.held then .park s 12 0 0
        else
          let s := (s.updCtx t c fun x => { x with latch := none }).routeNext t
          if (s.tile t).route.isNone then .done s else .busy s
      | none => .done s
    else if pBad pa || pRemote pa || pBad pb || pRemote pb then .fail s causeIllegal
    else if 2048 < pVidx pa + 16 * e.wvec ∨ 2048 < pVidx pb + 8 then .fail s causeRouteCfg
    else if (s.tile t).route.isSome || s.spadWaits t c || s.fencesBefore t c s.nextId then .hold s
    else if e.state ≠ 1 then .fail s causeRouteCfg
    else
      let (rv, poison) := s.ptrBlock t pb 8
      let byte := fun (i : Nat) => rv / 2 ^ (8 * i) % 256
      let used := (List.range 64).filterMap fun i => let g := byte (32 * (i / 4) + i % 4); if g = 255 then none else some (i, g)
      if poison then .fail s causePoison
      else if (List.range 16).any (fun r => bits rv (256 * r + 127) (256 * r + 32) ≠ 0) then .fail s causeRouteCfg
      else match s.readMap t c x.rtmap.toNat used with
        | .error i => i
        | .ok (s, plan) =>
          match s.launchOf t with
          | none => .fail s causeRouteCfg
          | some l =>
            let bad := plan.filterMap fun p => mapBad l p.2.2
            if bad.contains causeRouteCfg || plan.any (fun p => e.word (1 + p.1 % 4) = 0) then .fail s causeRouteCfg
            else if !bad.isEmpty then .fail s causeRole
            else
              let expect := used.foldl (fun m p => m ||| 2 ^ p.1) 0
              let s := s.updEntry t n fun e => { e with state := 2, expect, rv := pb, tilep := pa }
              let s := (s.updTile t fun v => { v with route := some { ctx := c, gen := x.gen, entry := n, pc := x.pc, plan } }).updCtx t c fun x =>
                { x with latch := none }
              let s := s.settleEntry t n
              if (s.tile t).route.isNone then .done s
              else
                let s := s.routeNext t
                if (s.tile t).route.isNone then .done s else .busy s

/-- RTOPEN (R236, R368). -/
def execRtopen (S n a b : Nat) (s : State) : Out :=
  withRoute S s fun s t c => withOps s t c [a] [] fun vs s =>
    let x := s.ctx t c
    let w := (arg1 vs).toNat
    let pb := (x.ptr.getD b 0).toNat
    if pBad pb || pRemote pb then .fail s causeIllegal
    else if s.spadWaits t c then .hold s
    else
      let (d, poison) := s.ptrBlock t pb 1
      let e := s.entry t n
      let f := fun (i : Nat) => bits d (64 * i + 63) (64 * i)
      let wv := bits w 40 32
      if poison then .fail s causePoison
      else if bits w 63 41 ≠ 0 ∨ (e.state ≠ 0 ∧ e.state ≠ 4) ∨ wv = 0 ∨ 256 < wv ∨ ([0, 1, 2, 3, 4, 5].any fun i => f i % 64 ≠ 0) = true ∨ f 6 % 8 ≠ 0 then
        .fail s causeRouteCfg
      else
        let dl := w % 2 ^ 32
        let y : Reasm := {
          desc := (List.range 8).map fun i => BitVec.ofNat 64 (f i), rv := e.rv, state := 1, gen := (e.gen + 1) % 256, wvec := wv
          remain := if dl = 0 then 0xFFFFFFFF else dl, due := if dl = 0 ∨ s.migrating t = true then none else some (s.cyc + dl), tilep := e.tilep, disc := e.disc
          iter := x.iter, owner := c, pc := x.pc, insn := (match s.cur with | some u => u.insn | none => 0) }
        .done (s.updEntry t n fun _ => y)

/-- The registration of a target number on a tile. -/
def Tile.target? (v : Tile) (tgt : Nat) : Option Nat := (List.range 8).find? fun i => (v.rttgt.getD i {}).valid && decide ((v.rttgt.getD i {}).tgt = tgt)

/-- The first byte of ring slot h of a registration (R234). -/
def RtTgt.slotPa (g : RtTgt) (t h : Nat) : Nat := spadPa t (bits g.ring 12 11 * 0x20000 + 64 * (g.ring % 2048 + h % g.cap * (1 + g.wmax)))

/-- The message that answers a ring slot's row: to the origin that its header names. -/
def State.answerRow (s : State) (t c : Nat) (l : Launch) (header kind : Nat) (data : List (Vec × Bool)) : State :=
  let orank := header % 2 ^ 16
  let local_ := orank = 0xFFFF || decide (l.r.nranks ≠ 0 ∧ orank = l.r.myrank)
  s.sendRoute l
    { id := 0, kind, part := l.part, skey := l.part * 65536 + l.num, sgroup := s.groupIdx t, sctx := some c, rank := if local_ then none else some orank
      dkey := l.part * 65536 + bits header 31 16, dgroup := bits header 43 32, orank, launch := bits header 31 16, group := bits header 43 32
      entry := bits header 51 48, gen := bits header 63 56, rs := bits header 69 64, tgt := bits header 79 72, wvec := bits header 95 80, data }

/-- The common part of the two forms of RTRET (R241, R369). -/
def rtretOp (S : Nat) (a : Nat) (b : Option Nat) (s : State) : Out :=
  withRoute S s fun s t c => withOps s t c [a] [] fun vs s =>
    let w := (arg1 vs).toNat
    let pb := match b with | some b => ((s.ctx t c).ptr.getD b 0).toNat | none => 0
    if pBad pb || pRemote pb then .fail s causeIllegal
    else if s.spadWaits t c then .hold s
    else if bits w 63 8 ≠ 0 ∨ w = 255 then .fail s causeRouteCfg
    else match (s.tile t).target? w, s.launchOf t with
      | some i, some l =>
        let g := (s.tile t).rttgt.getD i {}
        if g.head = g.tail then .fail s causeRouteCfg
        else
          let at_ := g.slotPa t g.head
          if s.poisoned (at_ / 64) then .fail s causePoison
          else
            let h := s.peekN at_ 16
            let n := bits h 95 80
            if b.isSome ∧ 2048 < pVidx pb + n then .fail s causeRouteCfg
            else
              let data := if b.isSome then s.vecs t (pBank pb) (pVidx pb) n else []
              let s := s.updTile t fun v => { v with rttgt := v.rttgt.set i { g with head := (g.head + 1) % 2 ^ 32 } }
              .done (s.answerRow t c l h (if b.isSome then 1 else 2) data)
      | _, _ => .fail s causeRouteCfg

/-- RTRET with a result (R369). -/
def execRtret (S a b : Nat) (s : State) : Out := rtretOp S a (some b) s
/-- RTRET drop (R369). -/
def execRtretDrop (S a : Nat) (s : State) : Out := rtretOp S a none s

/-- RTSTAT (R370). -/
def execRtstat (S d n : Nat) (s : State) : Out :=
  withRoute S s fun s t c =>
    if 16 ≤ n then .fail s causeIllegal
    else withOps s t c [] [d] fun _ s =>
      let e := s.entry t n
      .done (s.setX t c d (BitVec.ofNat 64 (e.done * 2 ^ 16 + e.gen * 2 ^ 8 + e.state)) 2)

/-- A registration from its image (R233), and whether a field of it is out of range. -/
def RtTgt.ofNat (v : Nat) : RtTgt :=
  { valid := bit v 8, tgt := v % 256, wait := bit v 9, cap := bits v 31 16, wmax := bits v 47 32, ring := bits v 63 48, aword := bits v 79 64 }
def rtImgBad (v : Nat) : Bool :=
  let g := RtTgt.ofNat v
  g.tgt = 255 || bits v 15 10 ≠ 0 || bits v 95 80 ≠ 0 || decide (2 ^ 192 ≤ v) || g.cap = 0 || decide (256 < g.cap) || g.wmax = 0 || decide (256 < g.wmax)
    || bits g.ring 15 13 ≠ 0 || bits g.aword 15 13 ≠ 0 || bits g.ring 12 11 = 3 || bits g.aword 12 11 = 3
    || decide (2048 < g.cap * (1 + g.wmax)) || decide (2048 < g.ring % 2048 + g.cap * (1 + g.wmax))

/-- RTTGT (R233, R371). -/
def execRttgt (S a : Nat) (s : State) : Out :=
  withRoute S s fun s t c => withOps s t c [a] [] fun vs s =>
    let va := (arg1 vs).toNat
    if va % 32 ≠ 0 then .trap s causeMisalign (arg1 vs) 0
    else match s.loadBlock t c va 4 with
      | .stop i => i
      | .bytes s v poison =>
        let g := RtTgt.ofNat v
        let rsvd := bits v 15 10 ≠ 0 || bits v 95 80 ≠ 0 || decide (2 ^ 192 ≤ v)
        if poison then .trap s causePoison (arg1 vs) 0
        else if g.valid then
          match (List.range 8).find? fun i => !((s.tile t).rttgt.getD i {}).valid with
          | none => .fail s causeRouteCfg
          | some i =>
            if rtImgBad v || ((s.tile t).target? g.tgt).isSome then .fail s causeRouteCfg
            else .done (s.updTile t fun w => { w with rttgt := w.rttgt.set i g })
        else match (if rsvd then none else (s.tile t).target? g.tgt), s.launchOf t with
          | some i, some l =>
            let o := (s.tile t).rttgt.getD i {}
            let rows := List.range ((o.tail + 2 ^ 32 - o.head) % 2 ^ 32)
            let s := rows.foldl (fun (s : State) k => s.answerRow t c l (s.peekN (o.slotPa t (o.head + k)) 16) 2 []) s
            .done (s.updTile t fun w => { w with rttgt := w.rttgt.set i {} })
          | _, _ => .fail s causeRouteCfg

end Sys2Proof.Machine
end

