-- ==== Sys2Proof/Machine/Collective.lean ====
section
/-!
DEFINITION. Collectives (R246 to R253, R372 to R376): the cuff's block, its steps, and the hub that runs them.
-/
namespace Sys2Proof.Machine

/-! ## The block (R247) -/

/-- The cuff is context 15 (R104). -/
def cuff : Nat := 15
/-- The hub's current block of a group (R374): its first vector on the group's tile, as a line of the scratchpad, and its CID. -/
def State.curBlock (s : State) (k g : Nat) : Option CollCur := s.collCur.find? fun x => decide (x.launch = k) && decide (x.group = g)
/-- The block of a step as a number of 128 bytes; b counts lines from the start of the tile's scratchpad. -/
def State.blockAt (s : State) (t b : Nat) : Nat := s.peekN (spadPa t (64 * b)) 128
/-- A bank update of n bytes of a block. -/
def State.putBlock (s : State) (t b off n v : Nat) : State :=
  s.applyWrite (s.partOf t) 0 (spadPa t (64 * b + off)) n v none false false

/-- Whether a block, whose first line is b, is poisoned (R265). -/
def State.blockPoisoned (s : State) (t b : Nat) : Bool := s.poisoned (spadPa t (64 * b) / 64) || s.poisoned (spadPa t (64 * b) / 64 + 1)
/-- Fields of a block. -/
def blkField (v off n : Nat) : Nat := v / 2 ^ (8 * off) % 2 ^ (8 * n)
/-- R247: the checks of CSET on a block. -/
def blockBad (v : Nat) : Bool :=
  let op := blkField v 4 1
  let fmt := blkField v 5 1
  let n := blkField v 6 1
  let chunk := blkField v 8 4
  decide (3 < op) || !(fmt = 0 || fmt = 2 || fmt = 9) || (op = 3 && fmt ≠ 0) || n = 0 || decide (64 < n) || blkField v 7 1 ≠ 0
    || chunk % 64 ≠ 0 || chunk = 0 || decide (16384 < chunk) || blkField v 0xE 2 ≠ 0 || blkField v 0x10 8 % 64 ≠ 0 || blkField v 0x20 8 % 8 ≠ 0
    || blkField v 0x3A 6 ≠ 0 || blkField v 0x4A 54 ≠ 0

/-- The launch key and group index of the group on a tile. -/
def State.groupKey (s : State) (t : Nat) : Nat × Nat := match (s.tile t).grp with | some g => (g.launch, g.idx) | none => (0, 0)

/-- R291: what stops a context that is to zero n doublewords from va on: a check of one of them, a round number that is not free (R190), or a store to its line
that is earlier and not performed, as for every store of the context (R186, R203). -/
def State.zeroStop (s : State) (t c va : Nat) : Nat → Option Iss
  | 0 => none
  | n + 1 =>
    match s.access t c va 8 false true false true with
    | .stop i => some i
    | .at_ _ pa e =>
      let own := s.reqs.any fun r => decide (r.tile = t) && decide (r.ctx = c) && decide (r.kind = .store) && decide (r.stage ≠ .reply) && decide (r.pa / 64 = pa / 64)
      if s.rejectsAt t pa 8 (match e with | some e => e.shu | none => false) then some (.trap s causePageRights (BitVec.ofNat 64 va) 0)
      else if own || s.sbHas t (pa / 64) || (s.ctx t c).roundShut s.nextId (s.ctx t c).relRnd then some (.hold s)
      else s.zeroStop t c (va + 8) n

/-- n doublewords from va on zeroed by package-scope stores of a context: writes of its release round (R190) that carry its ITER (R200), and set its FFL.STALE
where they are dropped (R201). -/
def State.zeroWords (s : State) (t c va : Nat) : Nat → State
  | 0 => s
  | n + 1 =>
    match s.access t c va 8 false true false true with
    | .stop _ => s
    | .at_ s pa e =>
      let p := s.partOf t
      let s := s.countWrite t c (s.home p pa) (s.ctx t c).relRnd
      let s := if (match e with | some e => e.stamp | none => false) then s.dropOwn t (pa / 64) else s
      let (s, applied) := s.engineStore p e pa 8 0 (s.ctx t c).iter false
      (if applied then s else s.addFfl t c stale 0).zeroWords t c (va + 8) n

/-- CSET (R247, R374): every check is made before anything is written (R291). -/
def execCset (S a : Nat) (s : State) : Out :=
  issue S s fun s t c =>
    if !s.feature 16 then .fail s causeIllegal
    else if c ≠ cuff then .fail s causePriv
    else withOps s t c [a] [] fun vs s =>
      let va := (arg1 vs).toNat
      if va % 64 ≠ 0 then .trap s causeMisalign (arg1 vs) 0
      else match s.segCheck t (s.ctx t c).seg va 128 true true false with
      | .error k => .trap s k (arg1 vs) 0
      | .ok (.mem _) => .trap s causeSegRights (arg1 vs) 0
      | .ok (.spad d off) =>
        if bits ((s.ctx t c).seg.getD (va / 2 ^ 61) {}).w0.toNat 61 60 ≠ 2 ∨ d ≠ t then .trap s causeSegRights (arg1 vs) 0
        else if off % 64 ≠ 0 then .trap s causeMisalign (arg1 vs) 0
        else if s.spadWaits t c then .hold s
        else if s.blockPoisoned t (off / 64) then .fail s causeCollective
        else
          let b := off / 64
          let v := s.blockAt t b
          let lbuf := blkField v 0x10 8
          let n := blkField v 6 1
          let lim := ((s.ctx t c).seg.getD (lbuf / 2 ^ 61) {}).w1.toNat % 2 ^ 61
          if blockBad v || decide (lim < lbuf % 2 ^ 61 + n * blkField v 8 4) then .fail s causeCollective
          else match s.zeroStop t c (blkField v 0x20 8) n with
            | some i => i
            | none =>
              let s := s.zeroWords t c (blkField v 0x20 8) n
              let s := (((s.putBlock t b 0x38 1 0).putBlock t b 0x39 1 1).putBlock t b 0x40 8 0).putBlock t b 0x48 2 0
              let (k, g) := s.groupKey t
              let cid := blkField v 0 4
              .done { s with
                collCur := (s.collCur.filter fun x => !(decide (x.launch = k) && decide (x.group = g))) ++ [⟨k, g, b, cid⟩]
                arrived := s.arrived.filter fun x => !(decide (x.part * 65536 + x.launch = k) && decide (x.cid = cid)) }

/-! ## Steps (R248, R249, R372, R373) -/

/-- R372: a half of the peer word resolved against n ranks and MYRANK: a rank, or none where it traps. lc gives the loop counters. -/
def peerOf (h n me : Nat) (lc : Nat → Nat) : Option Nat :=
  let mode := h % 4
  let k := if bit h 2 then lc (bits h 4 3) else bits h 12 3
  let p := if mode = 0 then (me + k) % n else if mode = 1 then (((me : Int) - k) % (n : Int)).toNat else me ^^^ k
  if mode = 3 ∨ bits h 15 13 ≠ 0 ∨ (bit h 2 = true ∧ bits h 12 5 ≠ 0) ∨ p = me ∨ n ≤ p then none else some p

/-- Steps that a group has posted and that have not completed. -/
def State.stepsOf (s : State) (k g : Nat) : List CollStep := s.steps.filter fun x => decide (x.launch = k) && decide (x.group = g)

/-- The common part of the four steps: their checks, then the post (R373). kind is 1 CSEND, 2 CRECV, 3 CRRS, 4 CCOPY. -/
def stepOp (S kind a b : Nat) (s : State) : Out :=
  issue S s fun s t c =>
    if c ≠ cuff then .fail s causePriv
    else withOps s t c [a, b] [] fun vs s =>
      let (k, g) := s.groupKey t
      match s.launchOf t, s.curBlock k g with
      | some l, some cur =>
        if l.r.nranks = 0 then .fail s causeCollective
        else if s.spadWaits t c then .hold s
        else
          let v := s.blockAt t cur.blk
          let w := (arg1 vs).toNat
          let pw := (arg2 vs).toNat
          let lc := fun (j : Nat) => blkField v (0x28 + 4 * j) 4
          let c0 := bits w 5 0
          let c1 := bits w 11 6
          let em := bits w 28 19
          let pa := peerOf (pw % 65536) l.r.nranks l.r.myrank lc
          let pb := peerOf (pw / 65536) l.r.nranks l.r.myrank lc
          let ha := pw % 65536
          let hb := pw / 65536
          let ok := match kind with
            | 1 => pa.isSome && hb = 0 && !bit w 18
            | 2 => ha = 0 && hb = 0 && (bit w 18 || em = 0)
            | _ => pa.isSome && pb.isSome && !bit w 18 && em = 0
          if s.blockPoisoned t cur.blk || blkField v 0x39 1 ≠ 1 then .fail s causeCollective
          else if bits w 63 29 ≠ 0 || decide (2 ^ 32 ≤ pw) || decide (c1 < c0) || decide (blkField v 6 1 ≤ c1) || !ok then .fail s causeCollective
          else if 16 ≤ (s.stepsOf k g).length then .hold s
          else
            let num := blkField v 0x38 1
            let x : CollStep := {
              id := s.nextId, launch := k, group := g, blk := cur.blk, kind, num, cid := blkField v 0 4, op := blkField v 4 1, fmt := blkField v 5 1
              chunk := blkField v 8 4, evb := blkField v 0xC 2, lbuf := BitVec.ofNat 64 (blkField v 0x10 8), roff := BitVec.ofNat 64 (blkField v 0x18 8)
              arr := BitVec.ofNat 64 (blkField v 0x20 8), expect := em + 1, red := bit w 18 || kind = 3, width := bits w 17 12 + 1
              peerA := pa.getD 0, peerB := pb.getD 0, todo := (List.range (c1 + 1 - c0)).map (· + c0), iter := (s.ctx t c).iter, segs := (s.ctx t c).seg
              pc := (s.ctx t c).pc, insn := (match s.cur with | some u => u.insn | none => 0) }
            .done (State.fresh { (s.putBlock t cur.blk 0x38 1 ((num + 1) % 256)) with steps := s.steps ++ [x] })
      | _, _ => .fail s causeCollective

/-- CSEND (R373). -/
def execCsend (S a b : Nat) (s : State) : Out := stepOp S 1 a b s
/-- CRECV (R373). -/
def execCrecv (S a b : Nat) (s : State) : Out := stepOp S 2 a b s
/-- CRRS (R373). -/
def execCrrs (S a b : Nat) (s : State) : Out := stepOp S 3 a b s
/-- CCOPY (R373). -/
def execCcopy (S a b : Nat) (s : State) : Out := stepOp S 4 a b s

/-- CWAIT (R375): a step that has failed meanwhile reaches the cuff as a deferred trap. -/
def execCwait (S : Nat) (s : State) : Out :=
  issue S s fun s t c =>
    if c ≠ cuff then .fail s causePriv
    else
      let (k, g) := s.groupKey t
      if (s.stepsOf k g).isEmpty then .done (s.acquire t c) else .park s 4 0 0

/-- CLOOP (R376). -/
def execCloop (S j : Nat) (imm : BitVec 9) (s : State) : Out :=
  issue S s fun s t c =>
    if c ≠ cuff then .fail s causePriv
    else
      let (k, g) := s.groupKey t
      match s.curBlock k g with
      | none => .fail s causeCollective
      | some cur =>
        if s.spadWaits t c then .hold s
        else if s.blockPoisoned t cur.blk then .fail s causeCollective
        else
          let v := (blkField (s.blockAt t cur.blk) (0x28 + 4 * j) 4 + 0xFFFFFFFF) % 2 ^ 32
          let s := s.putBlock t cur.blk (0x28 + 4 * j) 4 v
          if v ≠ 0 then .jump s ((s.ctx t c).pc + (imm.signExtend 64) * 4) else .done s

/-! ## The hub (R249 to R253) -/

/-- Whether a word is CWAIT. -/
def isCwaitWord (w : W32) : Bool := bits w.toNat 6 0 = 0x7B && bits w.toNat 14 12 = 2 && bits w.toNat 28 25 = 5

/-- The cuff's CWAIT completes, with its acquire, once no step of its group is left (R375). -/
def State.wakeCwait (s : State) (k g : Nat) : State :=
  match s.tileHere k g with
  | none => s
  | some t =>
    let x := s.ctx t cuff
    if (s.stepsOf k g).isEmpty && decide (x.park = 4) && (match x.latch with | some l => isCwaitWord l.insn | none => false) then
      (s.completeLatched t cuff).acquire t cuff
    else s

/-- R253: a step fails: STATE 2, and the cuff takes a deferred COLLECTIVE; while its group is away the failure is kept for its return. -/
def State.failStep (s : State) (x : CollStep) : State :=
  let s := { s with steps := s.steps.filter fun y => decide (y.id ≠ x.id)
                    tx := s.tx.filter fun m => match m.carries with | .chunk i _ => decide (i ≠ x.id) || m.sent | .row _ => true }
  match s.tileHere x.launch x.group with
  | none => if s.groupAway x.launch x.group then { s with steps := s.steps ++ [{ x with failed := true, acks := [] }] } else s
  | some t =>
    (s.putBlock t x.blk 0x39 1 2).defer t cuff (s.ctx t cuff).gen { cause := causeCollective, pc := x.pc, insn := x.insn }

/-- A step changed; it completes once it has nothing to do and every chunk it sent is acknowledged (R249): the entries of the arrived set that it
consumed go (R252). -/
def State.setStep (s : State) (x : CollStep) : State :=
  if x.todo.isEmpty && x.acks.isEmpty then
    State.wakeCwait { s with
      steps := s.steps.filter fun y => decide (y.id ≠ x.id)
      arrived := s.arrived.filter fun c => !(decide (c.part * 65536 + c.launch = x.launch) && decide (c.cid = x.cid) && decide (c.step = x.num)) } x.launch x.group
  else { s with steps := s.steps.map fun y => if y.id = x.id then x else y }

/-- The ranks a contribution stands for. -/
def srcsOf (c : Contribution) : List Nat := if c.combined then (List.range 1024).filter (bit c.ranks) else [c.src]

/-- The contributions recorded for a chunk of a step, in ascending rank order (R251). -/
def State.contribs (s : State) (x : CollStep) (c : Nat) : List Contribution :=
  let all := s.arrived.filter fun q => decide (q.part * 65536 + q.launch = x.launch) && decide (q.cid = x.cid) && decide (q.step = x.num) && decide (q.chunk = c)
  (List.range 1024).flatMap fun r => all.filter fun q => decide ((srcsOf q).headD 0 = r)

/-- Bytes of a chunk as elements of w bytes. -/
def chunkEls (w : Nat) (bs : List Nat) : List Nat := (List.range (bs.length / w)).map fun i => ((bs.drop (w * i)).take w).foldr (fun b acc => b + 256 * acc) 0
/-- Elements as bytes. -/
def elsBytes (w : Nat) (es : List Nat) : List Nat := es.flatMap fun e => (List.range w).map fun i => e / 2 ^ (8 * i) % 256

/-- R251: one pairwise combine of two chunks, with its flags. -/
def combineChunks (op fmt : Nat) (a b : List Nat) : List Nat × Nat :=
  let w := if fmt = 2 then 2 else 4
  if op = 3 then let (r, f) := Num.lse (chunkEls 4 a) (chunkEls 4 b); (elsBytes 4 r, f)
  else
    let rs := ((chunkEls w a).zip (chunkEls w b)).map fun p => Num.combine fmt op p.1 p.2
    (elsBytes w (rs.map (·.1)), rs.foldl (fun f r => f ||| r.2) 0)

/-- R251: the left fold of the received contributions in ascending rank order. -/
def foldContribs (op fmt : Nat) (cs : List (List Nat)) : List Nat × Nat :=
  cs.tail.foldl (fun acc c => let (r, f) := combineChunks op fmt acc.1 c; (r, acc.2 ||| f)) (cs.headD [], 0)

/-- A number's bytes, low first, and back. -/
def numBytes (v n : Nat) : List Nat := (List.range n).map fun i => v / 2 ^ (8 * i) % 256
def bytesNum (bs : List Nat) : Nat := bs.foldr (fun b acc => b + 256 * acc) 0

/-- How one chunk of a step goes. -/
inductive ChunkRun | ok (s : State) (sent : Bool) | wait | fail | page (pva : Nat) (w : Walk)

/-- A chunk sent to a peer as one contribution (R248, R250). -/
def State.sendChunk (s : State) (l : Launch) (x : CollStep) (c peer expect : Nat) (data : List Nat) (poison : Bool) : State :=
  let bs := data.map (BitVec.ofNat 8)
  let r := nth l.ranks peer {}
  let off := x.roff.toNat + c * x.chunk
  let ev := (x.evb + 64 * c) % 65536
  let q : Contribution := { part := l.part, launch := 0, cid := x.cid, step := x.num, chunk := c, src := l.r.myrank, expect, op := x.op, fmt := x.fmt
                            sender := s.epOwn r.lep, ep := r.ep, key := r.key, off, ev, width := x.width, poisoned := poison, data := bs }
  s.sendRank l peer off ev x.width (.chunk x.id c) bs poison (some q) 0

/-- Chunk c of a step on tile t (R249 to R251, R253). -/
def State.runChunk (s : State) (t : Nat) (l : Launch) (x : CollStep) (c : Nat) : ChunkRun :=
  let p := l.part
  let segs := some x.segs
  let va := x.lbuf.toNat + c * x.chunk
  let read := s.segRead p t segs 300 va x.chunk
  if x.kind = 1 then
    match read with
    | .fail => .fail
    | .waits pva w => .page pva w
    | .ok s v poison => .ok (s.sendChunk l x c x.peerA x.expect (numBytes v x.chunk) poison) true
  else
    let cs := s.contribs x c
    let srcs := cs.flatMap srcsOf
    let odd := cs.any fun q => decide (q.expect ≠ x.expect) || decide (q.op ≠ (cs.headD q).op) || decide (q.fmt ≠ (cs.headD q).fmt)
    if odd || decide (x.expect < srcs.length) then .fail
    else if srcs.length < x.expect ∨ (x.kind ≠ 2 ∧ !srcs.contains x.peerA) then .wait
    else
      let got := cs.map fun q => q.data.map (·.toNat)
      let poison := cs.any (·.poisoned)
      let (fold, f0) := foldContribs x.op x.fmt got
      let f1 := cs.foldl (fun (f : Nat) (q : Contribution) => if q.combined then f ||| q.flags else f) f0
      let fold := (fold ++ List.replicate (x.chunk - fold.length) 0).take x.chunk
      let res : ChunkRun ⊕ (State × List Nat × Nat × Bool) :=
        if x.red then match read with
          | .fail => .inl .fail
          | .waits pva w => .inl (.page pva w)
          | .ok s v q => let (r, f2) := combineChunks x.op x.fmt (numBytes v x.chunk) fold; .inr (s, r, f1 ||| f2, poison || q)
        else .inr (s, fold, 0, poison)
      match res with
      | .inl r => r
      | .inr (s, r, fl, poison) =>
        match s.segWrite p t segs x.iter poison 300 va x.chunk (bytesNum r) with
        | .fail => .fail
        | .waits pva w => .page pva w
        | .ok s _ _ =>
          let ca := x.arr.toNat + 8 * c
          match s.segRead p t segs 3 ca 8 with
          | .fail => .fail
          | .waits pva w => .page pva w
          | .ok s n q =>
            match s.segWrite p t segs x.iter q 3 ca 8 (n + 1) with
            | .fail => .fail
            | .waits pva w => .page pva w
            | .ok s _ _ =>
              let v := s.blockAt t x.blk
              let s := if poison then s.putBlock t x.blk 0x40 8 (blkField v 0x40 8 ||| 2 ^ c) else s
              let cf := toCflags fl
              let s := if cf ≠ 0 then s.putBlock t x.blk 0x48 2 (blkField v 0x48 2 ||| cf) else s
              if x.kind = 3 ∨ (x.kind = 4 ∧ x.peerB ≠ x.peerA) then
                .ok (s.sendChunk l x c x.peerB 1 r poison) true
              else .ok s false

/-- R249: whether a chunk of a step must wait: it reads bytes of its buffer that a chunk of an earlier step of its group has still to write. -/
def State.chunkWaits (s : State) (x : CollStep) (c : Nat) : Bool :=
  let a := x.lbuf.toNat + c * x.chunk
  (x.kind = 1 || x.red) && (s.stepsOf x.launch x.group).any fun y => decide (y.id < x.id) && decide (y.kind ≠ 1) && y.todo.any fun d =>
    let b := y.lbuf.toNat + d * y.chunk
    decide (a < b + y.chunk) && decide (b < a + x.chunk)

/-- COLLECTIVE_STEP_START (R196, R249 to R253): the hub runs what it can of a posted step, chunk by chunk, once the releases before it are complete. -/
def execCollectiveStepStart (id : Nat) (s : State) : Out :=
  match s.steps.find? (fun (x : CollStep) => decide (x.id = id)) with
  | none => .next s
  | some x =>
    match Tbl.find? s.launches x.launch, s.tileHere x.launch x.group with
    | some l, some t =>
      if l.st = .ending ∨ l.st = .finished then .next { s with steps := s.steps.filter fun y => decide (y.id ≠ id) }
      else if x.failed then .next (s.failStep x)
      else if s.waitsFor l.part .collective id || s.fencesBefore t cuff id then .next s
      else
        let r := x.todo.foldl (fun (acc : State × CollStep × Option (Option (Nat × Walk))) c =>
          match acc with
          | (s, x, none) =>
            if s.chunkWaits x c then (s, x, none)
            else match s.runChunk t l x c with
              | .wait => (s, x, none)
              | .fail => (s, x, some none)
              | .page pva w => (s, x, some (some (pva, w)))
              | .ok s' sent =>
                let x := { x with todo := x.todo.filter (· ≠ c), acks := if sent then x.acks ++ [c] else x.acks }
                ({ s' with steps := s'.steps.map fun y => if y.id = id then x else y }, x, none)
          | _ => acc) (s, x, none)
        match r with
        | (s, x, none) => .next (s.setStep x)
        | (s, x, some none) => .next (s.failStep x)
        | (s, x, some (some (pva, w))) =>
          .next (s.engWait .collective id l.part l.num x.group (some (cuff, (s.ctx t cuff).gen)) pva w)
    | _, _ => .next s

/-- The acknowledgement of a chunk, or its failure at its initiator (R248, R249). -/
def State.chunkAcked (s : State) (id chunk : Nat) (ok : Bool) : State :=
  match s.steps.find? (fun (x : CollStep) => decide (x.id = id)) with
  | none => s
  | some x =>
    if !x.acks.contains chunk then s
    else if ok then s.setStep { x with acks := x.acks.filter (· ≠ chunk) } else s.failStep x

/-- COLLECTIVE_SEND_ACK (R249). -/
def execCollectiveSendAck (id chunk : Nat) (ok : Bool) (s : State) : Out :=
  if s.tx.any (fun m => m.sent && decide (m.carries = .chunk id chunk)) then
    .next (State.chunkAcked { s with tx := s.tx.filter fun m => decide (m.carries ≠ .chunk id chunk) } id chunk ok)
  else .next s

end Sys2Proof.Machine
end

