-- ==== Sys2Proof/Machine/Management.lean ====
section
/-!
DEFINITION. The slices as the driver and the part manage them: home lists and bucket moves (R167, R168), tenants' set ranges (R171, R172), slice
retirement (R173), commutative ranges (R183), stamp-set requests (R202), errors (R264, R266), and the gating of clusters (R21, R22).
-/
namespace Sys2Proof.Machine

/-! ## Partitions and their slices -/

/-- The partition that holds a cluster, while it is enabled. -/
def State.activeHolder (s : State) (n : Nat) : Option Nat := (s.holder n).filter fun p => (s.part p).enabled

/-- A fatal report of the part (R261 to R263): it is written where the reserve allows it, and the partition halts. -/
def State.fatalReport (s : State) (p code reason tile : Nat) : State :=
  let q := s.tq p
  let s := if q.en && decide (q.tail - q.head ≤ 4095) then s.writeRec p { kind := 4, code, tile, at_ := s.CYC } else s
  s.haltPart p code reason tile

/-- R167: the home list of a partition as it is enabled: its clusters' slices that have a cache part and are neither retired nor gated nor absent. -/
def State.homeList (s : State) (p : Nat) : List Nat :=
  if 4 ≤ s.vault p then []
  else (List.range 512).filter fun n => s.partHas p n && !(Tbl.getD s.slices n {}).ret && !bit s.gated n && !bit s.boot.sliceHarv n

/-- The home of a bucket of a partition with a home list. -/
def Part.bucketHome (q : Part) (b : Nat) : Nat := (Tbl.find? q.moved b).getD (q.homes.getD (b % q.homes.length) 0)

/-- The slices of a home list that have not left it: each has buckets. -/
def Part.members (q : Part) : List Nat :=
  if q.homes.isEmpty then []
  else
    let hs := ((List.range 4096).map q.bucketHome)
    q.homes.filter fun n => hs.contains n

/-- R168: the buckets of a slice that leaves its partition's home list move to the remaining members. -/
def State.leaveList (s : State) (p n : Nat) : State :=
  let q := s.part p
  if !q.members.contains n then s
  else
    let rest := q.members.filter (· ≠ n)
    let mine := fun (pa : Nat) => isCxl pa && (match s.mrtOf pa with | some k => decide (s.mrtPart k = p) | none => false)
      && decide (q.bucketHome (bucket pa) = n)
    let lines := (s.tiles.flatMap fun (t, v) => v.parts.map fun q => (t, q.1)).filter fun l => mine (64 * l.2)
    let s := lines.foldl (fun (s : State) l => s.gather p (s.tenantOf l.1 p) l.2) s
    let s := s.writeBack fun pa _ => mine pa
    let s := { s with tiles := Tbl.mapV (fun _ (v : Tile) => { v with l1 := v.l1.filter fun c => !mine (64 * c.1) }) s.tiles }
    if rest.isEmpty then s.updPart p fun q => { q with homes := [], moved := [] }
    else
      let bs := (List.range 4096).filter fun b => decide (q.bucketHome b = n)
      let first := ((rest.findIdx? fun m => decide (n < m)).getD 0)
      let moved := (bs.mapIdx fun i b => (b, rest.getD ((first + i) % rest.length) 0)).foldl (fun m x => Tbl.put m x.1 x.2) q.moved
      s.updPart p fun q => { q with moved }

/-! ## Tenants' set ranges (R171, R172) -/

/-- The writable bits of a TSET value. -/
def tsetMask (v : Nat) : Nat := bits v 28 16 * 2 ^ 16 + bits v 8 8 * 2 ^ 8 + bits v 3 0

/-- TSET_WRITE (R171, R172): a range that loses sets is switched after their lines have been written back; any other takes effect at once. -/
def execTsetWrite (part tenant : Nat) (v : Word) (s : State) : Out :=
  let off := tsetOff part tenant
  let old := (s.pfr off).toNat
  if bit old 31 then .next s
  else
    let new := tsetMask v.toNat
    let (b0, n0) := tsetRange old
    let (b1, n1) := tsetRange new
    let shrinks := decide (n0 ≠ 0) && !(decide (b1 ≤ b0) && decide (b0 + n0 ≤ b1 + n1))
    if shrinks then .next { (s.setPf off (BitVec.ofNat 64 (old + 2 ^ 31))) with tset := s.tset ++ [(part, tenant, BitVec.ofNat 64 new)] }
    else .next (s.setPf off (BitVec.ofNat 64 new))

/-- TSET_RANGE_SWITCH (R172): the tenant's lines in the sets that leave are written back and invalidated; the new range takes effect. -/
def execTsetRangeSwitch (part tenant : Nat) (s : State) : Out :=
  match s.tset.find? (fun (x : Nat × Nat × Word) => decide (x.1 = part) && decide (x.2.1 = tenant)) with
  | none => .next s
  | some (_, _, new) =>
    let off := tsetOff part tenant
    let (b1, n1) := tsetRange new.toNat
    let leaves := fun (set : Nat) => !(decide (b1 ≤ set) && decide (set < b1 + n1))
    let mine := fun (pa : Nat) => match s.mrtOf pa with | some k => decide (s.mrtPart k = part) | none => false
    let s := s.writeBack fun pa c => decide (c.tenant = tenant) && mine pa && leaves c.set
    .next { (s.setPf off new) with tset := s.tset.filter fun (x : Nat × Nat × Word) => !(decide (x.1 = part) && decide (x.2.1 = tenant)) }

/-! ## Slice retirement (R173) -/

/-- SLICE_STAT of a slice. -/
def State.slice (s : State) (n : Nat) : Slice := Tbl.getD s.slices n {}
/-- That record changed. -/
def State.updSlice (s : State) (n : Nat) (f : Slice → Slice) : State := { s with slices := Tbl.put s.slices n (f (s.slice n)) }

/-- CORRECTABLE_ERROR (R173): the count rises; at RETIRE_CE the slice retires its cache part, unless it is the last member of its home list. -/
def execCorrectableError (slice : Nat) (s : State) : Out :=
  let s := s.updSlice slice fun x => { x with count := min (x.count + 1) 0xFFFF }
  let x := s.slice slice
  if x.count ≠ s.boot.retireCe ∨ x.ret = true then .next s
  else match s.activeHolder slice with
    | none => .next (s.updSlice slice fun x => { x with ret := true })
    | some p =>
      let ms := (s.part p).members
      if ms = [slice] then .next (s.updSlice slice fun x => { x with last := true })
      else .next (((s.leaveList p slice).updSlice slice fun x => { x with ret := true }).pushRec p
        { kind := 3, code := 67, at_ := s.CYC, aux := BitVec.ofNat 64 slice })

/-- SLICE_STAT_CLEAR (R173): CLR counts only while the slice's partition is disabled. -/
def execSliceStatClear (slice : Nat) (s : State) : Out :=
  if (s.activeHolder slice).isSome then .next s else .next { s with slices := Tbl.erase s.slices slice }

/-! ## Commutative ranges (R183) -/

/-- COMMUTATIVE_RANGE_WRITE (R183): the partials of lines inside the register's old range are gathered, then the new value stands. Without feature
bit 1 the write is ignored. -/
def execCommutativeRangeWrite (part idx : Nat) (v : BitVec 128) (s : State) : Out :=
  if !s.feature 1 then .next s
  else
    let off := 0x20000 + 256 * part + 16 * idx
    let w0 := (s.pfr off).toNat
    let w1 := (s.pfr (off + 8)).toNat
    let inside := fun (q : Partial) => bit w0 0 && decide (bits w0 51 6 ≤ q.pva / 64) && decide (q.pva / 64 ≤ bits w1 51 6)
    let lines := s.tiles.flatMap fun (t, t') =>
      if s.partOf t = part then (t'.parts.filter fun q => inside q.2).map fun q => (t, q.1) else []
    let s := lines.foldl (fun (s : State) l => s.gatherFrom part (s.tenantOf l.1 part) l.2 fun t => decide (s.partOf t = part)) s
    let n := v.toNat
    let a := bits n 51 6 * 64 + bits n 5 2 * 4 + bits n 0 0
    let b := bits n 115 70 * 64
    .next ((s.setPf off (BitVec.ofNat 64 a)).setPf (off + 8) (BitVec.ofNat 64 b))

/-! ## Stamp-set requests (R202) -/

/-- STAMP_SET_REQUEST (R202): the stamps of NLINES + 1 lines within one slice's vault part become VALUE; their L1 copies in the partition go, and
loads that wait for them are evaluated again. -/
def execStampSetRequest (v : Word) (s : State) : Out :=
  let w := v.toNat
  let a := (s.pfr 0xB800).toNat
  if !bit w 63 || s.stset then .next s
  else
    let pa := bits a 51 6 * 64
    let n := bits w 48 32 + 1
    let fits := isVault pa && decide (pa % 0x800000 + 64 * n ≤ s.vaultBytes (pa / 0x800000))
    if bits w 62 49 ≠ 0 ∨ bits a 63 52 ≠ 0 ∨ bits a 5 0 ≠ 0 ∨ fits = false then .next (s.setPf 0xB810 2)
    else
      let lines := (List.range n).map (· + pa / 64)
      let stamp := BitVec.ofNat 32 w
      let s := { s with
        mem := { s.mem with stamps := lines.foldl (fun m l => Tbl.put m l stamp) s.mem.stamps }
        tiles := Tbl.mapV (fun _ (v : Tile) => { v with l1 := v.l1.filter fun c => !lines.contains c.1 }) s.tiles }
      let s := lines.foldl (fun (s : State) l => s.evalWaiters l) s
      .next (State.setPf { s with stset := true } 0xB810 1)

/-- STAMP_SET_COMPLETE (R202). -/
def execStampSetComplete (s : State) : Out := if s.stset then .next (State.setPf { s with stset := false } 0xB810 0) else .next s

/-! ## Errors (R264, R266) -/

/-- The n-th of the contributions that combining entries hold is poisoned (R51). -/
def spoilContribution : List CombEntry → Nat → List CombEntry
  | [], _ => []
  | e :: rest, n =>
    if e.pass then e :: spoilContribution rest n
    else if n < e.got.length then { e with got := e.got.mapIdx fun i c => if i = n then { c with poisoned := true } else c } :: rest
    else e :: spoilContribution rest (n - e.got.length)

/-- The poison bit set of one vector of a list. -/
def spoilVec (l : List (Vec × Bool)) (n : Nat) : List (Vec × Bool) := l.mapIdx fun i v => if i = n then (v.1, true) else v

/-- R264, R266: the poison bit of the 64 bytes at a site is set, and of no other copy of them. A request that carries no data has none to spoil: its
answer says what its home's bytes are. -/
def State.spoil (s : State) : ErrorSite → State
  | .line n => s.setPoison n true
  | .l1 t n => s.updTile t fun v => match Tbl.find? v.l1 n with
    | some l => { v with l1 := Tbl.put v.l1 n { l with poison := true } }
    | none => v
  | .partials t n => s.updTile t fun v => match Tbl.find? v.parts n with
    | some q => { v with parts := Tbl.put v.parts n { q with poison := true } }
    | none => v
  | .flit id => { s with flits := s.flits.map fun m => if m.id = id then { m with f := { m.f with poison := true } } else m }
  | .access id => match s.req? id with
    | some r => s.setReq { r with poison := true }
    | none => s
  | .remote id n => { s with rreads := s.rreads.map fun q => if q.id = id then { q with data := spoilVec q.data n } else q }
  | .hub n => { s with combining := spoilContribution s.combining n }

/-- UNCORRECTABLE_ERROR (R264, R266): in stored data, or in a payload, which is delivered poisoned. -/
def execUncorrectableError (site : ErrorSite) (s : State) : Out := .next (s.spoil site)

/-- R266: the packet that a site names is discarded: a flit, an access or the answer to one, a remote read. Stored bytes are no packet. -/
def State.discard (s : State) : ErrorSite → State
  | .flit id => { s with flits := s.flits.filter fun m => decide (m.id ≠ id) }
  | .access id => s.dropReq id
  | .remote id _ => { s with rreads := s.rreads.filter fun q => decide (q.id ≠ id) }
  | .line _ | .l1 _ _ | .partials _ _ | .hub _ => s

/-- The router coordinates of a cluster taken as 128 × die + cluster, on the package mesh (R11). -/
def meshOf (n : Nat) : Nat × Nat := (n / 128 % 2 * 16 + n % 128 / 8, n / 256 * 8 + n % 8)

/-- NOC_HEADER_ERROR (R266): the packet is discarded; the partition of the receiving router halts with REASON 2, or, where the header names no partition,
every partition within one hop. -/
def execNocHeaderError (router : Nat) (header : BadHeader) (s : State) : Out :=
  let (x, y) := meshOf router
  let near := fun (n : Nat) => let (a, b) := meshOf n; decide ((max x a - min x a) + (max y b - min y b) ≤ 1)
  let ps := (List.range 64).filter fun p => (s.part p).enabled &&
    (if header.named then s.partHas p router else (List.range 512).any fun n => s.partHas p n && near n)
  .next (ps.foldl (fun (s : State) p => s.fatalReport p 96 2 0xFFFF) (s.discard header.lost))

/-! ## Cluster gating (R21, R22) -/

/-- Whether an entry of an address space maps bytes of the vault part of slice n (R21). -/
def State.vaultMapped (s : State) (n : Nat) : Bool :=
  let part := s.vaultBytes n
  let inside := fun (frame size : Nat) => isVault frame && decide (frame < n * 0x800000 + part) && decide (n * 0x800000 < frame + size)
  let word := fun (pa : Nat) => (s.tableEntry pa).1
  (List.range 8192).any fun asid =>
    let h := s.asidEntry asid
    bit h.root.toNat 0 &&
      ((List.range 2048).any (fun i =>
        let v1 := word (bits h.root.toNat 51 14 * 16384 + 8 * i)
        bit v1 0 && (List.range 1024).any fun j =>
          let v2 := word (bits v1 51 14 * 16384 + 8 * j)
          bit v2 0 && (List.range 1024).any fun k =>
            let v3 := word (bits v2 51 14 * 16384 + 8 * k)
            bit v3 0 && inside (bits v3 51 21 * 0x200000) 0x200000)
      || h.rgn.any fun g => bit g.1.toNat 0 && (List.range 2048).any fun k =>
          let v := word (bits g.2.toNat 51 14 * 16384 + 8 * k)
          bit v 0 && inside (bits v 51 10 * 1024) 1024)

/-- The status of a gating request: refused 2 for a harvested cluster or a reserved bit, refused 1 over mappings. -/
def State.gateStatus (s : State) (n : Nat) (rsvd off : Bool) : Nat :=
  if rsvd ∨ bit s.boot.sliceHarv n = true then 2 else if off && !bit s.gated n && s.vaultMapped n then 1 else 0

/-- A write of CLUS_GATE: a refused request, or one for a cluster already as asked, ends at once; any other is begun. -/
def State.gateRequest (s : State) (w : Nat) (off : Bool) : State :=
  let n := bits w 8 0
  if !bit w 63 || s.gate.isSome then s
  else
    let st := s.gateStatus n (bits w 61 9 ≠ 0) off
    if st ≠ 0 ∨ bit s.gated n = off then s.setPf 0xA608 (BitVec.ofNat 64 (2 * st))
    else State.setPf { s with gate := some (n, off) } 0xA608 1

/-- CLUSTER_POWER_GATE (R21, R22). -/
def execClusterPowerGate (v : Word) (s : State) : Out := if bit v.toNat 62 then .next (s.gateRequest v.toNat true) else .next s
/-- CLUSTER_UNGATE (R22). -/
def execClusterUngate (v : Word) (s : State) : Out := if bit v.toNat 62 then .next s else .next (s.gateRequest v.toNat false)

/-- R198: whether the slice of cluster n or a scratchpad bank of it holds count entries. -/
def State.clusterCounts (s : State) (n : Nat) : Bool :=
  s.counts.any fun k => decide (k.home = n) || (decide (512 ≤ k.home) && decide (k.home < homeH0) && decide ((k.home - 512) / 32 = n))
/-- R103: whether a tile group is on a tile of cluster n, or one moves there. -/
def State.clusterUsed (s : State) (n : Nat) : Bool :=
  (List.range 8).any (fun t => (s.tile (8 * n + t)).grp.isSome)
    || s.launches.any fun l => l.2.groups.any fun g => match g.2.target with | some t => decide (t / 8 = n) | none => false

/-- CLUSTER_GATE_COMPLETE (R21, R22, R103, R198): gating waits until no tile group is on the cluster and its homes hold no counts; mappings made meanwhile
refuse it; then its slice leaves the home lists that name it, a disabled partition's too, and it is off. DESIGN CHOICE (log 51): its vault, scratchpads and
caches keep what they hold while it is off. -/
def execClusterGateComplete (s : State) : Out :=
  match s.gate with
  | none => .next s
  | some (n, off) =>
    if off then
      if s.clusterUsed n || s.clusterCounts n then .next s
      else if s.vaultMapped n then .next (State.setPf { s with gate := none } 0xA608 2)
      else
        let s := s.parts.foldl (fun (s : State) q => s.leaveList q.1 n) s
        .next (State.setPf { s with gate := none, gated := s.gated ||| 2 ^ n } 0xA608 0)
    else .next (State.setPf { s with gate := none, gated := if bit s.gated n then s.gated - 2 ^ n else s.gated } 0xA608 0)

end Sys2Proof.Machine
end

