-- ==== Sys2Proof/Machine/Boot.lean ====
section
/-!
DEFINITION. The security processor and the power manager: boot and recovery (R24 to R28), attestation (R29 to R31), and the core clock (R16 to R20).
What the ROM's keys, the digests and the signatures are is not the model's to say: they are free values (log 5).
-/
namespace Sys2Proof.Machine

/-! ## Images (R24, R25) -/

/-- Bytes off..off+n−1 of an image. -/
def imgBytes (t : Table Byte) (off n : Nat) : List Byte := (List.range n).map fun i => Tbl.getD t (off + i) 0
/-- A little-endian field of an image. -/
def imgField (t : Table Byte) (off : Nat) : Nat → Nat
  | 0 => 0
  | n + 1 => (Tbl.getD t off 0).toNat + 256 * imgField t (off + 1) n

/-- IMG_LEN, CFG_OFF, CFG_LEN and DIGEST of an image's header. -/
def imgLen (t : Table Byte) : Nat := imgField t 8 4
def cfgOff (t : Table Byte) : Nat := imgField t 0x10 4
def cfgLen (t : Table Byte) : Nat := imgField t 0x14 4
def imgDigest (t : Table Byte) : List Byte := imgBytes t 0x20 64

/-- R25, phase 0: FAIL_CODE 1 where MAGIC or HDR_VER is wrong. -/
def headerFail (t : Table Byte) : Nat := if imgField t 0 4 = 0x4A564657 ∧ imgField t 4 4 = 1 then 0 else 1

/-- R25, phase 1: FAIL_CODE 2 where a length is out of bounds (IMG_LEN from the header's 256 bytes to 16 MiB and within what was supplied, the
configuration range within the body), 3 where DIGEST or SIG is wrong. DESIGN CHOICE (log 50): a reserved field of the header that is not zero fails
nothing, for R25 names no outcome for it. -/
def verifyFail (t : Table Byte) (supplied : Nat) : Nat :=
  let len := imgLen t
  let c0 := cfgOff t
  let c1 := cfgOff t + cfgLen t
  if len < 256 ∨ 0x1000000 < len ∨ supplied < len ∨ c0 < 256 ∨ len < c1 then 2
  else
    let msg := imgBytes t 0 0x20 ++ imgBytes t 0x100 (c0 - 0x100) ++ imgBytes t c1 (len - c1)
    if Config.shake256 msg 64 = imgDigest t ∧ Config.ed448Verify (Config.romKey 0) (imgDigest t) (imgBytes t 0x60 114) = true then 0 else 3

/-- The configuration block of an image begins at CFG_OFF; a field of it. -/
def cfgField (t : Table Byte) (off n : Nat) : Nat := imgField t (cfgOff t + off) n

/-- R28: whether the configuration block of an image is in order. -/
def configOk (t : Table Byte) : Bool :=
  let b := cfgOff t
  decide (cfgLen t = 0x400) && cfgField t 0 4 = 0x4A564342 && cfgField t 4 4 = 0x400
    && decide (Config.shake256 (Config.romKey 2) 64 = imgBytes t (b + 8) 64)
    && (List.range 8).all (fun i => cfgField t (0x288 + i) 1 = 0 || cfgField t (0x288 + i) 1 = 4)
    && (List.range 4).all (fun i => decide (cfgField t (0x290 + i) 1 ≤ 1))
    && cfgField t 0x294 2 ≠ 0 && cfgField t 0x296 2 = 0 && cfgField t 0x2B8 214 = 0
    && Config.ed448Verify (Config.romKey 1) (imgBytes t b 0x38E) (imgBytes t (b + 0x38E) 114)

/-- R71: the phase changes, with PF vector 0. -/
def State.setPhase (s : State) (n : Nat) : State :=
  if s.boot.phase = n then s else State.raise { s with boot := { s.boot with phase := n } } 0 0
/-- A failure of boot: its FAIL_CODE and the phase it leads to. -/
def State.bootFail (s : State) (code phase : Nat) : State := State.setPhase { s with boot := { s.boot with fail := code } } phase

/-- What the hardware implements of the feature word (R72). -/
def implemented : Nat := 0x7FF03FF

/-- PF_RESET (R25): everything is at its reset value but what lies outside a reset of the part (the flash slot, memory, the links, the time counter, log
13), and the ROM reads the header in phase 0. -/
def execPfReset (s : State) : Out :=
  let r : State := { cyc := s.cyc, agenda := s.agenda, nextId := s.nextId, uses := s.uses, mem := s.mem, ref6 := s.ref6, ethDown := s.ethDown
                     cxlDown := s.cxlDown, ssdDown := s.ssdDown, boot := { slot := s.boot.slot } }
  let s := if s.boot.phase = 0 then r else r.raise 0 0
  match headerFail r.boot.slot with
  | 0 => .next (s.setPhase 1)
  | c => .next (s.bootFail c 4)

/-- An image runs: it is the running image, with its security version. -/
def State.runImage (s : State) (t : Table Byte) : State :=
  State.setPhase { s with boot := { s.boot with image := t, secVer := imgField t 0xC 2 } } 2

/-- BOOT_VERIFY_DONE (R25): the end of phase 1. -/
def execBootVerifyDone (s : State) : Out :=
  if s.boot.phase ≠ 1 then .next s
  else match verifyFail s.boot.slot 0x1000000 with
  | 0 => .next (s.runImage s.boot.slot)
  | c => .next (s.bootFail c 4)

/-- FIRMWARE_BRINGUP_DONE (R25, R28): the end of phase 2. -/
def execFirmwareBringupDone (linksOk : Bool) (s : State) : Out :=
  let t := s.boot.image
  if s.boot.phase ≠ 2 then .next s
  else if !configOk t then .next (s.bootFail 4 4)
  else if !linksOk then .next (s.bootFail 5 6)
  else .next (State.setPhase { s with boot := { s.boot with
    tileHarv := cfgField t 0x48 512, sliceHarv := cfgField t 0x248 64
    ethLanes := (List.range 8).map fun i => cfgField t (0x288 + i) 1, storBif := (List.range 4).map fun i => cfgField t (0x290 + i) 1
    retireCe := cfgField t 0x294 2, offer := cfgField t 0x298 32 &&& implemented } } 3)

/-- RECOVERY_BUFFER_WRITE (R25): discarded during phase 5; the buffer holds 16 MiB, the most an image has (R24). -/
def execRecoveryBufferWrite (off : Nat) (data : List Byte) (s : State) : Out :=
  if s.boot.phase = 5 then .next s
  else
    let cells := (data.mapIdx fun i b => (off + i, b)).filter fun x => decide (x.1 < 0x1000000)
    .next { s with boot := { s.boot with rcv := cells.foldl (fun m x => Tbl.put m x.1 x.2) s.boot.rcv } }

/-- RECOVERY_GO (R25, R26): a write of RCV_CTL. IMG_LEN is stored; GO counts in phase 4 alone. -/
def execRecoveryGo (v : Word) (s : State) : Out :=
  let w := v.toNat
  let s := { s with boot := { s.boot with rcvLen := bits w 63 32 } }
  if s.boot.phase = 4 ∧ bit w 0 = true then .next (State.setPhase { s with boot := { s.boot with commit := bit w 1 } } 5) else .next s

/-- RECOVERY_VERIFY_DONE (R25): the steps of phases 0 and 1 on the image in the buffer. -/
def execRecoveryVerifyDone (s : State) : Out :=
  let t := s.boot.rcv
  if s.boot.phase ≠ 5 then .next s
  else
    let code := if headerFail t ≠ 0 then 1 else verifyFail t s.boot.rcvLen
    if code ≠ 0 then .next (s.bootFail code 4)
    else .next (State.runImage { s with boot := { s.boot with writing := s.boot.commit } } t)

/-- SLOT_WRITE_DONE (R25): the slot holds the image, or, after a failed write, nothing usable, with FAIL_CODE 6. -/
def execSlotWriteDone (ok : Bool) (s : State) : Out :=
  if !s.boot.writing then .next s
  else if ok then .next { s with boot := { s.boot with writing := false, slot := s.boot.image } }
  else .next { s with boot := { s.boot with writing := false, slot := [], fail := 6 } }

/-! ## Attestation (R29 to R31) -/

/-- SPDM 1.3 (R30): the head of a message, its code and two parameters. -/
def spdmHead (code p1 p2 : Nat) : List Byte := [0x13, BitVec.ofNat 8 code, BitVec.ofNat 8 p1, BitVec.ofNat 8 p2]
/-- A response leaves by the data object mailbox; f says what the request and it do to the transcripts (log 21). -/
def State.spdmReply (s : State) (m : List Byte) (f : Boot → Boot) : State := { s with boot := f { s.boot with replies := s.boot.replies ++ [m] } }
/-- An ERROR response; neither it nor its request is of a transcript. -/
def State.spdmError (s : State) (code data : Nat) : State := s.spdmReply (spdmHead 0x7F code data) id
/-- The responder runs once the identity exists (R29). -/
def State.spdm (s : State) (f : State → State) : Out := if s.boot.phase = 3 then .next (f s) else .next s
/-- A message joins the transcript that every signature begins with. -/
def Boot.agreed (m : List Byte) (b : Boot) : Boot := { b with transcript := b.transcript ++ m, meas := [] }
/-- A little-endian field of a message. -/
def spdmField (m : List Byte) (off n : Nat) : Nat := (List.range n).foldl (fun v i => v + (m.getD (off + i) 0).toNat * 2 ^ (8 * i)) 0
/-- Part of a message, with zeros where it is too short. -/
def spdmPart (m : List Byte) (off n : Nat) : List Byte := (List.range n).map fun i => m.getD (off + i) 0
/-- The 100 bytes that come before the hash in what SPDM 1.3 signs. -/
def spdmPrefix (context : String) : List Byte :=
  let ascii := fun (t : String) => t.toList.map fun c => BitVec.ofNat 8 c.toNat
  let head := (List.range 4).flatMap fun _ => ascii "dmtf-spdm-v1.3.*"
  head ++ List.replicate (36 - context.length) 0 ++ ascii context

/-- R29: the alias key of the running image, by its public half. -/
def State.aliasPub (s : State) : List Byte := Config.aliasKey (imgDigest s.boot.image)
/-- R29, R30: the certificate chain of slot 0 as SPDM carries it, with its length and the hash of its root: root, device authority and identity key, then
the alias key, certified by the identity key. -/
def State.certChain (s : State) : List Byte :=
  let body := Config.certBody s.aliasPub
  let certs := Config.romKey 3 ++ body ++ Config.ed448Sign (Config.romKey 2) body
  natBytes (68 + certs.length) 2 ++ [0, 0] ++ Config.sha3 (Config.romKey 3) ++ certs
/-- The alias key's signature of a transcript in a context: over the prefix of SPDM 1.3 and the SHA3-512 hash (R29, R30). -/
def State.aliasSign (s : State) (context : String) (m : List Byte) : List Byte := Config.ed448Sign s.aliasPub (spdmPrefix context ++ Config.sha3 m)
/-- The nonce of an answer that is signed. -/
def State.spdmNonce (s : State) : List Byte := natBytes (Config.nonce s.uses).toNat 32

/-- SPDM_GET_VERSION (R30): a new conversation begins. -/
def execSpdmGetVersion (s : State) : Out :=
  let m := [0x10, 0x04, 0, 0, 0, 1, 0x00, 0x13]
  s.spdm fun s => s.spdmReply m fun b => { b with transcript := [0x10, 0x84, 0, 0] ++ m, certs := [], meas := [] }
/-- SPDM_GET_CAPABILITIES (R30): certificates, CHALLENGE, and measurements with signature; no session. What the requester says of itself is a
free value (log 21). -/
def execSpdmGetCapabilities (s : State) : Out :=
  let body := natBytes (Config.requester s.uses).toNat 16
  let m := spdmHead 0x61 0 0 ++ natBytes (256 * Config.spdmSize 0) 2 ++ natBytes 0 2 ++ natBytes 0x16 4 ++ natBytes (Config.spdmSize 1) 4 ++ natBytes (Config.spdmSize 2) 4
  s.spdm fun s => State.spdmReply { s with uses := s.uses + 1 } m (Boot.agreed (spdmHead 0xE1 0 0 ++ body ++ m))
/-- SPDM_NEGOTIATE_ALGORITHMS (R30): Ed448, SHA3-512 and measurements as a raw bit stream only; a requester that does not offer the first two is refused. -/
def execSpdmNegotiateAlgorithms (tables : Nat) (body : List Byte) (s : State) : Out :=
  let dmtf := spdmField body 2 1 % 2
  let m := spdmHead 0x63 0 0 ++ natBytes 36 2 ++ natBytes dmtf 1 ++ natBytes 0 1 ++ natBytes dmtf 4 ++ natBytes 0x800 4 ++ natBytes 0x20 4 ++ natBytes 0 16
  s.spdm fun s =>
    if bit (spdmField body 4 4) 11 && bit (spdmField body 8 4) 5 then s.spdmReply m (Boot.agreed (spdmHead 0xE3 tables 0 ++ body ++ m)) else s.spdmError 0x01 0
/-- SPDM_GET_DIGESTS (R30): the digest of the chain of slot 0, which alone is populated. -/
def execSpdmGetDigests (s : State) : Out :=
  s.spdm fun s =>
    let m := spdmHead 0x01 1 1 ++ Config.sha3 s.certChain
    s.spdmReply m fun b => { b with certs := spdmHead 0x81 0 0 ++ m, meas := [] }
/-- SPDM_GET_CERTIFICATE (R30): bytes of the slot 0 chain from an offset on; another slot is refused. -/
def execSpdmGetCertificate (slot off len : Nat) (s : State) : Out :=
  s.spdm fun s =>
    if slot ≠ 0 ∨ s.certChain.length ≤ off then s.spdmError 0x01 0
    else
      let part := (s.certChain.drop off).take len
      let m := spdmHead 0x02 0 0 ++ natBytes part.length 2 ++ natBytes (s.certChain.length - off - part.length) 2 ++ part
      s.spdmReply m fun b => { b with certs := b.certs ++ spdmHead 0x82 0 0 ++ natBytes off 2 ++ natBytes len 2 ++ m, meas := [] }

/-- R31: the digest of a measurement record. -/
def State.measured (s : State) (index : Nat) : List Byte :=
  let t := s.boot.image
  match index with
  | 1 => Config.shake256 (Config.romKey 4) 64
  | 2 => imgDigest t
  | 3 => Config.shake256 (imgBytes t (cfgOff t) (cfgLen t)) 64
  | _ => Config.shake256 (natBytes (if s.boot.accepted then s.feats else 0) 32) 64
/-- R31: a 72-byte Bregor record: INDEX, KIND, SEC_VER, digest. -/
def State.bregorRecord (s : State) (index : Nat) : List Byte := natBytes index 2 ++ natBytes index 2 ++ natBytes s.boot.secVer 4 ++ s.measured index
/-- A measurement block: its index, the specification, and the record as a raw bit stream, of the type that the standard gives ROM, firmware and
configuration. -/
def State.measureBlock (s : State) (index : Nat) : List Byte :=
  natBytes index 1 ++ natBytes 1 1 ++ natBytes 75 2 ++ natBytes (0x80 + (if index = 1 then 0 else if index = 2 then 1 else 3)) 1 ++ natBytes 72 2 ++ s.bregorRecord index
/-- The measurement blocks that a request with an index asks for. -/
def State.measureBlocks (s : State) (index : Nat) : List (List Byte) :=
  if index = 0 then [] else if index = 0xFF then (List.range 4).map fun i => s.measureBlock (i + 1) else [s.measureBlock index]

/-- SPDM_CHALLENGE (R30): the alias key signs the transcript with the request, its nonce and context, and the answer; the body is the requester's 32-byte nonce
and 8-byte context. -/
def execSpdmChallenge (slot : Nat) (rest : ChallengeRest) (s : State) : Out :=
  let summary := rest.summary
  let body := rest.body
  s.spdm fun s =>
    if slot ≠ 0 ∨ (summary ≠ 0 ∧ summary ≠ 1 ∧ summary ≠ 0xFF) then s.spdmError 0x01 0
    else
      let sum := if summary = 0 then [] else Config.sha3 (s.measureBlocks 0xFF).flatten
      let m := spdmHead 0x03 0 1 ++ Config.sha3 s.certChain ++ s.spdmNonce ++ sum ++ natBytes 0 2 ++ spdmPart body 32 8
      let sig := s.aliasSign "responder-challenge_auth signing" (s.boot.transcript ++ s.boot.certs ++ spdmHead 0x83 slot summary ++ body ++ m)
      State.spdmReply { s with uses := s.uses + 1 } (m ++ sig) fun b => { b with certs := [], meas := [] }

/-- SPDM_GET_MEASUREMENTS (R31): index 0 asks how many records there are, 0xFF for all of them. Bit 0 of the attributes asks for a signature: the body
then begins with the requester's nonce and slot, and its context follows. -/
def execSpdmGetMeasurements (request : MeasureRequest) (s : State) : Out :=
  let attr := request.attr
  let index := request.index
  let body := request.body
  s.spdm fun s =>
    if (4 < index ∧ index ≠ 0xFF) ∨ (bit attr 0 = true ∧ spdmField body 32 1 % 16 ≠ 0) then s.spdmError 0x01 0
    else
      let blocks := s.measureBlocks index
      let m := spdmHead 0x60 (if index = 0 then 4 else 0) 0 ++ natBytes blocks.length 1 ++ natBytes blocks.flatten.length 3 ++ blocks.flatten ++ s.spdmNonce ++
        natBytes 0 2 ++ spdmPart body (if bit attr 0 then 33 else 0) 8
      let l := s.boot.meas ++ spdmHead 0xE0 attr index ++ body ++ m
      if bit attr 0 then
        State.spdmReply { s with uses := s.uses + 1 } (m ++ s.aliasSign "responder-measurements signing" (s.boot.transcript ++ l)) fun b => { b with meas := [] }
      else State.spdmReply { s with uses := s.uses + 1 } m fun b => { b with meas := l }

/-- SPDM_UNSUPPORTED_REQUEST (R30): the error carries the request's code. -/
def execSpdmUnsupportedRequest (code : Nat) (s : State) : Out := s.spdm fun s => s.spdmError 0x07 code

/-! ## The power manager (R16 to R20, R23) -/

/-- A non-fatal record to every enabled partition. -/
def State.recordAll (s : State) (code : Nat) : State :=
  ((List.range 64).filter fun p => (s.part p).enabled).foldl (fun (s : State) p => s.pushRec p { kind := 3, code, at_ := s.CYC }) s

/-- The core clock is to change to a setting (R18). -/
def State.setClock (s : State) (n : Nat) : State := { s with power := { s.power with target := n } }

/-- POWER_WINDOW (R20): a 1 ms window ends with the hottest junction at tj °C and watts of package power; the first situation that applies decides. A
window's power is no ground to leave 0.7 GHz (log 14). DESIGN CHOICE (log 72): the record and the report go to the partitions that are enabled. -/
def execPowerWindow (tj watts : Nat) (s : State) : Out :=
  let w := s.power
  if w.shut then .next s
  else
    let s := { s with power := { w with
      tj := min tj 255, watts := min watts 65535, narrowAct := w.narrow, narrow := false
      lowWin := if watts < 1800 ∧ w.target = 1 then w.lowWin + 1 else 0, coolWin := if tj < 95 ∧ w.target = 2 then w.coolWin + 1 else 0 } }
    if 115 ≤ tj then
      let s := { s with power := { s.power with shut := true } }
      .next (((List.range 64).filter fun p => (s.part p).enabled).foldl (fun (s : State) p => s.fatalReport p 97 3 0xFFFF) s)
    else if 105 ≤ tj then
      let s := State.setClock { s with power := { s.power with thermEv := true } } 2
      .next ((if w.thermEv then s else s.raise 0 1).recordAll 65)
    else if w.target = 2 then .next s
    else if 1950 < watts ∧ w.narrow = true then .next (s.setClock 1)
    else if w.target = 1 ∧ 10 ≤ s.power.lowWin then .next (s.setClock 0)
    else .next s

/-- THERMAL_RECOVERY (R20): 10 windows of 1 ms below 95 °C. -/
def execThermalRecovery (s : State) : Out :=
  if s.power.target = 2 ∧ 10 ≤ s.power.coolWin then .next (State.setClock { s with power := { s.power with coolWin := 0 } } 0) else .next s

/-- CLOCK_CHANGE_COMPLETE (R18): nothing is lost or reordered. -/
def execClockChangeComplete (s : State) : Out := .next { s with power := { s.power with clk := s.power.target } }

end Sys2Proof.Machine
end

