-- ==== Sys2Proof/Machine/PortSwitch.lean ====
section
/-!
DEFINITION. The endpoint table and secure domains (R35 to R38), memory keys (R39 to R42), the package set (R47 to R49), and the port switch (R48,
R50, R51).
-/
namespace Sys2Proof.Machine

/-! ## Endpoint contexts (R35, R36, R38) -/

/-- A word of the endpoint table: word i of the entry of context n. -/
def State.epWord (s : State) (n i : Nat) : Nat := (s.pfr (0x40000 + 64 * n + 8 * i)).toNat
/-- ADDR, KTBASE, KTLEN, FLAGS of a context's entry (R36). -/
def State.epAddr (s : State) (n : Nat) : Nat := s.epWord n 0 + 2 ^ 64 * s.epWord n 1
def State.epKtBase (s : State) (n : Nat) : Nat := s.epWord n 2
def State.epKtLen (s : State) (n : Nat) : Nat := bits (s.epWord n 3) 15 0
def State.epFlags (s : State) (n : Nat) : Nat := bits (s.epWord n 3) 39 32
/-- Whether a context is bound, and whether it uses its partition's secure domain. -/
def State.epBound (s : State) (n : Nat) : Bool := decide (n < 512) && bit (s.epFlags n) 0
def State.epSec (s : State) (n : Nat) : Bool := bit (s.epFlags n) 2

/-- A context's record beside its table entry. -/
def State.endpoint (s : State) (n : Nat) : Endpoint := Tbl.getD s.endpoints n {}
/-- That record changed. -/
def State.updEp (s : State) (n : Nat) (f : Endpoint → Endpoint) : State := { s with endpoints := Tbl.put s.endpoints n (f (s.endpoint n)) }
/-- A counter that saturates at 0xFFFF (R38). -/
def sat16 (n : Nat) : Nat := min (n + 1) 0xFFFF

/-- R36: whether the check of an entry fails, with FLAGS as they would be. DESIGN CHOICE (log 63): a KTBASE of 2^52 or more, which is no PVA, fails too. -/
def State.epBad (s : State) (n flags : Nat) : Bool :=
  let w3 := s.epWord n 3
  let part := bits w3 21 16
  let spray := bits w3 31 24
  bits flags 7 3 ≠ 0 || bits w3 23 22 ≠ 0 || bits w3 63 40 ≠ 0 || (List.range 4).any (fun i => s.epWord n (4 + i) ≠ 0)
    || s.epKtBase n % 32 ≠ 0 || decide (2 ^ 52 ≤ s.epKtBase n) || s.epKtLen n = 0 || decide (4096 < s.epKtLen n) || spray = 0 || decide (64 < spray)
    || !(s.part part).enabled || !s.feature (if bit flags 1 then 21 else 20) || (bit flags 2 && !s.feature 22)
    || (List.range 512).any fun m => m ≠ n && s.epBound m && decide (s.epAddr m = s.epAddr n)

/-- FLAGS of an entry written. -/
def State.setEpFlags (s : State) (n flags : Nat) : State :=
  let w := s.epWord n 3
  s.setPf (0x40018 + 64 * n) (BitVec.ofNat 64 (w - bits w 39 32 * 2 ^ 32 + flags % 256 * 2 ^ 32))

/-- ENDPOINT_BIND (R36): a refused binding sets CFG_ERR and changes nothing else. -/
def execEndpointBind (ep : Nat) (flags : Byte) (s : State) : Out :=
  if s.epBound ep ∨ bit flags.toNat 0 = false then .next s
  else if s.epBad ep flags.toNat then .next (s.updEp ep fun x => { x with cfgErr := true })
  else .next ((s.setEpFlags ep flags.toNat).updEp ep fun x => { x with cfgErr := false, cache := [], flushing := false })

/-- A message that this package sent ends, well or not (R41, R240, R249): its delivery context is free again once it has no other message (R33, log 64). -/
def State.txDone (s : State) (m : TxMsg) (ok : Bool) : State :=
  let tx := s.tx.filter fun x => decide (x.id ≠ m.id)
  let s := { s with tx, pdcs := s.pdcs.filter fun (c : Pdc) => !c.out || decide (m.pdc ≠ some c.id) || tx.any fun x => decide (x.pdc = some c.id) }
  match m.carries with
  | .chunk step chunk => s.chunkAcked step chunk ok
  | .row id => s.rowAcked id ok

/-- A send that an armed entry matched is over (R52, R78): an entry with nothing left to match or to wait for is gone. -/
def State.unmatch (s : State) (id : Nat) : State :=
  let take := fun (x : Armed) => if x.id = id then { x with inflight := x.inflight - 1 } else x
  { s with armed := (s.armed.map take).filter fun (x : Armed) =>
      !(decide (x.id = id) && decide (x.inflight = 0) && (decide (x.count = 0) || x.retiring)) }
/-- ARM commands that wait for the end of an entry's retirement complete (R52, R78). -/
def State.armRetired (s : State) : State :=
  s.windows.foldl (fun (s : State) q => match q.2.run with
    | some r =>
      let b := r.cmd.bytes.toNat
      if r.cmd.op = 2 ∧ !r.finished ∧ !s.armed.any (fun (a : Armed) => decide (a.part = q.1 / 16 - 1) && decide (a.ep = bits b 335 320)
          && decide (a.tag.toNat = bits b 191 128) && a.retiring) then
        s.completeCmd (q.1 / 16) (q.1 % 16) 0 0
      else s
    | none => s) s

/-- That for a message that ends without firing: an ARM that retires the entry and waits for it completes. -/
def State.unmatchRx (s : State) (m : RxMsg) : State := match m.armed with | some a => if m.done then s else (s.unmatch a.id).armRetired | none => s

/-- EP_STATUS_CLEAR (R38). -/
def execEpStatusClear (ep : Nat) (s : State) : Out := .next (s.updEp ep fun x => { x with authFail := 0, keyFail := 0, tagDrop := 0 })

/-! ## Secure domains (R34, R37) -/

/-- A partition's secure domain. -/
def State.domain (s : State) (p : Nat) : Domain := Tbl.getD s.domains p {}
/-- That domain changed. -/
def State.updDomain (s : State) (p : Nat) (f : Domain → Domain) : State := { s with domains := Tbl.put s.domains p (f (s.domain p)) }

/-- SD_KEY_WRITE (R37): ignored while the slot is valid. -/
def execSdKeyWrite (part slot : Nat) (key : List Byte) (s : State) : Out :=
  .next (s.updDomain part fun d =>
    if slot = 0 then (if d.valid0 then d else { d with key0 := key }) else if d.valid1 then d else { d with key1 := key })

/-- SD_CTL_WRITE (R37): TXSLOT stays as it is where it would name a slot that is not valid. DESIGN CHOICE (log 63): the valid bits that this write sets
decide. -/
def execSdCtlWrite (part : Nat) (v : Word) (s : State) : Out :=
  let w := v.toNat
  .next (s.updDomain part fun d =>
    let d := { d with valid0 := bit w 1, valid1 := bit w 2, sdi := BitVec.ofNat 32 (bits w 63 32) }
    if (if bit w 0 then d.valid1 else d.valid0) then { d with tx := bit w 0 } else d)

/-- The key that a domain's sends use, where there is one. -/
def Domain.txKey (d : Domain) : Option (List Byte) :=
  if d.tx then (if d.valid1 then some d.key1 else none) else if d.valid0 then some d.key0 else none

/-- R34, R37: whether what names an endpoint context is authentic there: a domain's packet under a valid slot whose identifier matches; a plain packet
where the context uses no domain. -/
def State.authenticAt (s : State) (ep : Nat) (isSealed : Bool) (kid : W32) (icv : Nat) : Bool :=
  if s.epSec ep then
    let d := s.domain ((s.epPart ep).getD 0)
    isSealed && kid = d.sdi && ((d.valid0 && Config.icvOk d.key0 kid icv) || (d.valid1 && Config.icvOk d.key1 kid icv))
  else !isSealed
/-- Whether a packet is. -/
def State.authentic (s : State) (p : Packet) : Bool := s.authenticAt p.ep p.sealed p.kid p.icv
/-- AUTH_FAIL counts a packet (R34, R38). -/
def State.authFail (s : State) (ep : Nat) : State := s.updEp ep fun x => { x with authFail := sat16 x.authFail }

/-! ## Memory keys (R39 to R42) -/

/-- A key table entry from its 32 bytes (R40). -/
def KeyEntry.ofNat (v : Nat) : KeyEntry :=
  { base := BitVec.ofNat 64 v, limit := BitVec.ofNat 64 (bits v 127 64), check := BitVec.ofNat 32 (bits v 159 128), rights := bits v 167 160
    typ := bits v 175 168, cntMode := bits v 183 176, bank := bits v 191 184, cntAddr := BitVec.ofNat 64 (bits v 255 192) }

/-- The entry that a key names, from the hub's cache or the key table in partition memory, where it then stays cached (R42). An entry that cannot be
read is invalid. -/
def State.keyEntry (s : State) (ep : Nat) (key : Word) : State × KeyEntry :=
  let idx := key.toNat % 4096
  match Tbl.find? (s.endpoint ep).cache idx with
  | some e => (s, e)
  | none =>
    let p := (s.epPart ep).getD 0
    if s.epKtLen ep ≤ idx then (s, {})
    else match s.pvaRead p (s.epKtBase ep + 32 * idx) 32 with
      | some (s, v) => let e := KeyEntry.ofNat v; (s.updEp ep fun x => { x with cache := Tbl.put x.cache idx e }, e)
      | none => (s, {})

/-- R39, R41: whether an operation that needs a right fails the check of its key entry, with n bytes at an offset. DESIGN CHOICE (log 67): a TYPE 1 entry with a
BANK that there is not fails it too. -/
def KeyEntry.fails (e : KeyEntry) (key : Word) (right off n : Nat) : Bool :=
  bits key.toNat 31 12 ≠ 0 || e.limit = 0 || decide (e.check.toNat ≠ bits key.toNat 63 32) || !bit e.rights right || decide (1 < e.typ)
    || decide (2 < e.cntMode) || (e.typ = 1 && decide (2 < e.bank)) || decide (e.limit.toNat < off + n)

/-- KEY_FLUSH (R42): the messages already admitted keep the entry they were admitted under; later ones read it afresh. -/
def execKeyFlush (ep : Nat) (s : State) : Out :=
  let mark := fun (m : RxMsg) => if m.ep = ep ∧ m.done = false then { m with old := true } else m
  .next (State.updEp { s with rx := s.rx.map mark } ep fun x => { x with cache := [], flushing := true })

/-- KEY_FLUSH_COMPLETE (R42): every message admitted before the flush has completed or failed; what still comes of one that failed reads the entry afresh. -/
def execKeyFlushComplete (ep : Nat) (s : State) : Out :=
  if (s.endpoint ep).flushing && !s.rx.any (fun m => decide (m.ep = ep) && m.old && !m.done && !m.bad) then
    .next (State.updEp { s with rx := s.rx.map fun (m : RxMsg) => if m.ep = ep ∧ m.old = true then { m with old := false, reread := true } else m } ep
      fun x => { x with flushing := false })
  else .next s

/-! ## Cabling (R47 to R49) -/

/-- PEER_ADDR of port k, and PEER_MASK. -/
def State.peerAddr (s : State) (k : Nat) : BitVec 128 := BitVec.ofNat 128 ((s.pfr (0x48000 + 16 * k)).toNat + 2 ^ 64 * (s.pfr (0x48008 + 16 * k)).toNat)
def State.peerMask (s : State) : Nat := (s.pfr 0x48080).toNat % 256
/-- Whether port k's link is up: it is enabled (R28) and not down. -/
def State.ethUp (s : State) (k : Nat) : Bool := nth s.boot.ethLanes k 0 ≠ 0 && !bit s.ethDown k

/-- The cabling as it stands: the set ports, and each port's peer. -/
def State.cabling (s : State) : Nat × List (BitVec 128) := (s.peerMask, (List.range 8).map s.peerAddr)

/-- Whether ETH_LANES enables port k (R28). -/
def State.ethOn (s : State) (k : Nat) : Bool := decide (nth s.boot.ethLanes k 0 ≠ 0)
/-- R28, R48, R49: the port by which a packet with an entropy value leaves for a destination, or none. A port that ETH_LANES disables sends nothing. -/
def State.egress (s : State) (path : Nat × List (BitVec 128)) (dst : BitVec 128) (ev : Nat) : Option Nat :=
  let set := fun (k : Nat) => bit path.1 k && s.ethOn k
  match (List.range 8).find? fun k => bit path.1 k && nth path.2 k 0 = dst with
  | some k => if set (ev % 8) then some (ev % 8) else if set k then some k else none
  | none =>
    let up := (List.range 8).filter fun k => !bit path.1 k && s.ethUp k
    if up.isEmpty then none else up[ev % up.length]?

/-- NO_ROUTE counts a message (R49). -/
def State.noRoute (s : State) : State := s.setPf 0x48088 (BitVec.ofNat 64 (min ((s.pfr 0x48088).toNat + 1) 0xFFFFFFFF))
/-- NO_EP of a port counts a packet (R35, R49). -/
def State.noEp (s : State) (port : Nat) : State :=
  s.setPf (0x48100 + 8 * port) (BitVec.ofNat 64 (min (bits (s.pfr (0x48100 + 8 * port)).toNat 63 32 + 1) 0xFFFFFFFF * 2 ^ 32))

/-- PEER_CONFIG_WRITE (R49): PEER_ADDR of port k, or PEER_MASK for 8; messages in progress keep their paths. -/
def execPeerConfigWrite (k : Nat) (v : BitVec 128) (s : State) : Out :=
  if k < 8 then .next ((s.setPf (0x48000 + 16 * k) (v.setWidth 64)).setPf (0x48008 + 16 * k) ((v >>> 64).setWidth 64))
  else .next (s.setPf 0x48080 (BitVec.ofNat 64 (v.toNat % 256)))
/-- NO_ROUTE_CLEAR (R49). -/
def execNoRouteClear (s : State) : Out := .next (s.setPf 0x48088 0)
/-- PORT_STAT_CLEAR (R49). -/
def execPortStatClear (port : Nat) (s : State) : Out := .next (s.setPf (0x48100 + 8 * port) 0)
/-- ETH_LINK_CHANGE (R49). -/
def execEthLinkChange (port : Nat) (up : Bool) (s : State) : Out :=
  .next { s with ethDown := if bit s.ethDown port then (if up then s.ethDown - 2 ^ port else s.ethDown) else if up then s.ethDown else s.ethDown + 2 ^ port }

/-! ## Packets that leave (R37, R45, R46, R49) -/

/-- Whether an entropy value may be used: it is not marked, or its mark is 16 µs old (R46). DESIGN CHOICE (log 65): a mark is the package's, not one
destination's. -/
def State.evUsable (s : State) (ev : Nat) : Bool := match Tbl.find? s.evBad ev with | some t => decide (t ≤ s.hub) | none => true

/-- R45, R46: the entropy value of packet n of a message of spread width w from a base: its own, or the next usable one of the set, upward and
cyclically. -/
def State.pickEv (s : State) (base w n : Nat) : Nat :=
  let at_ := fun (i : Nat) => (base + (n + i) % w) % 65536
  at_ (((List.range w).find? fun i => s.evUsable (at_ i)).getD 0)

/-- Bytes in the packets that a message is cut into. -/
def packetBytes : Nat := 4096
/-- The packets that a message of n bytes takes. -/
def packetCount (n : Nat) : Nat := max 1 ((n + packetBytes - 1) / packetBytes)

/-- R37: a packet as endpoint context ep sends it, sealed under the slot that TXSLOT names where the context uses its domain; none where that slot holds
no valid key. -/
def State.seal (s : State) (ep : Nat) (w : Wire) : Option Wire :=
  if !s.epSec ep then some w
  else
    let d := s.domain ((s.epPart ep).getD 0)
    d.txKey.map fun k => { w with sealed := true, slot := b2n d.tx, kid := d.sdi, icv := Config.icv k d.sdi w.data }

/-- The packets of a message's bytes (R45, R48, R49): each with its entropy value, its place and its egress port. -/
def State.packetsOf (s : State) (path : Nat × List (BitVec 128)) (ep base width : Nat) (w : Wire) (data : List Byte) : List Wire :=
  let n := packetCount data.length
  (List.range n).filterMap fun i =>
    let ev := s.pickEv base width i
    (s.egress path w.dst ev).bind fun port =>
      s.seal ep { w with port, ev, idx := w.idx + i, psn := w.psn + i, count := n, data := (data.drop (packetBytes * i)).take packetBytes }

/-- What an endpoint context sends back to a peer (R37, R45, R49): under the entropy base of the peer's delivery context and the context's default spread. It
sends nothing without a key, and NO_ROUTE counts what has no port. -/
def State.respond (s : State) (ep pdc : Nat) (rod : Bool) (w : Wire) (data : List Byte) : State :=
  let base := Config.flowHash pdc % 65536
  if (s.egress s.cabling w.dst base).isNone then s.noRoute
  else { s with wire := s.wire ++ s.packetsOf s.cabling ep base (if rod then 1 else max 1 (s.epSpray ep)) { w with src := s.epOwn ep, pdc } data }

/-- An answer of an endpoint context to the sender of a message's packet. -/
def State.answer (s : State) (ep : Nat) (dst : BitVec 128) (pdc msg idx : Nat) (k : AckKind) : State :=
  s.respond ep pdc false { dst, msg, idx, answer := some k } []

/-- ENDPOINT_UNBIND (R36): messages in progress on the context fail at their initiators, those it sends among them. -/
def execEndpointUnbind (ep : Nat) (s : State) : Out :=
  if !s.epBound ep then .next s
  else
    let open_ := s.rx.filter fun m => decide (m.ep = ep) && !m.done
    let s := open_.foldl (fun (s : State) m => (s.unmatchRx m).answer ep m.src m.pdc m.msg 0 .nakAccess) s
    let s := { s with rx := s.rx.filter (fun m => decide (m.ep ≠ ep)), heldPackets := s.heldPackets.filter fun h => decide (h.p.ep ≠ ep)
                      pdcs := s.pdcs.filter fun (c : Pdc) => c.out || decide (c.ep ≠ ep) }
    let s := (s.tx.filter fun m => decide (m.ep = ep)).foldl (fun (s : State) m => s.txDone m false) s
    .next ((s.setEpFlags ep (s.epFlags ep - 1)).updEp ep fun x => { x with cache := [], flushing := false })

/-! ## Device memory as the endpoints reach it (R40, R43) -/

/-- A range cut at the ends of lines; k bounds the pieces. -/
def linePieces : Nat → Nat → Nat → List (Nat × Nat)
  | 0, _, _ => []
  | k + 1, a, n => if n = 0 then [] else let m := min n (64 - a % 64); (a, m) :: linePieces k (a + m) (n - m)

/-- Where a packet's bytes go: partition memory, a scratchpad, a group that is away, or nowhere. -/
inductive Target | mem (pva : Nat) | spad (tile off : Nat) | away | none
  deriving DecidableEq, Repr

/-- The launch that a TYPE 1 entry names, with the key under which it is kept (R40). -/
def State.keyLaunch (s : State) (part : Nat) (e : KeyEntry) : Option (Nat × Launch) :=
  let k := part * 65536 + bits e.base.toNat 63 48
  (Tbl.find? s.launches k).map fun l => (k, l)

/-- R40, R92: where offset off of a key's range lies, for n bytes. The spec gives no outcome where a TYPE 1 entry names a launch that is not there or a role
that is not bound, or reaches past the 128 KiB of its bank: DESIGN CHOICE (log 67), the packet is refused as R41 refuses one. -/
def State.keyTarget (s : State) (part : Nat) (e : KeyEntry) (off n : Nat) : Target :=
  if e.typ = 0 then .mem (e.base.toNat + off)
  else match s.keyLaunch part e with
    | none => .none
    | some (k, l) => match roleByte l.r.trole (bits e.base.toNat 47 42) with
      | none => .none
      | some m =>
        let g := l.r.groupOf 0 0 m
        let at_ := 64 * bits e.base.toNat 41 0 + off
        if s.groupMoves k g then .away
        else match l.tileOf g with
          | some t => if 0x20000 < at_ + n then .none else .spad t (e.bank * 0x20000 + at_)
          | none => .none

/-- How an access of the endpoints goes: every piece has an address, or it is refused, waits for a page, or is to be tried again. -/
inductive EthAddr | ok (ps : List (Nat × Nat × Option Xlat)) | refuse | waits (pva : Nat) (w : Walk) | retry

/-- R41, R53: the pieces of n bytes at a target with the right asked for; nothing is touched unless all of them can be. -/
def State.ethAddr (s : State) (part : Nat) (t : Target) (n : Nat) (write : Bool) : EthAddr :=
  match t with
  | .none => .refuse
  | .away => .retry
  | .spad tile off => .ok ((linePieces 300 (spadPa tile off) n).map fun p => (p.1, p.2, none))
  | .mem pva =>
    (linePieces 300 pva n).foldl (fun (acc : EthAddr) p => match acc with
      | .ok ps => match s.engAddr part 0 none p.1 p.2 (!write) write write with
        | .ok pa e => .ok (ps ++ [(pa, p.2, e)])
        | .fail _ => .refuse
        | .waits pva w => .waits pva w
      | x => x) (.ok [])

/-- Bytes written to pieces as stores at their homes; into stamped memory they carry stamp 0 (R43). -/
def State.ethWrite (s : State) (part : Nat) (ps : List (Nat × Nat × Option Xlat)) (data : List Byte) (poison : Bool) : State :=
  (ps.foldl (fun (acc : State × List Byte) p =>
    (acc.1.engineWrite part p.2.2 p.1 p.2.1 (bytesNum ((acc.2.take p.2.1).map (·.toNat))) 0 poison, acc.2.drop p.2.1)) (s, data)).1

/-- Bytes read from pieces at their homes, and whether a line of them is poisoned. -/
def State.ethRead (s : State) (part : Nat) (ps : List (Nat × Nat × Option Xlat)) : State × List Byte × Bool :=
  ps.foldl (fun (acc : State × List Byte × Bool) p =>
    let (s, v, bad) := acc.1.engRead part p.2.2 p.1 p.2.1
    (s, acc.2.1 ++ natBytes v p.2.1, acc.2.2 || bad)) (s, [], false)

/-! ## Contributions at their destination (R34, R35, R41, R248, R252, R253) -/

/-- KEY_FAIL counts a refused packet of an endpoint context (R38). -/
def State.keyFailAt (s : State) (ep : Nat) : State := s.updEp ep fun x => { x with keyFail := sat16 x.keyFail }

/-- An answer leaves for the sender of a contribution. -/
def State.answerContribution (s : State) (c : Contribution) (k : AckKind) : State :=
  s.respond c.ep c.src false { dst := c.sender, answer := some k, contrib := some { c with data := [] } } []

/-- The launch that a contribution of a partition is for (R248): the one that its TYPE 1 key names, or the lowest-numbered one with a set collective of its
CID; with the group whose collective it is. -/
def State.contribFor (s : State) (c : Contribution) (named : Option Nat) : Option (Nat × Nat) :=
  let has := fun (k : Nat) (l : Launch) => if l.r.nranks = 0 then none
    else match s.steps.find? (fun (x : CollStep) => decide (x.launch = k) && decide (x.cid = c.cid)) with
      | some x => some x.group
      | none => match s.collCur.find? (fun (x : CollCur) => decide (x.launch = k) && decide (x.cid = c.cid)) with
        | some x => match s.tileHere k x.group with
          | some t => if blkField (s.blockAt t x.blk) 0x39 1 = 1 then some x.group else none
          | none => some x.group
        | none => none
  (s.launches.filter fun q => decide (q.2.part = c.part) && (match named with | some n => decide (q.2.num = n) | none => true)).findSome? fun q =>
    (has q.1 q.2).map fun g => (q.1, g)

/-- The entries of the arrived set that some contributions take: one for each rank that they cover (R252). -/
def ranksIn (cs : List Contribution) : List Nat := cs.flatMap srcsOf

/-- The bytes of a contribution that its key admits are written at its offset in the receive region (R248), as those of a packet (R43, R53): k goes on where
they can be; a group that moves, or a page that the storage engines bring, is waited for (R53). -/
def State.intoRegion (s : State) (c : Contribution) (e : KeyEntry) (k : State → State) : State :=
  match s.ethAddr c.part (s.keyTarget c.part e c.off c.data.length) c.data.length true with
  | .refuse => (s.keyFailAt c.ep).answerContribution c .nakAccess
  | .retry => s.answerContribution c .nakRetry
  | .ok ps => k (s.ethWrite c.part ps c.data c.poisoned)
  | .waits pva (.absent d) =>
    ((s.keyFailAt c.ep).answerContribution c .nakAccess).pushRec c.part
      { kind := 2, code := causePageAbsent, detail := d, addr := BitVec.ofNat 64 pva, ctx := 0xFF
        aux := BitVec.ofNat 64 (s.partAsid c.part).1, at_ := s.CYC, who := .eth }
  | .waits pva w =>
    let h : HeldPacket := { id := s.nextId, part := c.part, pva, op := 5, p := { port := c.port, ep := c.ep, msg := 0, contrib := some c } }
    (State.fresh { s with heldPackets := s.heldPackets ++ [h] }).engWait .eth h.id c.part 0 0 none pva w

/-- R251 to R253: a contribution that passed its checks is buffered in the receive region and recorded in the arrived set, discarded where a rank that it
covers is there (DEDUCED, log 65: so is a combined one for one rank), or answered with a retry. -/
def State.contribute (s : State) (c : Contribution) (e : KeyEntry) : State :=
  match s.contribFor c (if e.typ = 1 then some (bits e.base.toNat 63 48) else none) with
  | none => s.answerContribution c .ack
  | some (k, g) =>
    if s.groupMoves k g then s.answerContribution c .nakRetry
    else
      let q := { c with part := k / 65536, launch := k % 65536 }
      let here := ranksIn (s.arrived.filter fun x => decide (x.part = q.part) && decide (x.launch = q.launch) && decide (x.cid = q.cid) && decide (x.step = q.step)
        && decide (x.chunk = q.chunk))
      let step := s.steps.find? fun (x : CollStep) => decide (x.launch = k) && decide (x.cid = c.cid) && decide (x.num = c.step) && decide (x.kind ≠ 1)
      if (srcsOf q).any here.contains then s.answerContribution c .ack
      else match step.filter fun x => decide (x.expect < here.length + (srcsOf q).length) with
        | some x => (s.failStep x).answerContribution c .ack
        | none =>
          if 65536 < (ranksIn s.arrived).length + (srcsOf q).length then s.answerContribution c .nakRetry
          else s.intoRegion c e fun s => State.answerContribution { s with arrived := s.arrived ++ [q] } c .ack

/-- R33: the delivery context at this package of the flow that a contribution comes by. -/
def State.flowFrom (s : State) (c : Contribution) : Option Pdc := s.pdcs.find? fun (d : Pdc) =>
  !d.out && decide (d.ep = c.ep) && decide (d.peer = c.sender) && decide (d.peerNum = c.src) && decide (d.mode = .rud)

/-- A contribution that is authentic at its endpoint (R32, R33, R35, R41, R248): it needs RUD, a delivery context of its flow, and a key entry with the write
right. -/
def State.takeContribution (s : State) (c : Contribution) : State :=
  if !s.feature 16 then s.answerContribution c .nakAccess
  else
    let part := (s.epPart c.ep).getD 0
    if !s.partLive part then s
    else if (s.flowFrom c).isNone && decide (65536 ≤ s.pdcs.length) then s.answerContribution c .nakRetry
    else
      let d : Pdc := { id := s.nextId, out := false, ep := c.ep, peer := c.sender, peerNum := c.src, mode := .rud, rccc := bit (s.epFlags c.ep) 1 }
      let s := if (s.flowFrom c).isNone then State.fresh { s with pdcs := s.pdcs ++ [d] } else s
      let (s, e) := s.keyEntry c.ep c.key
      if e.fails c.key 1 c.off c.data.length then (s.keyFailAt c.ep).answerContribution c .nakAccess else s.contribute { c with part } e

/-- COLLECTIVE_CONTRIBUTION (R32, R34, R35, R41, R248, R252, R253): as every packet, it needs a bound context and authentication. -/
def execCollectiveContribution (c : Contribution) (s : State) : Out :=
  if !s.ethUp c.port then .next s
  else if !s.epBound c.ep then .next (s.noEp c.port)
  else if !s.authenticAt c.ep c.sealed c.kid c.icv then .next (s.authFail c.ep)
  else .next (s.takeContribution c)

/-! ## The port switch (R48, R50, R51) -/

/-- The bound endpoint context of an address. -/
def State.epOf (s : State) (dst : BitVec 128) : Option Nat := (List.range 512).find? fun n => s.epBound n && decide (s.epAddr n = dst.toNat)

/-- The enabled set port whose peer has an address (R48). -/
def State.directPort (s : State) (dst : BitVec 128) : Option Nat :=
  ((List.range 8).find? fun k => bit s.peerMask k && s.peerAddr k = dst).filter s.ethOn

/-- A packet as it leaves again, unchanged (R48). -/
def relayed (p : Packet) (port : Nat) (dst : BitVec 128) : Wire :=
  { port, dst, ev := p.ev, msg := p.msg, idx := p.idx, src := p.src, ep := p.ep, mode := p.mode, pdc := p.pdc, psn := p.psn, count := p.count, key := p.key
    off := p.off, total := p.total, tag := p.tag, aop := p.aop, operand := p.operand, compare := p.compare, relayed := true, sealed := p.sealed, kid := p.kid
    icv := p.icv, data := p.data, poison := p.poisoned, answer := p.answer, contrib := p.contrib }

/-- PACKET_RELAY (R48): a packet that came by a set port for another package of the set leaves on the port whose peer is its destination; one that was
relayed before is not relayed again. -/
def execPacketRelay (p : Packet) (dst : BitVec 128) (s : State) : Out :=
  if s.ethUp p.port = false ∨ p.relayed = true ∨ (s.epOf dst).isSome ∨ bit s.peerMask p.port = false then .next s
  else match s.directPort dst with
    | none => .next s
    | some k => .next { s with wire := s.wire ++ [relayed p k dst] }

/-- A contribution goes on (R35, R48, R51), whose port is up: to this package's hub where its destination is here, else out of the direct port of a set
member, as the packets of its chunk; NO_EP counts one for an address to which nothing is bound here. -/
def State.forward (s : State) (c : Contribution) (dst : BitVec 128) : State :=
  match s.epOf dst, s.directPort dst with
  | some _, _ =>
    if !s.epBound c.ep then s.noEp c.port
    else s.takeContribution c
  | none, some k =>
    if c.relayed then s.noEp c.port
    else
      let out := fun (i : Nat) => { port := k, dst, ev := s.pickEv c.ev c.width i, idx := i, count := packetCount c.data.length
                                    contrib := some { c with relayed := true }, ep := c.ep, key := c.key, off := c.off, relayed := true, sealed := c.sealed
                                    kid := c.kid, icv := c.icv, data := (c.data.drop (packetBytes * i)).take packetBytes, poison := c.poisoned : Wire }
      { s with wire := s.wire ++ (List.range (packetCount c.data.length)).map out }
  | none, none => s.noEp c.port

/-- Whether a contribution belongs to a combining entry. -/
def CombEntry.is (e : CombEntry) (c : Contribution) (dst : BitVec 128) : Bool :=
  decide (e.dst = dst) && decide (e.ep = c.ep) && decide (e.key = c.key) && decide (e.part = c.part) && decide (e.launch = c.launch) && decide (e.cid = c.cid) && decide (e.step = c.step)
    && decide (e.chunk = c.chunk)

/-- The contributions of an entry in ascending rank order; the result of another switch by the first rank that it covers. -/
def CombEntry.ordered (e : CombEntry) : List Contribution := (List.range 1024).flatMap fun r => e.got.filter fun c => decide ((srcsOf c).headD 0 = r)
/-- The ranks marked in an entry (R50). -/
def CombEntry.marked (e : CombEntry) : List Nat := ranksIn e.got

/-- R51: an entry closes uncombined: what it has buffered goes on in ascending rank order, and the chunk passes from then on. -/
def State.passEntry (s : State) (e : CombEntry) : State :=
  let keep := fun (x : CombEntry) => if x.id = e.id then { x with pass := true, got := x.got.map fun c => { c with data := [] } } else x
  e.ordered.foldl (fun (s : State) c => s.forward c e.dst) { s with combining := s.combining.map keep }

/-- A contribution of a chunk that passes: it goes on, and the chunk is forgotten once every contributor has passed. -/
def State.passOne (s : State) (e : CombEntry) (c : Contribution) : State :=
  let got := if (srcsOf c).all e.marked.contains then e.got else e.got ++ [{ c with data := [] }]
  let s := { s with combining :=
    if c.expect ≤ (ranksIn got).eraseDups.length then s.combining.filter fun x => decide (x.id ≠ e.id)
    else s.combining.map fun (x : CombEntry) => if x.id = e.id then { x with got } else x }
  s.forward c e.dst

/-- R50: the one result of an entry's contributions, with the set of ranks that it covers. DESIGN CHOICE (log 65): it bears the sender of the contributor
that came last, which the destination acknowledges. -/
def CombEntry.result (e : CombEntry) (c : Contribution) : Contribution :=
  let cs := e.ordered
  let (fold, fl) := foldContribs c.op c.fmt (cs.map fun q => q.data.map (·.toNat))
  { c with src := e.marked.foldl min (e.marked.headD 0), combined := true, ranks := e.marked.foldl (fun m r => m ||| 2 ^ r) 0, poisoned := cs.any (·.poisoned)
           flags := cs.foldl (fun m q => if q.combined then m ||| q.flags else m) fl, data := fold.map (BitVec.ofNat 8) }

/-- COMBINE_CONTRIBUTION (R34, R50, R51): the switch combines all of a chunk's contributions or none of them. One for this package is authentic first. DESIGN
CHOICE (log 65): a sealed one for another package, whose key the switch does not hold, passes uncombined. -/
def execCombineContribution (c : Contribution) (dst : BitVec 128) (s : State) : Out :=
  let here := (s.epOf dst).isSome
  if !s.ethUp c.port then .next s
  else if here && s.epBound c.ep && !s.authenticAt c.ep c.sealed c.kid c.icv then .next (s.authFail c.ep)
  else if !s.feature 4 || (c.sealed && !here) then .next (s.forward c dst)
  else match s.combining.find? (·.is c dst) with
  | some e =>
    if e.pass then .next (s.passOne e c)
    else if (srcsOf c).any e.marked.contains then .next (s.answerContribution c .ack)
    else
      let slots := s.combining.foldl (fun (n : Nat) (x : CombEntry) => if x.pass then n else n + x.got.length) 0
      let odd := e.got.any fun x => decide (x.op ≠ c.op) || decide (x.fmt ≠ c.fmt) || decide (x.expect ≠ c.expect)
      if odd ∨ 4096 ≤ slots then
        let s := s.passEntry e
        match s.combining.find? (fun (x : CombEntry) => decide (x.id = e.id)) with
        | some e => .next (s.passOne e c)
        | none => .next (s.forward c dst)
      else
        let e := { e with got := e.got ++ [c] }
        if e.marked.length < c.expect then .next { s with combining := s.combining.map fun (x : CombEntry) => if x.id = e.id then e else x }
        else .next (State.forward { s with combining := s.combining.filter fun x => decide (x.id ≠ e.id) } (e.result c) dst)
  | none =>
    let inUse := (s.combining.filter fun x => !x.pass).length
    let slots := s.combining.foldl (fun (n : Nat) (x : CombEntry) => if x.pass then n else n + x.got.length) 0
    let e : CombEntry := { id := s.nextId, dst, ep := c.ep, key := c.key, launch := c.launch, part := c.part, cid := c.cid, step := c.step, chunk := c.chunk, openAt := s.hub }
    if 1024 ≤ inUse ∨ 4096 ≤ slots then .next (State.passOne (State.fresh { s with combining := s.combining ++ [{ e with pass := true }] }) e c)
    else
      let e := { e with got := [c] }
      if c.expect ≤ e.marked.length then .next (s.forward (e.result c) dst) else .next (State.fresh { s with combining := s.combining ++ [e] })

/-- COMBINE_TIMEOUT (R51): 100,000 hub cycles after the entry opened. -/
def execCombineTimeout (id : Nat) (s : State) : Out :=
  match s.combining.find? (fun (x : CombEntry) => decide (x.id = id)) with
  | none => .next s
  | some e => if !e.pass ∧ e.openAt + 100000 ≤ s.hub then .next (s.passEntry e) else .next s

end Sys2Proof.Machine
end

