-- ==== Sys2Proof/Machine/Ethernet.lean ====
section
/-!
DEFINITION. Ultra Ethernet Transport at its endpoints: sending (R33, R45, R46, R49), acknowledgements (R41), and what received packets do (R32, R41,
R43, R44, R52, R53).
-/
namespace Sys2Proof.Machine

/-! ## Sending (R33, R45, R46, R48, R49) -/

/-- The message of an identifier. -/
def State.txMsg (s : State) (id : Nat) : Option TxMsg := s.tx.find? fun (m : TxMsg) => decide (m.id = id)
/-- The message replaced. -/
def State.setTx (s : State) (m : TxMsg) : State := { s with tx := s.tx.map fun (x : TxMsg) => if x.id = m.id then m else x }

/-- The feature bit of a delivery mode (R72). -/
def modeBit : Delivery → Nat
  | .rud => 16
  | .rod => 17
  | .rudi => 18
  | .uud => 19

/-- The packet delivery context of a message's flow, where there is one (R33). -/
def State.flowOf (s : State) (m : TxMsg) : Option Pdc := s.pdcs.find? fun (c : Pdc) =>
  c.out && decide (c.ep = m.ep) && decide (c.peer = m.dst) && decide (c.peerNum = m.dstEp) && decide (c.mode = m.mode)
/-- That context changed. -/
def State.setPdc (s : State) (c : Pdc) : State := { s with pdcs := s.pdcs.map fun (x : Pdc) => if x.id = c.id then c else x }

/-- DELIVERY_CONTEXT_ALLOCATE (R33): a message takes the context of its flow; a new flow takes one of the 65,536, oldest first. -/
def execDeliveryContextAllocate (msg : Nat) (s : State) : Out :=
  match s.txMsg msg with
  | none => .next s
  | some m =>
    if m.pdc.isSome then .next s
    else match s.flowOf m with
    | some c => .next (s.setTx { m with pdc := some c.id })
    | none =>
      if 65536 ≤ s.pdcs.length ∨ s.tx.any (fun x => x.pdc.isNone && decide (x.id < msg) && (s.flowOf x).isNone) = true then .next s
      else
        let c : Pdc := { id := s.nextId, ep := m.ep, peer := m.dst, peerNum := m.dstEp, mode := m.mode, rccc := bit (s.epFlags m.ep) 1 }
        .next (State.fresh { s.setTx { m with pdc := some c.id } with pdcs := s.pdcs ++ [c] })

/-- R53, R245 (log 62): whether a message reads a poisoned source that it does not carry as poison, which is a row of ROUTE. -/
def State.poisonedRow (s : State) (m : TxMsg) : Bool :=
  m.poison && match m.carries with
    | .row id => s.rmsgs.any fun (x : RouteMsg) => decide (x.id = id) && decide (x.kind = 0)
    | .chunk _ _ => false

/-- UET_MESSAGE_SEND (R32, R37, R45 to R49, R53): every packet leaves with its entropy value by its egress port, in the sequence of its delivery context; a
message with no route, or whose domain has no key to send with, or whose endpoint is not bound, or whose mode is not there, or whose source is poisoned,
fails at its initiator. -/
def execUetMessageSend (msg : Nat) (s : State) : Out :=
  match s.txMsg msg with
  | none => .next s
  | some m =>
    match (if m.sent then none else m.pdc).bind fun id => s.pdcs.find? fun (c : Pdc) => decide (c.id = id) with
    | none => .next s
    | some c =>
      let path := m.path.getD s.cabling
      let width := if m.mode = .rod then 1 else max 1 m.width
      let base := match m.carries with | .chunk _ _ => m.ev | .row _ => Config.flowHash c.id % 65536
      let psn := m.psn.getD c.next
      let w : Wire := { dst := m.dst, msg := m.id, src := s.epOwn m.ep, ep := m.dstEp, mode := m.mode, pdc := c.id, psn, key := m.key, off := m.off
                        total := m.data.length, aop := m.aop, contrib := m.contrib, poison := m.poison }
      if !s.epBound m.ep ∨ s.feature (modeBit m.mode) = false ∨ s.poisonedRow m = true ∨ (s.seal m.ep w).isNone = true then .next (s.txDone m false)
      else if (s.egress path m.dst base).isNone then .next (s.noRoute.txDone m false)
      else
        let s1 := if m.psn.isSome then s else s.setPdc { c with next := c.next + packetCount m.data.length }
        .next (State.setTx { s1 with wire := s.wire ++ s.packetsOf path m.ep base width w m.data } { m with sent := true, path := some path, psn := some psn })

/-- UET_ACKNOWLEDGEMENT (R41, R46, R53): the message completes or fails at its initiator, or goes out again; a trimmed or inferred lost packet marks its
entropy value for 16 µs. -/
def execUetAcknowledgement (msg : Nat) (kind : AckKind) (ev : Nat) (s : State) : Out :=
  match s.txMsg msg with
  | none => .next s
  | some m =>
    if !m.sent then .next s
    else
      let again := s.setTx { m with sent := false }
      match kind with
      | .ack => .next (s.txDone m true)
      | .nakAccess => .next (s.txDone m false)
      | .nakRetry => .next again
      | .trimmed =>
        if s.feature 25 then .next { again with evBad := Tbl.put s.evBad (ev % 65536) (s.hub + 16000) } else .next again
      | .lost =>
        if bit (s.epFlags m.ep) 1 then .next again else .next { again with evBad := Tbl.put s.evBad (ev % 65536) (s.hub + 16000) }

/-- EV_UNUSABLE_EXPIRE (R46). -/
def execEvUnusableExpire (ev : Nat) (s : State) : Out :=
  if s.evUsable ev then .next { s with evBad := Tbl.erase s.evBad ev } else .next s

/-! ## Receiving (R32, R35, R41 to R44, R52, R53) -/

/-- The message a packet belongs to. -/
def State.rxMsg (s : State) (p : Packet) : Option RxMsg := s.rx.find? fun (m : RxMsg) => decide (m.src = p.src) && decide (m.ep = p.ep) && decide (m.msg = p.msg)
/-- The message replaced. -/
def State.setRx (s : State) (m : RxMsg) : State := { s with rx := s.rx.map fun (x : RxMsg) => if x.id = m.id then m else x }
/-- An answer to a packet's sender. -/
def State.reply (s : State) (p : Packet) (k : AckKind) : State := s.answer p.ep p.src p.pdc p.msg p.idx k
/-- KEY_FAIL counts a refused packet (R38). -/
def State.keyFail (s : State) (p : Packet) : State := (s.keyFailAt p.ep).reply p .nakAccess

/-- The packet delivery context of a received packet's flow (R33). -/
def State.flowIn (s : State) (p : Packet) : Option Pdc := s.pdcs.find? fun (c : Pdc) =>
  !c.out && decide (c.ep = p.ep) && decide (c.peer = p.src) && decide (c.peerNum = p.pdc)
/-- The context takes a packet: under ROD the next in sequence follows (R43). -/
def State.sequenced (s : State) (p : Packet) : State := match s.flowIn p with | some c => s.setPdc { c with next := max c.next (p.psn + 1) } | none => s
/-- R43: whether a packet of ROD comes before its turn in the sequence of its delivery context (log 37). -/
def early (c : Pdc) (p : Packet) : Bool := decide (c.mode = .rod) && decide (c.next < p.psn)

/-- A packet of a message is over: the message has it; once all its packets have come it ends, in error where one was refused (R41). DESIGN CHOICE (log 66):
the send that an armed entry matched is spent, and fires nothing, where its message fails. -/
def State.packetIn (s : State) (p : Packet) (ok : Bool) : State :=
  match s.rxMsg p with
  | none => s
  | some m =>
    let m := { m with got := m.got ++ [p.idx], refused := if ok then m.refused else m.refused ++ [p.idx]
                      bytes := m.bytes + (if ok then p.data.length else 0), bad := m.bad || !ok }
    let finished := m.bad && decide (m.count ≤ m.got.length)
    let s := if finished then s.unmatchRx m else s
    let s := (s.setRx { m with done := m.done || finished }).sequenced p
    if ok then s.reply p .ack else s

/-- R41: a refused packet. -/
def State.refuse (s : State) (p : Packet) : State := (s.keyFail p).packetIn p false

/-- The first steps with every received packet (R33 to R35, R41, R43, R44): its endpoint context is bound, it is authentic, its mode was negotiated, its flow
has a delivery context or takes one, it is not one that the context already has, and under ROD its turn has come. k goes on with the partition and the
message. kind is what a message that begins with it is. -/
def State.receive (s : State) (p : Packet) (kind : Nat) (k : State → Nat → RxMsg → State) : State :=
  if !s.epBound p.ep then s.noEp p.port
  else if !s.authentic p then s.authFail p.ep
  else if !s.feature (modeBit p.mode) then s.reply p .nakAccess
  else
    let part := (s.epPart p.ep).getD 0
    if !s.partLive part then s
    else
      let new : Pdc := { id := s.nextId, out := false, ep := p.ep, peer := p.src, peerNum := p.pdc, mode := p.mode, rccc := bit (s.epFlags p.ep) 1 }
      let c := (s.flowIn p).getD new
      if (s.flowIn p).isNone && decide (65536 ≤ s.pdcs.length) then s.reply p .nakRetry
      else
        let s := if (s.flowIn p).isNone then State.fresh { s with pdcs := s.pdcs ++ [new] } else s
        match s.rxMsg p with
        | some m =>
          if m.refused.contains p.idx then s.reply p .nakAccess
          else if m.got.contains p.idx || m.done then s.reply p .ack
          else if early c p then s.reply p .nakRetry
          else if m.reread then
            let (s, e) := s.keyEntry p.ep p.key
            let m := { m with reread := false, key := e }
            k (s.setRx m) part m
          else k s part m
        | none =>
          if early c p then s.reply p .nakRetry else
          let (s, e) := if kind = 3 then (s, ({} : KeyEntry)) else s.keyEntry p.ep p.key
          let m : RxMsg := { id := s.nextId, src := p.src, ep := p.ep, pdc := p.pdc, msg := p.msg, kind, count := p.count, key := e }
          k (State.fresh { s with rx := s.rx ++ [m] }) part m

/-- Packets held in the hub for a port (R53: at most 256). -/
def State.heldOf (s : State) (port : Nat) : Nat := (s.heldPackets.filter fun (h : HeldPacket) => decide (h.p.port = port)).length
/-- Whether a port takes packets now: its link is up, and the ingress is not held for the packets it has in the hub (R28, R53). -/
def State.takes (s : State) (port : Nat) : Bool := s.ethUp port && decide (s.heldOf port < 256)

/-- R53: a packet meets a page that is not present, or a MIG page that it would write. For a storage-backed or MIG page it is held and the page serviced; for a
driver-managed page it is refused, with a replayable record. op says what the packet is. -/
def State.holdPacket (s : State) (p : Packet) (op part pva : Nat) (w : Walk) : State :=
  match w with
  | .absent d =>
    (s.refuse p).pushRec part { kind := 2, code := causePageAbsent, detail := d, addr := BitVec.ofNat 64 pva, ctx := 0xFF
                                aux := BitVec.ofNat 64 (s.partAsid part).1, at_ := s.CYC, who := .eth }
  | _ =>
    let h : HeldPacket := { id := s.nextId, part, pva, op, p }
    (State.fresh { s with heldPackets := s.heldPackets ++ [h] }).engWait .eth h.id part 0 0 none pva w

/-- A packet placed at a target, or answered as R41 and R53 say. op says what it is. -/
def State.place (s : State) (p : Packet) (op part : Nat) (t : Target) : State :=
  match s.ethAddr part t p.data.length true with
  | .refuse => s.refuse p
  | .retry => s.reply p .nakRetry
  | .waits pva w => s.holdPacket p op part pva w
  | .ok ps => (s.ethWrite part ps p.data p.poisoned).packetIn p true

/-- The group that the roles of a row name, and the index of no group, where they are not bound (R91, R235). -/
def rowGroup (l : Launch) (roles : Nat) : Option Nat := l.roleGroup (bits roles 14 13) (bits roles 12 6) (bits roles 5 0)
def noGroup : Nat := 4096
/-- R53, R245: whether a row for this package is refused for the time being: the group that its key or its roles name migrates. -/
def State.rowAway (s : State) (part : Nat) (m : RxMsg) (roles : Nat) : Bool :=
  match s.keyLaunch part m.key with
  | some (k, l) => s.keyTarget part m.key 0 0 = .away || (match rowGroup l roles with | some g => s.groupMoves k g | none => false)
  | none => false

/-- R235, R240 to R242: a route message for this package, from the bytes of its packets: the header's 16 bytes, then its vectors. roles says where a row
goes. -/
def State.routeIn (s : State) (part : Nat) (m : RxMsg) (kind roles : Nat) : State :=
  match s.keyLaunch part m.key with
  | none => s
  | some (k, l) =>
    let ps := (List.range m.count).filterMap fun i => (m.body.find? fun (b : Nat × List Byte × Bool) => decide (b.1 = i)).map (·.2)
    let bytes := ps.flatMap (·.1)
    let bad := ps.any (·.2)
    let h := bytesNum ((bytes.take 16).map (·.toNat))
    let wvec := bits h 95 80
    let data := if kind = 2 then [] else (List.range wvec).map fun i => (toVec (bytesNum (((bytes.drop (16 + 64 * i)).take 64).map (·.toNat))), bad)
    let launch := bits h 31 16
    let group := bits h 43 32
    let dkey := if kind = 0 then k else part * 65536 + launch
    let dgroup := if kind = 0 then (rowGroup l roles).getD noGroup else group
    State.fresh { s with rmsgs := s.rmsgs ++ [{ id := s.nextId, kind, part, dkey, dgroup, roles, orank := bits h 15 0, launch, group
                                                entry := bits h 51 48, gen := bits h 63 56, rs := bits h 69 64, tgt := bits h 79 72, wvec
                                                weight := BitVec.ofNat 32 (bits h 127 96), data }] }

/-- A write, or a route message carried as one (log 15: aop 16 a row, 17 a return, 18 a drop notice). DESIGN CHOICE (log 67): a route message moves no arrival
counter. -/
def State.writePacket (s : State) (p : Packet) : State :=
  s.receive p 0 fun s part m =>
    if 16 ≤ p.aop then
      if m.key.fails p.key 1 0 0 || m.key.typ ≠ 1 then s.refuse p
      else match s.keyLaunch part m.key with
        | none => s.packetIn p true
        | some _ =>
          if p.aop = 16 && s.rowAway part m p.off then s.reply p .nakRetry else
          let s := s.setRx { m with body := m.body ++ [(p.idx, p.data, p.poisoned)] }
          let s := s.packetIn p true
          match s.rxMsg p with
          | some m => if m.count ≤ m.got.length ∧ m.done = false then (s.setRx { m with done := true, body := [] }).routeIn part m (p.aop - 16) p.off else s
          | none => s
    else if m.key.fails p.key 1 p.off p.data.length then s.refuse p
    else s.place p 0 part (s.keyTarget part m.key p.off p.data.length)

/-- UET_WRITE_PACKET (R41, R43, R53). -/
def execUetWritePacket (p : Packet) (s : State) : Out := if s.takes p.port then .next (s.writePacket p) else .next s

/-- A read request: its data leave for the reader; poisoned data are not sent (R53). -/
def State.readPacket (s : State) (p : Packet) : State :=
  s.receive p 1 fun s part m =>
    if m.key.fails p.key 0 p.off p.total then s.refuse p
    else match s.ethAddr part (s.keyTarget part m.key p.off p.total) p.total false with
      | .refuse => s.refuse p
      | .retry => s.reply p .nakRetry
      | .waits pva w => s.holdPacket p 1 part pva w
      | .ok ps =>
        let (s, data, bad) := s.ethRead part ps
        if bad then (s.reply p .nakAccess).packetIn p false
        else
          let s := s.packetIn p true
          let s := match s.rxMsg p with | some m => s.setRx { m with done := true } | none => s
          s.respond p.ep p.pdc (p.mode = .rod) { dst := p.src, msg := p.msg, idx := p.idx, mode := p.mode } data

/-- UET_READ_PACKET (R32, R41). -/
def execUetReadPacket (p : Packet) (s : State) : Out := if s.takes p.port then .next (s.readPacket p) else .next s

/-- A packet of a send: into the buffer that a tagged send matched, or into the buffer that its key names, which takes the write right (DESIGN CHOICE, log 67:
the spec does not say to which buffer a plain send is matched). A message that matched nothing is dropped and
acknowledged as delivered (R52). -/
def State.sendPacket (s : State) (p : Packet) (op : Nat) : State :=
  s.receive p 2 fun s part m =>
    if m.kind = 9 then s.packetIn p true
    else if m.kind = 8 then s.refuse p
    else match m.armed with
      | some a => if a.len < p.off + p.data.length then s.refuse p else s.place p op part (.mem (m.buf + p.off))
      | none =>
        if m.key.fails p.key (if m.kind = 3 then 3 else 1) p.off p.data.length then s.refuse p
        else s.place p op part (s.keyTarget part m.key p.off p.data.length)

/-- UET_SEND_PACKET (R43). -/
def execUetSendPacket (p : Packet) (s : State) : Out := if s.takes p.port then .next (s.sendPacket p 2) else .next s

/-- The armed entry that a tagged send matches (R52). -/
def State.armedFor (s : State) (part ep : Nat) (tag : Word) : Option Armed :=
  s.armed.find? fun (a : Armed) => decide (a.part = part) && decide (a.ep = ep) && decide (a.tag = tag) && decide (a.count ≠ 0) && !a.retiring

/-- The matching of a tagged send by its first packet (R52): an armed entry, else a posted receive, which is a key entry with the tagged-buffer right (log
16), else nothing. -/
def State.tagged (s : State) (p : Packet) : State :=
  if (s.rxMsg p).isSome then s.sendPacket p 3
  else s.receive p 3 fun s part m =>
    match (if s.feature 7 then s.armedFor part p.ep p.tag else none) with
    | some a =>
      if a.len < p.total ∨ a.len < p.off + p.data.length then (s.setRx { m with kind := 8 }).refuse p
      else
        let take := fun (x : Armed) => if x.id = a.id then { x with count := x.count - 1, inflight := x.inflight + 1 } else x
        let s := State.setRx { s with armed := s.armed.map take } { m with armed := some a, buf := a.buf.toNat }
        s.place p 3 part (.mem (a.buf.toNat + p.off))
    | none =>
      let (s, e) := s.keyEntry p.ep p.key
      if e.limit ≠ 0 ∧ bit e.rights 3 = true then
        let s := s.setRx { m with key := e }
        if e.fails p.key 3 p.off p.data.length then s.refuse p else s.place p 3 part (s.keyTarget part e p.off p.data.length)
      else ((s.setRx { m with kind := 9 }).updEp p.ep fun x => { x with tagDrop := sat16 x.tagDrop }).packetIn p true

/-- UET_TAGGED_SEND (R52). -/
def execUetTaggedSend (p : Packet) (s : State) : Out := if s.takes p.port then .next (s.tagged p) else .next s

/-- A 64-bit atomic on an integer (R32): the operations of R350 by aop 0 to 7, performed as one write at the home and answered with the old value. DESIGN
CHOICE (log 67): one at a misaligned address or with another operation is refused as R41 refuses a packet, and CNT_MODE 2 counts the bytes of the packet's
data. -/
def State.atomicPacket (s : State) (p : Packet) : State :=
  s.receive p 4 fun s part m =>
    if !s.feature 26 || m.key.fails p.key 2 p.off 8 || decide (7 < p.aop) then s.refuse p
    else match s.ethAddr part (s.keyTarget part m.key p.off 8) 8 true with
      | .refuse => s.refuse p
      | .retry => s.reply p .nakRetry
      | .waits pva w => s.holdPacket p 4 part pva w
      | .ok [(pa, _, e)] =>
        if pa % 8 ≠ 0 then s.refuse p
        else
          let (s, old, bad) := s.engRead part e pa 8
          let s := if bad then s else s.engineWrite part e pa 8 (amoNew p.aop 8 0 old p.operand.toNat p.compare.toNat).1 0 false
          (s.packetIn p true).respond p.ep p.pdc (p.mode = .rod) { dst := p.src, msg := p.msg, idx := p.idx, mode := p.mode, poison := bad } (natBytes old 8)
      | .ok _ => s.refuse p

/-- UET_ATOMIC_PACKET (R32, R41). -/
def execUetAtomicPacket (p : Packet) (s : State) : Out := if s.takes p.port then .next (s.atomicPacket p) else .next s

/-- ETH_HELD_PLACEMENT (R53): the page has been serviced, and the packet is placed; where its service ended in error it is refused. -/
def execEthHeldPlacement (id : Nat) (s : State) : Out :=
  match s.heldPackets.find? (fun (h : HeldPacket) => decide (h.id = id)) with
  | none => .next s
  | some h =>
    if s.waitsFor h.part .eth id then .next s
    else
      let s := { s with heldPackets := s.heldPackets.filter fun (x : HeldPacket) => decide (x.id ≠ id) }
      if h.failed then .next (match h.p.contrib with | some c => (s.keyFailAt c.ep).answerContribution c .nakAccess | none => s.refuse h.p)
      else match h.op with
        | 0 => .next (s.writePacket h.p)
        | 1 => .next (s.readPacket h.p)
        | 4 => .next (s.atomicPacket h.p)
        | 5 => .next (match h.p.contrib with | some c => s.takeContribution c | none => s)
        | op => .next (s.sendPacket h.p op)

/-! ## The end of a message (R44, R52, R78, R102) -/

/-- R52, R78, R94, R102: an armed entry's launch fires with the buffer address as argument 0, and takes its place by its class; one that could never be
placed writes its record at once. -/
def State.fire (s : State) (a : Armed) : State :=
  let here := s.armed.any fun (x : Armed) => decide (x.id = a.id)
  let s := s.unmatch a.id
  let done := fun (s : State) (status : Nat) =>
    s.complete a.vf { win := a.win, seq := a.seq, op := 2, flags := a.flags, status, holds := false }
  if !here then s
  else if !s.handlesOk a.part a.handles then done s 3
  else if (s.chooseTiles a.part a.r fun _ => true).isNone then done s 5
  else
    let uid := s.nextId
    let (s, deps) := s.fresh.takeHandles a.part uid a.handles
    let l : Launch := { part := a.part, num := 0, r := { a.r with arg0 := a.buf }, handles := a.handles, ranks := a.ranks
                        fired := some (a.vf, a.win, a.seq, a.flags), uid, deps, acceptedAt := s.CYC }
    (s.addLaunch l).1

/-- ARRIVAL_COUNTER_ADD (R44, R52): every byte of a message has been applied: its counter rises by one atomic add, and the launch that it matched fires. A
counter that cannot be written is left as it is. -/
def execArrivalCounterAdd (id : Nat) (s : State) : Out :=
  match s.rx.find? (fun (m : RxMsg) => decide (m.id = id)) with
  | none => .next s
  | some m =>
    if m.done ∨ m.bad ∨ m.got.length < m.count then .next s
    else
      let s1 := s.setRx { m with done := true }
      let fired := match m.armed with | some a => (s1.fire a).armRetired | none => s1
      if m.key.cntMode = 0 ∨ 2 < m.key.cntMode ∨ m.armed.isSome then .next fired
      else
        let part := (s.epPart m.ep).getD 0
        if m.key.cntAddr.toNat % 8 ≠ 0 then .next s1
        else match s.engAddr part 0 none m.key.cntAddr.toNat 8 true true true with
          | .ok pa e =>
            let (s, old, bad) := s1.engRead part e pa 8
            if bad then .next s else .next (s.engineWrite part e pa 8 (old + if m.key.cntMode = 1 then 1 else m.bytes) 0 false)
          | .fail _ => .next s1
          | .waits pva w => .next (s.engWait .eth id part 0 0 none pva w)

end Sys2Proof.Machine
end

