-- ==== Sys2Proof/Machine/Ports.lean ====
section
/-!
DEFINITION. The CXL memory ports (R54 to R58), and the driver queues and namespaces of the storage ports (R59 to R62).
-/
namespace Sys2Proof.Machine

/-! ## Memory ranges (R55, R58) -/

/-- MRT_CTL of an entry with its flags EN, BUSY, ERR and OFFLINE. -/
def State.setMrt (s : State) (k : Nat) (en busy err off : Bool) : State :=
  let v := (s.pfr (0x4018 + 32 * k)).toNat
  s.setPf (0x4018 + 32 * k) (BitVec.ofNat 64 (bits v 63 52 * 2 ^ 52 + b2n en + 2 * b2n busy + 4 * b2n err + 8 * b2n off))
/-- Whether a range is OFFLINE. -/
def State.mrtOffline (s : State) (k : Nat) : Bool := bit (s.pfr (0x4018 + 32 * k)).toNat 3

/-- R55: whether an entry may be enabled. DESIGN CHOICE (log 56): a PORTS mask of another number of ports than 1, 2, 4 or 8 is refused. -/
def State.mrtGood (s : State) (k : Nat) : Bool :=
  let base := s.mrtBase k
  let size := s.mrtSize k
  let others := (List.range 64).filter fun j => j ≠ k && s.mrtOn j
  decide (Config.cxlBase ≤ base) && decide (base + size ≤ 0x1100000000000)
    && others.all (fun j => decide (base + size ≤ s.mrtBase j) || decide (s.mrtBase j + s.mrtSize j ≤ base))
    && decide (others.foldl (fun n j => n + s.mrtSize j) size ≤ 2 ^ 44) && [1, 2, 4, 8].contains (s.mrtPorts k).length

/-- MRT_ENABLE (R55): a range over a port that is down begins OFFLINE. DESIGN CHOICE (log 56): a write that sets EN while a disable is in progress (BUSY) is
ignored, and a range that begins OFFLINE raises no vector and writes no record (log 39). -/
def execMrtEnable (entry : Nat) (s : State) : Out :=
  if s.mrtOn entry then .next s
  else if s.mrtGood entry then .next (s.setMrt entry true false false ((s.mrtPorts entry).any (bit s.cxlDown)))
  else .next (s.setMrt entry false false true (s.mrtOffline entry))

/-- MRT_DISABLE (R58): the range is served until its dirty lines are written back. -/
def execMrtDisable (entry : Nat) (s : State) : Out :=
  if bit (s.pfr (0x4018 + 32 * entry)).toNat 0 then .next (s.setMrt entry false true false (s.mrtOffline entry)) else .next s

/-- MRT_DISABLE_COMPLETE (R58): the dirty lines of the range are in memory, no copy of its lines is left, and BUSY clears. -/
def execMrtDisableComplete (entry : Nat) (s : State) : Out :=
  if !bit (s.pfr (0x4018 + 32 * entry)).toNat 1 then .next s
  else
    let inside := fun (pa : Nat) => decide (s.mrtBase entry ≤ pa) && decide (pa < s.mrtBase entry + s.mrtSize entry)
    let lines := (s.tiles.flatMap fun (t, v) => v.parts.map fun q => (t, q.1)).filter fun l => inside (64 * l.2)
    let p := s.mrtPart entry
    let s := lines.foldl (fun (s : State) l => s.gather p (s.tenantOf l.1 p) l.2) s
    let s := s.writeBack fun pa _ => inside pa
    let s := { s with tiles := Tbl.mapV (fun _ (v : Tile) => { v with l1 := v.l1.filter fun c => !inside (64 * c.1) }) s.tiles }
    .next (s.setMrt entry false false false (s.mrtOffline entry))

/-- CXL_LINK_DOWN (R58, R71): every range that uses the port goes OFFLINE, with PF vector 2 and a non-fatal record to each owning partition; no L1 copy
answers for it. DESIGN CHOICE (log 39): AUX of the record is the number of the port. -/
def execCxlLinkDown (port : Nat) (s : State) : Out :=
  if bit s.cxlDown port then .next s
  else
    let hit := (List.range 64).filter fun k => s.mrtOn k && (s.mrtPorts k).contains port
    let parts := (hit.map s.mrtPart).eraseDups
    let fresh := hit.any fun k => !s.mrtOffline k
    let s := { s with cxlDown := s.cxlDown + 2 ^ port }
    let s := hit.foldl (fun (s : State) k =>
      let v := (s.pfr (0x4018 + 32 * k)).toNat
      s.setMrt k (bit v 0) (bit v 1) (bit v 2) true) s
    let s := { s with tiles := Tbl.mapV (fun _ (v : Tile) => { v with l1 := v.l1.filter fun c => !s.offline (64 * c.1) }) s.tiles }
    let s := if fresh then s.raise 0 2 else s
    .next (parts.foldl (fun (s : State) p => s.pushRec p { kind := 3, code := 68, at_ := s.CYC, aux := BitVec.ofNat 64 port }) s)

/-! ## Driver queues (R60, R61) -/

/-- The key of driver queue 49 + q of an SSD, and the queue. -/
def dqKey (ssd q : Nat) : Nat := 16 * ssd + q
def State.dq (s : State) (ssd q : Nat) : DriverQ := Tbl.getD s.driverQs (dqKey ssd q) {}
/-- The queue changed. -/
def State.updDq (s : State) (ssd q : Nat) (f : DriverQ → DriverQ) : State :=
  { s with driverQs := Tbl.put s.driverQs (dqKey ssd q) (f (s.dq ssd q)) }
/-- Where the registers of a driver queue lie (R61). -/
def dqOff (ssd q : Nat) : Nat := 0x70000 + 0x1000 * ssd + 0x100 * q

/-- An NVMe completion entry (R61): the submission queue with its head, the command identifier, the phase tag and the status. -/
def cqEntry (q head cid status phase : Nat) : Nat := head * 2 ^ 64 + (49 + q) * 2 ^ 80 + cid * 2 ^ 96 + phase * 2 ^ 112 + status % 2 ^ 15 * 2 ^ 113

/-- The NVMe commands of R60: Flush, Write, Read, Dataset Management. -/
def nvmeOp (op : Nat) : Bool := [0, 1, 2, 9].contains op
/-- R60, R61: the oldest entry with an opcode outside the command set completes with Invalid Command Opcode, where the completion queue's 1,024 entries
have room. -/
def DriverQ.reject (d : DriverQ) : DriverQ :=
  match d.subs.findIdx? fun e => !nvmeOp (e.toNat % 256) with
  | none => d
  | some i => if 1024 ≤ d.comps.length then d else { d with subs := d.subs.eraseIdx i, comps := d.comps ++ [(d.subs.getD i 0, 1)] }

/-- R61: completions are written as the ring has room, in order, with the submission head after each; a cleared EN takes effect once nothing is left. k
bounds them. -/
def State.drainDq (s : State) (ssd q : Nat) : Nat → State
  | 0 => s
  | k + 1 =>
    let s := s.updDq ssd q DriverQ.reject
    let d := s.dq ssd q
    match d.comps with
    | [] => if d.off && d.subs.isEmpty then s.updDq ssd q fun d => { d with en := false, off := false } else s
    | (sub, status) :: rest =>
      let consumed := (s.pfr (dqOff ssd q + 0x48)).toNat % 1024
      if (d.tail + 1) % 1024 = consumed then s
      else
        let e := cqEntry q ((d.tail + 1) % 1024) (bits sub.toNat 31 16) status ((d.passes + 1) % 2)
        let base := bits (s.pfr (dqOff ssd q + 0x40)).toNat 51 14 * 16384
        let s := s.pokeRaw (Config.hostBase + base + 16 * d.tail) e 16
        let s := s.updDq ssd q fun d => { d with comps := rest, tail := (d.tail + 1) % 1024, passes := if d.tail = 1023 then d.passes + 1 else d.passes }
        let s := if d.irq then s.raise 0 (192 + ssd) else s
        s.drainDq ssd q k

/-- DRIVER_QUEUE_SUBMIT (R61): one submission entry, or a discarded write. An opcode outside the command set completes with Invalid Command Opcode. -/
def execDriverQueueSubmit (ssd q : Nat) (aligned : Bool) (data : List Byte) (s : State) : Out :=
  let d := s.dq ssd q
  if !aligned || data.length ≠ 64 || decide (1024 ≤ d.subs.length) || !d.en then .next (s.updDq ssd q fun d => { d with discards := sat16 d.discards })
  else
    let e := toVec (bytesNum (data.map (·.toNat)))
    let s := s.updDq ssd q fun d => { d with subs := d.subs ++ [e] }
    if nvmeOp (e.toNat % 256) then .next s else .next (s.drainDq ssd q (d.comps.length + 2))

/-- Bytes of one line that an SSD's DMA puts into memory (R61): no cached copy of the line stays, and 64 of them clear its poison (R265). -/
def State.dmaLine (s : State) (line : Nat) (cells : List Host.Cell) : State :=
  let s := s.evict line
  if (cells.map (·.1)).eraseDups.length = 64 then
    s.applyWrite 0 0 (64 * line) 64 (cells.foldl (fun v c => spliceVec v (c.1 % 64) c.2.toNat 1) (0 : Vec)).toNat none false true
  else cells.foldl (fun (s : State) c => s.applyWrite 0 0 c.1 1 c.2.toNat none false true) s

/-- DRIVER_QUEUE_COMPLETION (R61): the SSD, where there is one (R59), completes its command number idx with an NVMe status; data are the bytes, by physical
address, that a Read put into memory. With 1,024 completions not yet written the SSD waits (R60). DESIGN CHOICE (log 55): the submission entry is free from here
on. -/
def execDriverQueueCompletion (ssd q idx status : Nat) (data : List Host.Cell) (s : State) : Out :=
  let d := s.dq ssd q
  match (if s.ssdThere ssd && decide (d.comps.length < 1024) then d.subs[idx]? else none) with
  | none => .next s
  | some e =>
    let s := if e.toNat % 256 = 2 ∧ status = 0 then
        (data.map (·.1 / 64)).eraseDups.foldl (fun (s : State) l => s.dmaLine l (data.filter fun c => decide (c.1 / 64 = l))) s
      else s
    let s := s.updDq ssd q fun d => { d with subs := d.subs.eraseIdx idx, comps := d.comps ++ [(e, status)] }
    .next (s.drainDq ssd q (d.comps.length + 2))

/-- DQ_CTL_WRITE (R61): clearing EN with commands outstanding waits for their completions. -/
def execDqCtlWrite (ssd q : Nat) (v : Word) (s : State) : Out :=
  let w := v.toNat
  let s := s.updDq ssd q fun d => { d with irq := bit w 1, discards := if bit w 2 then 0 else d.discards, en := d.en || bit w 0, off := d.en && !bit w 0 }
  .next (s.drainDq ssd q ((s.dq ssd q).comps.length + 1))

/-- DQ_CLEAR_DISCARDS (R61). -/
def execDqClearDiscards (ssd q : Nat) (s : State) : Out := .next (s.updDq ssd q fun d => { d with discards := 0 })

/-- DQ_CQ_HEAD_WRITE (R61): ring room frees. -/
def execDqCqHeadWrite (ssd q : Nat) (v : Word) (s : State) : Out :=
  let s := s.setPf (dqOff ssd q + 0x48) (BitVec.ofNat 64 (v.toNat % 1024))
  .next (s.drainDq ssd q ((s.dq ssd q).comps.length + 1))

/-- NAMESPACE_ENTRY_WRITE (R62): an entry is written only while VALID is clear; while it is set, a write changes VALID alone. -/
def execNamespaceEntryWrite (entry : Nat) (v : BitVec 128) (s : State) : Out :=
  let off := 0x5000 + 16 * entry
  let old := (s.pfr off).toNat
  let n := v.toNat
  if bit old 0 then .next (s.setPf off (BitVec.ofNat 64 (old - 1 + n % 2)))
  else .next ((s.setPf off (BitVec.ofNat 64 (bits n 63 18 * 2 ^ 18 + n % 2))).setPf (off + 8) (BitVec.ofNat 64 (n / 2 ^ 64)))

end Sys2Proof.Machine
end

