-- ==== Sys2Proof/Machine/HostPort.lean ====
section
/-!
DEFINITION. The host port: the partition table (R69), features (R72), the trap queue and ring registers that a write starts (R84, R86), window B (R68), and
function level reset (R86).
-/
namespace Sys2Proof.Machine

/-- READY of a partition's VF (R70, R72). -/
def State.ready (s : State) (p : Nat) : Bool := s.boot.accepted && (s.part p).enabled

/-- FEATURE_ACCEPT (R72): the first complete write after phase 3 is reached takes effect. -/
def execFeatureAccept (v : BitVec 256) (s : State) : Out :=
  if s.boot.phase ≠ 3 ∨ s.boot.accepted = true then .next s
  else .next { s with feats := s.boot.offer &&& v.toNat, boot := { s.boot with accepted := true } }

/-- The PT_CTL register of a partition (R69). -/
def ptCtl (part : Nat) : Nat := 0x8040 + 128 * part

/-- Whether the enabling of a partition is refused (R69). -/
def State.enableBad (s : State) (p : Nat) : Bool :=
  let others := (List.range 64).filter fun q => q ≠ p && (s.part q).enabled
  decide (4 < s.vault p) || (List.range 512).any fun n => s.partHas p n && (bit s.boot.sliceHarv n || bit s.gated n || others.any fun q => s.partHas q n)

/-- PARTITION_ENABLE (R69, R97, R167, R199, R263): a partition begins with its home list dealt out, the stamps of its vault parts 0, virtual times of 0,
no launch and no halt. -/
def execPartitionEnable (part : Nat) (s : State) : Out :=
  let w := (s.pfr (ptCtl part)).toNat
  if bit w 0 then .next s
  else if s.enableBad part then .next (s.setPf (ptCtl part) (BitVec.ofNat 64 (bits w 4 2 * 4 + 2)))
  else
    let s := s.setPf (ptCtl part) (BitVec.ofNat 64 (bits w 4 2 * 4 + 1))
    let s := { s with mem := { s.mem with stamps := s.mem.stamps.filter fun q => !(isVault (64 * q.1) && s.owns part (64 * q.1) 64) } }
    .next (s.updPart part fun q => { enabled := true, nextNum := q.nextNum, homes := s.homeList part })

/-- PARTITION_DISABLE (R69, R263): clearing EN halts the partition with REASON 4. -/
def execPartitionDisable (part : Nat) (s : State) : Out :=
  let w := (s.pfr (ptCtl part)).toNat
  if !bit w 0 then .next s
  else .next ((s.setPf (ptCtl part) (BitVec.ofNat 64 (bits w 4 2 * 4))).haltPart part 0 4 0xFFFF |>.updPart part fun q => { q with enabled := false })

/-- CQ_HEAD_WRITE (R84): the ring has room again. -/
def execCqHeadWrite (vf : Nat) (v : Word) (s : State) : Out :=
  if !s.vfOn then .next s
  else .next ((s.setVf vf 0x58 (BitVec.ofNat 64 (v.toNat % 2 ^ 32))).flushRing vf (Tbl.getD s.rings vf []).length)

/-- WINDOW_ABORT (R86): commands not yet started complete ABORTED, and a WAITV in progress with them. -/
def execWindowAbort (vf : Nat) (v : Word) (s : State) : Out :=
  if !s.vfOn then .next s
  else .next (((List.range 16).filter (bit v.toNat)).foldl (fun (s : State) w =>
    let x := s.window vf w
    let s := match x.run with | some r => if r.cmd.op = 6 then s.completeCmd vf w 12 0 else s | none => s
    let s := s.updWindow vf w fun x => { x with q := [] }
    x.q.foldl (fun (s : State) c => s.endCmd vf w c none 12 0 false) s) s)

/-- FUNCTION_LEVEL_RESET (R86): a halt without records; handles, armed entries, completion-ring registers and windows are as at reset. -/
def execFunctionLevelReset (vf : Nat) (s : State) : Out :=
  if !s.vfOn then .next s else
  let p := vf - 1
  let ctl := s.vfReg vf 0x48
  let s := s.setVf vf 0x48 (ctl &&& 0x1F)
  let s := s.haltPart p 0 0 0xFFFF
  let s := { s with
    handles := s.handles.filter fun h => decide (h.1 / 65536 ≠ p)
    armed := s.armed.filter fun a => decide (a.part ≠ p)
    windows := s.windows.filter fun w => decide (w.1 / 16 ≠ vf)
    rings := Tbl.erase s.rings vf
    vfr := s.vfr.filter fun r => !(decide (vf * 0x10000 + 0x40 ≤ r.1) && decide (r.1 < vf * 0x10000 + 0x60)) }
  .next s

/-! ## Window B (R68) -/

/-- A window B access fails: WB_FAULT, and a non-fatal record (R68). -/
def State.wbFault (s : State) (vf pva : Nat) : State :=
  (s.setVf vf 0 (s.vfReg vf 0 ||| 4)).pushRec (vf - 1) { kind := 3, code := 69, addr := BitVec.ofNat 64 pva, at_ := s.CYC }

/-- The translation of a window B access, with the right asked for: through the tables of WB_ASID, and never a wait. -/
def State.wbAddr (s : State) (vf pva : Nat) (write : Bool) : Option (Nat × Xlat) :=
  match s.walk (s.engAsid ((s.vfReg vf 0x70).toNat % 8192)) (vf - 1) pva true with
  | .page e => if (if write then e.w && !e.mig else e.r) then some (e.pa pva, e) else none
  | _ => none

/-- PVA of offset off of window B. -/
def State.wbPva (s : State) (vf off : Nat) : Nat := bits (s.vfReg vf 0x68).toNat 51 34 * 2 ^ 34 + off

/-- The lines of a window B access, and the first PVA of one that fails. -/
def State.wbLines (s : State) (vf off n : Nat) (write : Bool) : List (Nat × Nat) × Option Nat :=
  let ps := linePieces (n + 1) (s.wbPva vf off) n
  (ps, (ps.find? fun q => (s.wbAddr vf q.1 write).isNone).map (·.1))

/-- WINDOW_B_READ (R67, R68): the bytes of the 16 GiB aperture, read at their homes, or, where the access fails, all ones with WB_FAULT. -/
def execWindowBRead (vf off len : Nat) (s : State) : Out :=
  if s.vfOn = false ∨ 2 ^ 34 < off + len then .next s
  else match s.wbLines vf off len false with
  | (_, some pva) => .next { s.wbFault vf pva with reads := s.reads ++ [List.replicate len 0xFF] }
  | (ps, none) =>
    let r := ps.foldl (fun (acc : State × List Byte) q => match acc.1.wbAddr vf q.1 false with
      | some (pa, e) =>
        let (s, v, _) := acc.1.engRead (vf - 1) (some e) pa q.2
        (s, acc.2 ++ natBytes v q.2)
      | none => acc) (s, [])
    .next { r.1 with reads := r.1.reads ++ [r.2] }

/-- WINDOW_B_WRITE (R67, R68): the bytes are stored at their homes, with stamp 0 into stamped memory, or, where the access fails, discarded with WB_FAULT. -/
def execWindowBWrite (vf off : Nat) (data : List Byte) (s : State) : Out :=
  if s.vfOn = false ∨ 2 ^ 34 < off + data.length then .next s
  else match s.wbLines vf off data.length true with
  | (_, some pva) => .next (s.wbFault vf pva)
  | (ps, none) =>
    .next (ps.foldl (fun (acc : State × List Byte) q =>
      (match acc.1.wbAddr vf q.1 true with
        | some (pa, e) => acc.1.engineWrite (vf - 1) (some e) pa q.2 (bytesNum ((acc.2.take q.2).map (·.toNat))) 0 false
        | none => acc.1, acc.2.drop q.2)) (s, data)).1

end Sys2Proof.Machine
end

