-- ==== Sys2Proof/Machine/Commands.lean ====
section
/-!
DEFINITION. Command windows and their commands (R73 to R86).
-/
namespace Sys2Proof.Machine

/-! ## Fields of a packet (R75 to R82) -/

/-- The n bytes at an offset of a packet. -/
def Cmd.fld (c : Cmd) (off n : Nat) : Nat := bits c.bytes.toNat (8 * (off + n) - 1) (8 * off)

/-- R75: whether a packet of a known OP completes with BAD_FIELD: a field outside the values, range or alignment stated, in the retiring forms of ARM
and HANDLE too. -/
def Cmd.bad (c : Cmd) : Bool :=
  let f := c.fld
  let body : Bool := match c.op with
    | 1 => f 0x10 48 ≠ 0
    | 2 => f 0x2A 22 ≠ 0 || decide (511 < f 0x28 2) || f 0x08 8 % 64 ≠ 0
        || f 0x18 8 % 64 ≠ 0 || decide (f 0x20 4 < 64) || decide (2 ^ 20 < f 0x20 4)
    | 3 => f 0x08 8 % 64 ≠ 0 || (decide (3 < f 0x20 1) && f 0x20 1 ≠ 0xFF) || decide (7 < f 0x21 1) || f 0x22 2 ≠ 0
        || decide (65535 < f 0x24 4) || decide (65535 < f 0x28 4) || f 0x2C 20 ≠ 0
    | 4 => !(f 0x08 1 = 1 || f 0x08 1 = 2) || f 0x0A 2 ≠ 0 || f 0x20 32 ≠ 0 || f 0x0C 4 = 0 || decide (65535 < f 0x0C 4)
        || decide (1 < f 0x09 1) || f 0x10 8 % 64 ≠ 0 || f 0x18 8 % 64 ≠ 0 || f 0x18 8 = 0
    | 5 => decide (1 < f 0x18 1) || !(f 0x19 1 = 4 || f 0x19 1 = 8) || f 0x08 8 % f 0x19 1 ≠ 0 || !(f 0x1A 1 = 0 || (decide (3 ≤ f 0x1A 1) && decide (f 0x1A 1 ≤ 7)))
        || f 0x1B 1 ≠ 0 || decide (65535 < f 0x1C 4) || f 0x20 32 ≠ 0
    | 6 => f 0x08 8 % 8 ≠ 0 || decide (3 < f 0x20 1) || f 0x21 3 ≠ 0 || f 0x28 24 ≠ 0
    | _ => false
  bits c.flags 7 2 ≠ 0 || f 2 2 ≠ 0 || body

/-- Whether a packet retires a handle. -/
def Cmd.retires (c : Cmd) : Bool := c.op = 4 && c.fld 0x08 1 = 2

/-! ## Acceptance (R73, R74, R83, R88) -/

/-- The users that a handle's next writer would wait for. -/
def State.usersOf (s : State) (p hid : Nat) : List Nat :=
  let h := s.handle p hid
  (h.writers ++ h.readers).filter fun u => s.users.contains u
/-- The SIGNALs of a partition that name a handle and have not completed: a retirement waits behind them (R86). -/
def State.signalsOf (s : State) (p hid : Nat) : List Nat :=
  (s.windows.filter fun q => decide (q.1 / 16 = p + 1)).flatMap fun q =>
    ((q.2.q ++ (q.2.run.map (·.cmd)).toList).filter fun c => c.op = 5 && c.fld 0x1C 4 = hid && s.users.contains c.uid).map (·.uid)

/-- A packet with named handles takes its place among their users, unless one of them is being retired (R80, R86). -/
def State.takeNames (s : State) (p : Nat) (c : Cmd) (names : List (Nat × Nat)) : State × Cmd :=
  if names.any (fun n => (s.handle p n.1).gone) then (s, { c with noHandle := true })
  else
    let (s, deps) := s.takeHandles p c.uid names
    (s, { c with names, deps })

/-- The status to which a packet that arrives now is doomed: HALTED (R86), or NOT_READY (R72). -/
def State.doomNow (s : State) (p : Nat) : Nat := if (s.part p).halted then 13 else if s.ready p then 0 else 9

/-- What is done at the acceptance of a packet: launch records are read (R88) and an ARM's handles looked up (R102), handles take their users (R83), a
retirement closes its handle until it is over (R86). One that arrives while READY is clear, or after a halt, keeps that status (R72, R86). -/
def State.atAcceptance (s : State) (p : Nat) (c : Cmd) : State × Cmd :=
  if s.doomNow p ≠ 0 then (s, { c with doom := s.doomNow p })
  else if c.bad then (s, c)
  else match c.op with
  | 1 =>
    let (s, r) := s.readRecord p (c.fld 0x08 8)
    match r with
    | .ok _ hs _ => s.takeNames p { c with rec_ := r } hs
    | _ => (s, { c with rec_ := r })
  | 2 =>
    if c.fld 0x24 4 = 0 then (s, c)
    else
      let (s, r) := s.readRecord p (c.fld 0x08 8)
      (s, { c with rec_ := match r with | .ok _ hs _ => if s.handlesOk p hs then r else .bad 3 | _ => r })
  | 3 =>
    let src := c.fld 0x24 4
    let dst := c.fld 0x28 4
    s.takeNames p c ((if src = 0 then [] else [(src, 1)]) ++ if dst = 0 then [] else [(dst, 2)])
  | 4 =>
    let hid := c.fld 0x0C 4
    if !c.retires then (s, c)
    else if (s.handle p hid).gone then (s, { c with noHandle := true })
    else (s.updHandle p hid fun h => { h with gone := true }, { c with deps := s.usersOf p hid ++ s.signalsOf p hid, closes := some (p * 65536 + hid) })
  | 5 =>
    let hid := c.fld 0x1C 4
    if hid = 0 then (s, c)
    else if (s.handle p hid).gone then (s, { c with noHandle := true })
    else ({ s with users := s.users ++ [c.uid] }, { c with deps := s.usersOf p hid, names := [(hid, 0)] })
  | _ => (s, c)

/-- A packet is accepted into its window. -/
def State.acceptCmd (s : State) (vf w : Nat) (bytes : Vec) : State :=
  let c : Cmd := { uid := s.nextId, bytes, at_ := s.CYC }
  let (s, c) := s.fresh.atAcceptance (vf - 1) c
  s.updWindow vf w fun x => { x with q := x.q ++ [c] }

/-- FREE of a window (R73): of 64 packets, those not queued and not running (log 18). -/
def Window.free (x : Window) : Nat := 64 - (x.q.length + if x.run.isSome then 1 else 0)

/-- COMMAND_WINDOW_WRITE (R73, R74): a write is taken whole, or discarded whole and counted. -/
def execCommandWindowWrite (vf w off : Nat) (data : List Byte) (s : State) : Out :=
  let n := data.length / 64
  if s.vfOn = false ∨ 0xFC0 ≤ off ∨ data.isEmpty = true then .next s
  else if off % 64 ≠ 0 ∨ data.length % 64 ≠ 0 ∨ 0xFC0 < off + data.length ∨ (s.window vf w).free < n then
    .next (s.updWindow vf w fun x => { x with discards := sat16 x.discards })
  else .next ((List.range n).foldl (fun (s : State) i => s.acceptCmd vf w (toVec (bytesNum (((data.drop (64 * i)).take 64).map (·.toNat))))) s)

/-- WINDOW_DISCARDS_CLEAR (R73). -/
def execWindowDiscardsClear (vf w : Nat) (s : State) : Out := if s.vfOn then .next (s.updWindow vf w fun x => { x with discards := 0 }) else .next s

/-! ## The start of a command (R76, R84) -/

/-- The window's next command starts if it is one that op picks, the previous one has completed, and everything it waits for has; it completes at once with
the status that stops it, or goes on by k. -/
def State.startCmd (s : State) (vf w : Nat) (op : Cmd → Bool) (k : State → Cmd → State) : State :=
  let x := s.window vf w
  match x.run, x.q with
  | none, c :: rest =>
    if !op c || (s.depsOpen c.deps && !c.retires) then s
    else
      let p := vf - 1
      let s := s.updWindow vf w fun x => { x with q := rest, run := some { cmd := c, start := s.CYC } }
      let finished := fun (st : Nat) => s.completeCmd vf w st 0
      if (s.part p).halted then finished 13
      else if !s.ready p then finished 9
      else if c.doom ≠ 0 then finished c.doom
      else if c.op = 0 ∨ 6 < c.op then finished 1
      else if c.bad then finished 2
      else if c.noHandle || c.names.any (fun n => !(s.handle p n.1).reg) then finished 3
      else k s c
  | _, _ => s

/-- BAD_OP_COMMAND (R75). -/
def execBadOpCommand (vf w : Nat) (s : State) : Out := .next (s.startCmd vf w (fun c => c.op = 0 || decide (6 < c.op)) fun s _ => s)

/-- LAUNCH (R77, R94): the launch takes its number and waits for room; a shape that could never be placed completes NO_ROOM. -/
def execLaunch (vf w : Nat) (s : State) : Out :=
  .next (s.startCmd vf w (fun c => c.op = 1) fun s c =>
    match c.rec_ with
    | .none => s.completeCmd vf w 8 0
    | .bad st => s.completeCmd vf w st 0
    | .ok r hs rs =>
      if (s.chooseTiles (vf - 1) r fun _ => true).isNone then s.completeCmd vf w 5 0
      else
        let l : Launch := { part := vf - 1, num := 0, r, handles := hs, ranks := rs, cmd := some (vf, w), uid := c.uid, acceptedAt := c.at_ }
        let (s, num) := s.addLaunch l
        s.updWindow vf w fun x => { x with run := x.run.map fun r => { r with launch := num } })

/-- ARM (R78, R102): an entry is armed; or, with COUNT 0, retired, once the sends that it has matched are over (R52). -/
def execArm (vf w : Nat) (s : State) : Out :=
  .next (s.startCmd vf w (fun c => c.op = 2) fun s c =>
    let p := vf - 1
    let ep := c.fld 0x28 2
    let tag := BitVec.ofNat 64 (c.fld 0x10 8)
    let is := fun (a : Armed) => decide (a.part = p) && decide (a.ep = ep) && decide (a.tag = tag)
    if !s.feature 7 then s.completeCmd vf w 10 0
    else if s.epPart ep ≠ some p then s.completeCmd vf w 2 0
    else if c.fld 0x24 4 = 0 then
      let s := { s with armed := (s.armed.map fun (a : Armed) => if is a then { a with retiring := true } else a).filter fun a => !(is a && decide (a.inflight = 0)) }
      if s.armed.any is then s else s.completeCmd vf w 0 0
    else match c.rec_ with
      | .none => s.completeCmd vf w 8 0
      | .bad st => s.completeCmd vf w st 0
      | .ok r hs rs =>
        if s.armed.any (fun a => is a && decide (a.count ≠ 0)) || decide (256 ≤ (s.armed.filter fun a => decide (a.part = p) && decide (a.count ≠ 0)).length) then
          s.completeCmd vf w 4 0
        else
          let a : Armed := { id := s.nextId, part := p, ep, tag, buf := BitVec.ofNat 64 (c.fld 0x18 8), len := c.fld 0x20 4, count := c.fld 0x24 4
                             vf, win := w, seq := c.seq, flags := c.flags, r, handles := hs, ranks := rs }
          (State.fresh { s with armed := s.armed ++ [a] }).completeCmd vf w 0 0)

/-- A shape block at a PVA (R220): its header, then as many vectors as it takes. -/
def State.shapeRead (s : State) (p pva : Nat) : SegGot :=
  match s.segRead p 0 none 2 pva 64 with
  | .ok s v poison => if poison then .ok s v poison else s.segRead p 0 none 8 pva (64 * shapeVecs (bits v 151 144))
  | x => x

/-- COPY from the host (R79, R137): its shape block is read, its containers are captured, and the copy joins a queue of an engine that the command processor
chooses. The addresses of the block are PVAs, so SPACE must be 1 (log 19). -/
def execHostCopy (vf w die eng : Nat) (s : State) : Out :=
  .next (s.startCmd vf w (fun c => c.op = 3 && (c.fld 0x20 1 = 0xFF || c.fld 0x20 1 = die)
      && decide (s.queueHeld (queueKey die eng (c.fld 0x21 1)) < 32)) fun s c =>
    let p := vf - 1
    match s.shapeRead p (c.fld 0x08 8) with
    | .fail => s.completeCmd vf w 8 0
    | .waits _ _ => s.completeCmd vf w 8 0
    | .ok s v poison =>
      let sh := Shape.ofNat v
      if poison then s.completeCmd vf w 7 0
      else if !sh.space then s.completeCmd vf w 2 0
      else
        let m : CopyCmd := { id := s.nextId, die, eng, q := c.fld 0x21 1, part := p, ctx := 0xFF, host := some (vf, w, c.uid), shape := sh
                             shapeP := BitVec.ofNat 64 (c.fld 0x08 8), cword := BitVec.ofNat 64 (c.fld 0x10 8), cval := BitVec.ofNat 64 (c.fld 0x18 8) }
        let m := { m with widths := s.issueWidths m }
        State.fresh { s with queues := Tbl.put s.queues m.queue (Tbl.getD s.queues m.queue [] ++ [m]) })

/-- Handles registered in a partition. -/
def State.handleCount (s : State) (p : Nat) : Nat := (s.handles.filter fun h => decide (h.1 / 65536 = p) && h.2.reg).length

/-- HANDLE with ACTION 1 (R80). -/
def execHandleRegister (vf w : Nat) (s : State) : Out :=
  .next (s.startCmd vf w (fun c => c.op = 4 && !c.retires) fun s c =>
    let p := vf - 1
    let hid := c.fld 0x0C 4
    if (s.handle p hid).reg || decide (4096 ≤ s.handleCount p) then s.completeCmd vf w 4 0
    else (s.updHandle p hid fun h => { h with reg := true, kind := c.fld 0x09 1, base := BitVec.ofNat 64 (c.fld 0x10 8), len := BitVec.ofNat 64 (c.fld 0x18 8) }).completeCmd vf w 0 0)

/-- The retirement that a window runs ends once its handle's users have (R80). -/
def State.tryRetire (s : State) (vf w : Nat) : State :=
  match (s.window vf w).run with
  | some r =>
    if r.finished || !r.cmd.retires || s.depsOpen r.cmd.deps then s
    else (s.updHandle (vf - 1) (r.cmd.fld 0x0C 4) fun h => { h with reg := false }).completeCmd vf w 0 0
  | none => s

/-- HANDLE with ACTION 2 (R80, R86): the retirement starts. -/
def execHandleRetire (vf w : Nat) (s : State) : Out :=
  .next (s.startCmd vf w Cmd.retires fun s c => if (s.handle (vf - 1) (c.fld 0x0C 4)).reg then s.tryRetire vf w else s.completeCmd vf w 3 0)
/-- HANDLE_RETIRE_COMPLETE (R80). -/
def execHandleRetireComplete (vf w : Nat) (s : State) : Out := .next (s.tryRetire vf w)

/-- A SIGNAL in progress (R81): its write is performed, then its vector is raised. -/
def State.runSignal (s : State) (vf w : Nat) (linkOk : Bool) : State :=
  match (s.window vf w).run with
  | none => s
  | some r =>
    let c := r.cmd
    let p := vf - 1
    let addr := c.fld 0x08 8
    let n := c.fld 0x19 1
    let vec := c.fld 0x1A 1
    let done := fun (s : State) => (if vec = 0 then s else s.raise vf vec).completeCmd vf w 0 0
    if r.finished || c.op ≠ 5 || s.waitsFor p .signal c.uid then s
    else if c.fld 0x18 1 = 1 then
      if !linkOk || decide (2 ^ 51 < addr + n) then s.completeCmd vf w 8 0
      else done (s.applyWrite p 0 (Config.hostBase + addr) n (c.fld 0x10 8 % 2 ^ (8 * n)) none false false)
    else match s.engAddr p 0 none addr n false true true with
      | .ok pa e =>
        done (s.engineWrite p e pa n (c.fld 0x10 8 % 2 ^ (8 * n)) 0 false)
      | .fail _ => s.completeCmd vf w 8 0
      | .waits pva x => s.engWait .signal c.uid p 0 0 none pva x

/-- SIGNAL (R81): linkOk is whether a write to host memory succeeds on the link (R86). -/
def execSignal (vf w : Nat) (linkOk : Bool) (s : State) : Out :=
  if (s.window vf w).run.isSome then .next (s.runSignal vf w linkOk)
  else .next (s.startCmd vf w (fun c => c.op = 5) fun s _ => s.runSignal vf w linkOk)

/-- A WAITV in progress (R82): its word is found and tested at its home. -/
def State.runWaitv (s : State) (vf w : Nat) : State :=
  match (s.window vf w).run with
  | none => s
  | some r =>
    let c := r.cmd
    let p := vf - 1
    if r.finished || c.op ≠ 6 || s.waitsFor p .signal c.uid then s
    else match s.engAddr p 0 none (c.fld 0x08 8) 8 true false false with
      | .ok pa e =>
        let (s, word, _) := s.engRead p e pa 8
        let s := s.updWindow vf w fun x => { x with run := x.run.map fun r =>
          { r with pa := some pa, tenant := (e.map (·.tenant)).getD 0, shu := (e.map (·.shu)).getD false } }
        if waitHolds false (c.fld 0x20 1) (word &&& c.fld 0x18 8) (c.fld 0x10 8) then s.completeCmd vf w 0 0 else s
      | .fail _ => s.completeCmd vf w 8 0
      | .waits pva x => s.engWait .signal c.uid p 0 0 none pva x

/-- WAITV (R82). -/
def execWaitv (vf w : Nat) (s : State) : Out :=
  if (s.window vf w).run.isSome then .next (s.runWaitv vf w) else .next (s.startCmd vf w (fun c => c.op = 6) fun s _ => s.runWaitv vf w)

/-- WAITV_TIMEOUT (R82): TMO µs of the 1.4 GHz reference have passed since the start. -/
def execWaitvTimeout (vf w : Nat) (s : State) : Out :=
  match (s.window vf w).run with
  | none => .next s
  | some r =>
    let tmo := r.cmd.fld 0x24 4
    if r.cmd.op = 6 ∧ !r.finished ∧ tmo ≠ 0 ∧ r.start + 1400 * tmo ≤ s.CYC then .next (s.completeCmd vf w 11 0) else .next s

end Sys2Proof.Machine
end

