-- ==== Sys2Proof/Machine/Migration.lean ====
section
/-!
DEFINITION. Migration and displacement of tile groups (R98, R118 to R124), their save area (R115, R117, R123), and the save set (R120, R121).
-/
namespace Sys2Proof.Machine

/-! ## Requests (R98, R118, R119) -/

/-- A group of a launch. -/
def State.group? (s : State) (k g : Nat) : Option (Launch × GroupSt) :=
  match Tbl.find? s.launches k with
  | some l => (Tbl.find? l.groups g).map fun x => (l, x)
  | none => none

/-- GROUP_MIGRATE_REQUEST (R118, R124): a write of GRP_MIG. -/
def execGroupMigrateRequest (v : Word) (s : State) : Out :=
  let w := v.toNat
  let stat := (s.pfr 0xA408).toNat
  if !bit w 63 || bit stat 0 then .next s
  else
    let p := bits w 53 48
    let k := p * 65536 + bits w 47 32
    let g := bits w 11 0
    let s := s.setPf 0xA400 v
    if bits w 61 54 ≠ 0 ∨ bits w 31 12 ≠ 0 ∨ s.feature 9 = false ∨ s.partLive p = false then .next (s.setPf 0xA408 2)
    else match s.group? k g with
      | none => .next (s.setPf 0xA408 2)
      | some (l, x) =>
        if x.place = .migrating ∧ x.target.isSome = true then .next s
        else match s.chooseTiles p { l.r with tiles := 1, clusters := 1, dies := 1 } fun t => t ≠ x.tile && s.mayTake 1 t with
          | none => .next (s.setPf 0xA408 4)
          | some ts =>
            let s := s.setPf 0xA408 1
            if x.place ≠ .running then .next (s.updGroup k g fun x => { x with target := ts.head? })
            else .next ((s.beginMove k g (bit w 62)).updGroup k g fun x => { x with target := ts.head? })

/-- CKPT_LIMIT_EXPIRE (R119): the wait ends CKPT_LIMIT cycles after the request, and the whole scratchpad is saved. -/
def execCkptLimitExpire (part num group : Nat) (s : State) : Out :=
  let k := part * 65536 + num
  match s.group? k group with
  | none => .next s
  | some (l, x) =>
    if x.place = .migrating ∧ x.phase = 1 ∧ x.full = false ∧ x.since + l.r.ckptLimit ≤ s.cyc then .next (s.updGroup k group fun x => { x with full := true })
    else .next s

/-- A vector instruction that waits for remote reads is withdrawn: it issues again from the retry latch of its context after the resume. -/
def State.withdrawVec (s : State) (t : Nat) (o : VOp) : State :=
  let s := (s.updTile t fun v => { v with vq := v.vq.filter fun p => decide (p.id ≠ o.id) }).dropRemote t o.ctx
  let s := if vopRed o.vop && decide (o.prog = 0) then s.unPend t o.ctx o.d false else s
  s.updCtx t o.ctx fun x => { x with busy := false, reduced := [] }

/-- A row that a tile's route unit holds under WAIT is withdrawn, its place kept (R245). -/
def State.withdrawRow (s : State) (t : Nat) : State :=
  match (s.tile t).route with
  | some u => match u.waiting with
    | some id =>
      if u.held then
        let m := s.rmsgs.find? fun (m : RouteMsg) => decide (m.id = id)
        let s := { s with rmsgs := s.rmsgs.filter fun (m : RouteMsg) => decide (m.id ≠ id) }
        s.updTile t fun v => { v with route := some { u with waiting := none, held := false, next := (m.map fun (m : RouteMsg) => 4 * (m.rs % 16) + m.rs / 16).getD u.next } }
      else s
    | none => s
  | none => s

/-- What keeps the instructions in flight of a quiet tile from completing in the quiesce is withdrawn (DEDUCED, log 36): the row that its route unit holds, and
vector instructions that read remotely of a group that is off its tile. -/
def State.withdrawStuck (s : State) (t : Nat) : State :=
  let far := (s.tile t).vq.filter fun o => s.rreads.any fun r => !r.closed && r.users.contains (t, o.ctx) && s.groupOff r.launch r.group
  (far.foldl (fun (s : State) o => s.withdrawVec t o) s).withdrawRow t

/-- A context's count-down of PARK 8 stands still (R117): its latch keeps what is left, where no load of it waits. -/
def Ctx.freezeRetry (x : Ctx) (n : Nat) : Ctx :=
  if x.park = 8 then { x with latch := x.latch.map fun l => { l with timer := l.timer - (n - x.parkedAt) }, parkedAt := n } else x

/-- A tile's contexts stop issuing (R119, R124): stamped loads that wait are withdrawn with their timers, the waits of its contexts go back to the port, to read
their words again after the resume, and waits on objects of the tile go. -/
def State.quiesceTile (s : State) (t : Nat) : State :=
  let own := s.reqs.filter fun r => decide (r.tile = t)
  let s := s.updTile t fun v => { v with ctxs := Tbl.mapV (fun c (x : Ctx) => if (s.ldaAt t c .refused).isNone then x.freezeRetry s.cyc else x) v.ctxs }
  let s := (own.filter fun r => decide (r.kind = .ldaW) && [ReqStage.port, .waiting, .refused, .withdrawing].contains r.stage).foldl (fun (s : State) r => s.withdraw r) s
  let s := { s with
    reqs := (s.reqs.filter fun (r : Req) => !(decide (r.tile = t) && decide (r.kind = ReqKind.barwait))).map fun (r : Req) =>
      if r.tile = t ∧ r.isWait = true ∧ (r.stage = ReqStage.waiting ∨ r.stage = ReqStage.refused) then { r with stage := ReqStage.port } else r
    barWait := s.barWait.filter fun w => decide (w.2.2.1 ≠ t) }
  let s := match (s.tile t).mbuf with | some m => s.dropRemote t m.ctx | none => s
  (s.updTile t fun v => { v with quiet := true, semWait := [], mbuf := none }).withdrawStuck t

/-- The commands of some queues in the order of die role, engine and queue, and within a queue as it would serve them (R401). -/
def keyedCopies (cs : List CopyCmd) : List CopyCmd := (List.range 512).flatMap fun n => cs.filter fun c => decide ((c.role * 16 + c.eng) * 8 + c.q = n)
/-- The first n copies of a list, with every QFENCE: those stay with the copies that they follow and wait for (DEDUCED, log 36). -/
def firstCopies : Nat → List CopyCmd → List CopyCmd
  | _, [] => []
  | n, c :: cs => if c.fence then c :: firstCopies n cs else match n with
    | 0 => firstCopies 0 cs
    | m + 1 => c :: firstCopies m cs

/-- R122, R401: the unfinished copies of a group leave their queues, 64 at most. -/
def State.saveCopies (s : State) (k g : Nat) : State :=
  let own := fun (c : CopyCmd) => decide (c.key = k) && decide (c.group = g)
  let mine := s.savedCopies.filter own
  let all := s.queues.flatMap fun q => q.2.filter fun c => own c && c.host.isNone && !c.ended
  let take := (firstCopies (64 - (mine.filter (!·.fence)).length) (keyedCopies all)).map fun (c : CopyCmd) => { c with lead := none }
  let ids := take.map (·.id)
  { s with queues := Tbl.mapV (fun _ q => q.filter fun c => !ids.contains c.id) s.queues
           savedCopies := s.savedCopies.filter (!own ·) ++ keyedCopies (mine ++ take) }

/-- MIGRATION_QUIESCE (R119): the wait has ended; the group stops issuing. -/
def execMigrationQuiesce (part num group : Nat) (s : State) : Out :=
  let k := part * 65536 + num
  match s.group? k group with
  | none => .next s
  | some (_, x) =>
    let rest := (s.tile x.tile).ctxs.all fun q => q.2.atRest
    if x.place ≠ .migrating ∨ x.phase ≠ 1 ∨ (x.full = false ∧ rest = false) then .next s
    else .next (((s.quiesceTile x.tile).saveCopies k group).updGroup k group fun y => { y with phase := 2, whole := x.full || !rest })

/-! ## The save set (R120, R121) -/

/-- Four bytes of a code segment that a context's checks allow, as they are read at their home. -/
def State.codeWord (s : State) (p t : Nat) (segs : Fixed Seg 8) (va : Nat) : Option Nat :=
  match s.engAddr p t (some segs) va 4 false false false with
  | .ok pa e => let (_, v, bad) := s.engRead p e pa 4; if bad then none else some v
  | _ => none

/-- The ranges of a live-range table as (first line, lines) of the scratchpad, or none where it is malformed. -/
def State.liveRanges (s : State) (p t : Nat) (segs : Fixed Seg 8) (va : Nat) : Option (List (Nat × Nat)) :=
  match s.codeWord p t segs va with
  | none => none
  | some h =>
    if h = 0 ∨ 256 < h then none
    else (List.range h).foldl (fun (acc : Option (List (Nat × Nat))) i => match acc, s.codeWord p t segs (va + 4 + 4 * i) with
      | some rs, some e =>
        let n := bits e 23 13 + 1
        if e % 4 = 3 ∨ bits e 31 24 ≠ 0 ∨ 2048 < bits e 12 2 + n then none else some (rs ++ [(e % 4 * 2048 + bits e 12 2, n)])
      | _, _ => none) (some [])

/-- The container of a side of a copy: as captured at its issue, and by its shape where its page was not present then (log 31). -/
def CopyCmd.width (c : CopyCmd) (side : Nat) : Nat :=
  if nth c.widths side 0 = 0 then containerOf (if side = 0 then c.shape.sfmt else c.shape.dfmt) else nth c.widths side 0

/-- The tile that a tile role names for a group of launch k (R92). -/
def State.roleTile (s : State) (k g role : Nat) : Option Nat :=
  match Tbl.find? s.launches k with
  | some l => (roleByte l.r.trole role).bind fun m => let (d, c, _) := l.r.members g; l.tileOf (l.r.groupOf d c m)
  | none => none

/-- The lines of tile t's scratchpad that a copy's shape block, barrier object and footprint take (R120), where the group on tile t is g. -/
def State.copyLines (s : State) (t g : Nat) (c : CopyCmd) : List (Nat × Nat) :=
  let sp := c.shapeP.toNat
  let own := if c.group = g then
      (pBank sp * 2048 + pVidx sp, shapeVecs c.shape.ndim) :: (match c.bar with | some p => [(pBank p * 2048 + pVidx p, 1)] | none => [])
    else []
  let side := fun (va code : Nat) (pick : Nat × Int × Int → Int) =>
    let w := (c.segs.getD (va / 2 ^ 61) {}).w0.toNat
    let there := (bits w 61 60 = 2 && decide (c.group = g)) || (bits w 61 60 = 3 && s.roleTile c.key c.group (bits w 24 19) = some t)
    if c.shape.space || !there then []
    else
      let off : Int := (w % 2 ^ 19 + va % 2 ^ 61 : Nat)
      let (lo, hi) := c.shape.reach pick (containerBytes code c.shape.count0)
      let a := ((off + lo) / 64).toNat
      let b := ((off + hi) / 64).toNat
      [(a, b + 1 - a)]
  own ++ side c.shape.src.toNat (c.width 0) (·.2.1) ++ side c.shape.dst.toNat (c.width 1) (·.2.2)
/-- The copies that are unfinished for a group of launch k (R122): its own and those of the other groups of the launch, which may reach its scratchpad by
role, be they saved, on their way to a queue, or in one. -/
def State.unfinished (s : State) (k : Nat) : List CopyCmd :=
  (s.savedCopies ++ s.copyMsgs ++ s.queues.flatMap (·.2)).filter fun c => decide (c.key = k) && c.host.isNone && !c.ended && !c.fence

/-- R120: the scratchpad lines to save, or none for the whole scratchpad; the contexts whose tables are malformed. -/
def State.saveSet (s : State) (k g t : Nat) (whole : Bool) : Option (List Nat) × List Nat :=
  let p := k / 65536
  let live := (s.tile t).ctxs.filter fun q => decide (q.2.state = .slotted) || decide (q.2.state = .cached) || decide (q.2.state = .stopped)
  if whole || live.any (fun q => decide (q.2.lastCkpt = 0)) then (none, [])
  else
    let tabs := live.map fun q => (q.1, s.liveRanges p t q.2.seg q.2.lastCkpt.toNat)
    let bad := (tabs.filter fun q => q.2.isNone).map (·.1)
    if !bad.isEmpty then (none, bad)
    else
      let rs := tabs.flatMap fun q => q.2.getD []
      let cs := (s.unfinished k).flatMap (s.copyLines t g)
      (some ((List.range 6144).filter fun n => (rs ++ cs).any fun r => decide (r.1 ≤ n) && decide (n < r.1 + r.2)), [])

/-! ## Layouts (R117, R123, R233, R237) -/

/-- A field of a saved layout: its offset, its bytes, its value. -/
abbrev SaveField := Nat × Nat × Nat

/-- STATE of R105 as a number. -/
def CtxState.num : CtxState → Nat
  | .free => 0
  | .slotted => 1
  | .cached => 2
  | .halted => 3
  | .stopped => 4

/-- A stream register's 48 bytes (R117). -/
def Stream.bytes (x : Stream) : Nat :=
  let ds := (List.range 4).map fun i => nth x.dims i (0, 0)
  x.base + 2 ^ 64 * (x.fmt + 256 * b2n x.out) + (ds.mapIdx fun i d => 2 ^ (96 + 64 * i) * (d.1 + 2 ^ 32 * wrap 32 d.2)).foldl (· + ·) 0 + 2 ^ 352 * x.pos

/-- The value that an x register holds at cycle n. -/
def Ctx.held (x : Ctx) (r n : Nat) : Nat := if r = 0 then 0 else ((x.reg r).seen n).toNat

/-- A context record (R117): fixed-latency results that have landed by cycle n are in it, flags too. -/
def Ctx.record (x : Ctx) (n : Nat) : List SaveField :=
  let l := x.latch.getD {}
  (List.range 32).map (fun r => (8 * r, 8, x.held r n))
    ++ (List.range 8).map (fun i => (0x100 + 8 * i, 8, (x.ptr.getD i 0).toNat))
    ++ (List.range 8).map (fun i => (0x140 + 48 * i, 48, (x.str.getD i {}).bytes))
    ++ (List.range 8).map (fun i => (0x2C0 + 16 * i, 16, (x.seg.getD i {}).w0.toNat + 2 ^ 64 * (x.seg.getD i {}).w1.toNat))
    ++ [(0x340, 8, (match x.latch with | some l => l.pc.toNat | none => x.pc.toNat))
      , (0x348, 4, (List.range 32).foldl (fun m r => if r = 0 ∨ (x.reg r).st = .full then m + 2 ^ r else m) 0)
      , (0x34C, 4, x.iter.toNat), (0x350, 1, x.rnd.toNat), (0x351, 1, (x.fflAt n).toNat), (0x352, 2, x.vl), (0x354, 4, x.slim.toNat)
      , (0x358, 8, x.qmap.toNat), (0x360, 8, x.qdest.toNat), (0x368, 1, x.role.toNat), (0x369, 1, x.gen), (0x36A, 1, x.state.num), (0x36B, 1, x.park)
      , (0x36C, 4, 0), (0x370, 4, l.insn.toNat), (0x374, 4, l.prog), (0x378, 4, l.timer), (0x37C, 4, l.aux), (0x380, 8, x.lastCkpt.toNat)]
    ++ (List.range 4).map (fun r => (0x388 + 4 * r, 4, x.issued.getD r 0))
    ++ (List.range 8).map (fun i => (0x398 + 8 * i, 8, (match x.rxq[i]? with | some f => f.val.toNat | none => 0)))
    ++ [(0x3D8, 1, x.rxq.length), (0x3D9, 1, x.relRnd), (0x3DA, 1, b2n x.schk), (0x3DB, 1, 0), (0x3DC, 4, x.orph), (0x3E0, 8, x.rtmap.toNat), (0x3E8, 24, 0)]

/-- A target registration's 32 bytes (R233). -/
def RtTgt.bytes (g : RtTgt) : Nat :=
  g.tgt + 2 ^ 8 * (b2n g.valid + 2 * b2n g.wait) + 2 ^ 16 * g.cap + 2 ^ 32 * g.wmax + 2 ^ 48 * g.ring + 2 ^ 64 * g.aword + 2 ^ 96 * g.head + 2 ^ 128 * g.tail
    + 2 ^ 160 * g.drops
/-- A reassembly entry's 256 bytes (R237). -/
def Reasm.bytes (e : Reasm) : Nat :=
  (e.desc.foldr (fun w acc => w.toNat + 2 ^ 64 * acc) 0) % 2 ^ 512 + 2 ^ 512 * (e.rv + 2 ^ 64 * e.state + 2 ^ 72 * e.gen + 2 ^ 80 * e.wvec + 2 ^ 96 * e.remain
    + 2 ^ 128 * e.expect + 2 ^ 192 * e.ret + 2 ^ 256 * e.drop + 2 ^ 320 * e.tout + 2 ^ 384 * e.sent + 2 ^ 448 * e.tilep + 2 ^ 512 * e.done + 2 ^ 528 * e.cflags
    + 2 ^ 544 * e.disc)
/-- A copy record's 64 bytes (R123). -/
def CopyCmd.record (c : CopyCmd) (inbound : Bool) : Nat :=
  1 + 2 * b2n inbound + 2 ^ 32 * c.role + 2 ^ 40 * c.eng + 2 ^ 48 * c.q + 2 ^ 64 * c.shapeP.toNat + 2 ^ 128 * (c.bar.getD 0) + 2 ^ 192 * c.cword.toNat
    + 2 ^ 256 * c.cval.toNat + 2 ^ 320 * c.done + 2 ^ 384 * CopyCmd.total { c with widths := [c.width 0, c.width 1] }

/-- The fields of the slab of the group on tile t (R123), but for the scratchpad. -/
def State.slabFields (s : State) (k g t nvec : Nat) (whole : Bool) : List SaveField :=
  let v := s.tile t
  let cs := s.savedCopies.filter fun c => decide (c.key = k) && decide (c.group = g) && !c.fence
  let pend := v.pend.take 63
  [(0, 4, 0x4A565347), (4, 2, 1), (6, 1, 1), (7, 1, b2n whole), (8, 4, nvec), (0xC, 2, cs.length), (0xE, 2, 0), (0x10, 8, t), (0x18, 8, s.CYC), (0x20, 32, 0)]
    ++ (List.range 32).map (fun e => (0x40 + e, 1, if e < 16 then bits v.rotLo.toNat (4 * e + 3) (4 * e) else bits v.rotHi.toNat (4 * e - 61) (4 * e - 64)))
    ++ (List.range 8).map (fun i => (0x60 + 4 * i, 4, v.sem.getD i 0))
    ++ (List.range 8).map (fun i => let a := v.acc.getD i {}; (0x80 + 4 * i, 4, a.flags + 16 * a.owner.getD 0 + 1024 * b2n a.owner.isSome))
    ++ (List.range 8).map (fun i => (0xA0 + 32 * i, 32, (v.rttgt.getD i {}).bytes))
    ++ (List.range 3).map (fun i => (0x1A0 + 8 * i, 8, (v.bank.getD i 0).toNat))
    ++ [(0x1B8, 8, 0), (0x1C0, 8, b2n v.inH + 256 * pend.length), (0x1C8, 8, v.tepc.toNat), (0x1D0, 8, v.tfpc.toNat), (0x1D8, 8, v.taddr.toNat)
      , (0x1E0, 8, v.tcause.toNat), (0x1E8, 24, 0)]
    ++ (List.range 64).map (fun i => (0x200 + 32 * i, 32, match pend[i]? with
        | some q => q.tfpc.toNat + 2 ^ 64 * q.taddr.toNat + 2 ^ 128 * q.tcause.toNat
        | none => 0))
    ++ (List.range 64).map (fun i => (0x1000 + 64 * i, 64, match cs[i]? with
        | some c => c.record (2 ≤ bits (c.segs.getD (c.shape.dst.toNat / 2 ^ 61) {}).w0.toNat 61 60 && !c.shape.space)
        | none => 0))
    ++ (List.range 16).map (fun i => (0x2000 + 256 * i, 256, (v.reasm.getD i {}).bytes))
    ++ (List.range 8).flatMap (fun i => (List.range 256).map fun j => (0x3000 + 1024 * i + 4 * j, 4, (nth (v.acc.getD i {}).els j 0).toNat))
    ++ (List.range 64).flatMap (fun c => ((v.ctx c).record s.cyc).map fun f => (0x8000 + 0x400 * c + f.1, f.2.1, f.2.2))

/-- The registers of a record other than x registers, by offset. -/
def Ctx.others (x : Ctx) (n : Nat) : List SaveField := (x.record n).filter fun f => decide (0x100 ≤ f.1)
/-- R265: fields of a context's record, each with the poison of the x register that it holds. -/
def Ctx.poisons (x : Ctx) (fs : List SaveField) : List (SaveField × Bool) := fs.map fun f => (f, decide (f.1 < 0x100) && (x.reg (f.1 / 8)).poison)
/-- R115: the fields of a context's record whose registers are dirty. -/
def Ctx.dirtyFields (x : Ctx) (n : Nat) : List (SaveField × Bool) :=
  x.poisons (((List.range 32).filter fun r => (x.reg r).dirty).map (fun r => (8 * r, 8, x.held r n))
    ++ (x.others n).filter fun f => Tbl.find? x.saved f.1 ≠ some f.2.2)
/-- R115: the dirty bits of a context whose record has been written are clear, but for a register with a result that has not landed. -/
def Ctx.clean (x : Ctx) (n : Nat) : Ctx :=
  { x with x := x.x.map fun r => { r with dirty := r.dirty && r.isShort n }, saved := (x.others n).map fun f => (f.1, f.2.2), recWait := false }
/-- R265: a context reloaded from its record, a line of which is poisoned where one of the 8 registers in it is. -/
def Ctx.reload (x : Ctx) : Ctx :=
  (List.range 32).foldl (fun (y : Ctx) r =>
    if r ≠ 0 ∧ (List.range 8).any (fun i => (x.reg (r / 8 * 8 + i)).poison) = true then y.setReg r { y.reg r with poison := true } else y) x

/-- Fields written through a launch's address space at a PVA, each as package-scope stores; the first that does not go decides. -/
def State.saveFields (s : State) (p base : Nat) (fs : List (SaveField × Bool)) : SegGot :=
  fs.foldl (fun (acc : SegGot) f => match acc with
    | .ok s _ _ => s.segWrite p 0 none 0 f.2 6 (base + f.1.1) f.1.2.1 f.1.2.2
    | x => x) (.ok s 0 false)

/-! ## Save and restore (R119, R123, R124) -/

/-- The first access of a context that its group's move keeps at the port: a wait of the quiet tile, which reads its word again after the resume (R124), or an
access by role to the scratchpad of a group that is away. -/
def State.stuckAt (s : State) (t c : Nat) : Option Nat :=
  ((s.reqs.filter fun r => decide (r.tile = t) && decide (r.ctx = c) && decide (r.stage = .port)
    && ((r.isWait && (s.tile t).quiet) || s.awayReq r)).map (·.id)).min?
/-- Whether what a context did at a place in program order moves with it: it follows such an access, at the port. -/
def State.moves_ (s : State) (t c id : Nat) : Bool := match s.stuckAt t c with | some m => decide (m ≤ id) | none => false
/-- Whether an access moves with its context. -/
def State.movesReq (s : State) (r : Req) : Bool := decide (r.stage = .port) && s.moves_ r.tile r.ctx r.id
/-- Whether the vector instructions of a tile that wait for its unit move with it: the oldest follows an access to a scratchpad that does. -/
def State.vecMoves (s : State) (t : Nat) : Bool :=
  match (s.tile t).vq with
  | [] => true
  | o :: _ => s.reqs.any fun r => decide (r.tile = t) && decide (r.ctx = o.ctx) && decide (r.id < o.id) && isSpad r.pa && s.movesReq r
/-- Whether nothing of a context is in flight, but for what moves with it: its holds at the port that follow such accesses, with the rounds they closed. -/
def State.ctxQuiet (s : State) (t : Nat) (c : Nat) (x : Ctx) : Bool :=
  (!x.busy || (s.tile t).vq.any fun o => decide (o.ctx = c)) && x.fences.all (fun f => s.moves_ t c f.id)
    && (List.range 4).all (fun r => !x.closed.getD r false || x.fences.any fun f => f.kind = .query && decide (f.round = r)) && !x.clearing.els.contains true
    && !x.str.els.any (·.undrained) && decide (x.landed ≤ s.cyc)
/-- Whether a command on its way to an engine is due there (R226). -/
def State.copyDue (s : State) (c : CopyCmd) : Bool :=
  let all := s.copyMsgs.filter fun x => decide (x.entry = c.entry)
  all.any (fun x => decide (x.openTill ≠ 0)) || !all.any (s.copyStays c.entry)

/-- R119: whether nothing of the group on tile t is in flight any more, and no access of another tile to its scratchpad. What cannot complete before the resume
moves with it (log 36). -/
def State.quiesced (s : State) (k g t : Nat) : Bool :=
  let v := s.tile t
  let inside := fun (pa : Nat) => isSpad pa && decide (spadTile pa = t)
  v.quiet && s.reqs.all (fun r => decide (r.tile ≠ t) || s.movesReq r) && s.vecMoves t && v.vrun.isNone && v.mrun.isNone && v.divq.isEmpty && v.fdivq.isEmpty
    && v.swap.isNone && (match v.route with | some u => u.waiting.isNone | none => true) && v.ctxs.all (fun q => s.ctxQuiet t q.1 q.2)
    && !s.copyMsgs.any (fun c => decide (c.key = k) && decide (c.group = g) && s.copyDue c)
    && !(s.stepsOf k g).any (fun x => !x.acks.isEmpty)
    && !s.reqs.any (fun r => inside r.pa && (decide (r.stage = .buffer) || decide (r.stage = .flight)) && !s.moves_ r.tile r.ctx r.id)
    && !s.tiles.any (fun q => q.2.ctxs.any fun c => c.2.str.els.any fun x => x.out && x.ahead.any fun w => inside w.pa)

/-- R198: everything of a quiesced tile is performed, so that its release counts are zero. -/
def State.releasesDone (s : State) (t : Nat) : State :=
  { s.updTile t (fun v => { v with ctxs := Tbl.mapV (fun _ (x : Ctx) => { x with issued := Fixed.fill 4 0, spill := Fixed.fill 4 0 }) v.ctxs }) with
    counts := s.counts.filter fun q => decide (q.tile ≠ t) }

/-- The accesses and waits of other tiles on words and barrier objects of a tile whose group leaves it: those by role go back to the port, where they wait for
the group, and a BARWAIT issues again from the retry latch (log 36). -/
def State.wakeWaiters (s : State) (k t : Nat) : State :=
  let far := fun (r : Req) => r.spadGrp.isSome && isSpad r.pa && decide (spadTile r.pa = t) && decide (r.stage ≠ .reply) && decide (((s.tile r.tile).grp.map (·.launch)) = some k)
  let bs := s.barWait.filter fun w => decide (spadTile (64 * w.1) = t)
  let s := { s with barWait := s.barWait.filter fun w => decide (spadTile (64 * w.1) ≠ t)
                    reqs := s.reqs.map fun r => if far r then { r with stage := .port } else r }
  bs.foldl (fun (s : State) w => s.updCtx w.2.2.1 w.2.2.2 fun x => if x.park = 5 then x.wake s.cyc else x) s

/-- The fields of the launch header (R123): 4 KiB, zero after the tile group count. -/
def headerFields (groups : Nat) : List (SaveField × Bool) :=
  ([(0, 4, 0x4A565341), (4, 2, 1), (6, 2, groups), (8, 56, 0)] ++ (List.range 63).map fun i => (64 * i + 64, 64, 0)).map (·, false)

/-- What is written to the save area of a launch for the group on tile t (R123), by offset, with the poison of each register and vector (R265): the header, the
slab, and the save set. -/
def State.saveOut (s : State) (k g t groups : Nat) (lines : Option (List Nat)) : List (SaveField × Bool) :=
  let ns := lines.getD (List.range 6144)
  let spad := ns.map fun n =>
    let (v, poison) := s.vec t (n / 2048) (n % 2048)
    ((0x20000 + 64 * n, 64, v.toNat), poison)
  let slab := (s.slabFields k g t ns.length lines.isNone).map fun f =>
    (f, decide (0x8000 ≤ f.1) && decide (f.1 % 0x400 < 0x100) && (((s.tile t).ctx ((f.1 - 0x8000) / 0x400)).reg (f.1 % 0x400 / 8)).poison)
  headerFields groups ++ (slab ++ spad).map fun f => ((0x1000 + g * 0x80000 + f.1.1, f.1.2), f.2)

/-- The group leaves its tile, whose L1 is dropped: what was on it goes into the launch's record of the group, with what is to be written to its save area. -/
def State.lift (s : State) (k g t groups : Nat) (lines : Option (List Nat)) : State :=
  let base := spadPa t 0
  let inside := fun (pa : Nat) => decide (base ≤ pa) && decide (pa < base + 0x80000)
  let v := s.tile t
  let cells : List Host.Cell := match lines with
    | none => (s.mem.cells.filter fun c => inside c.1).map fun c => (c.1 - base, c.2)
    | some ls => ls.flatMap fun n => (List.range 64).map fun i => (64 * n + i, s.peek (base + 64 * n + i))
  let bad := (s.mem.poison.filter fun l => inside (64 * l) && (match lines with | none => true | some ls => ls.contains (l - base / 64))).map (· - base / 64)
  let slab := { v with
    ctxs := Tbl.mapV (fun _ (x : Ctx) => { x.clean s.cyc with str := x.str.map fun (st : Stream) => if st.out then st else { st with ahead := [] } }) v.ctxs
    l1 := [], parts := [], asids := [], tlb := [], icache := [] }
  let out := s.saveOut k g t groups lines
  let s := s.updGroup k g fun x => { x with
    slab := some slab, spad := cells, spadBad := bad, whole := lines.isNone, out, phase := 3, reqs := s.reqs.filter fun r => decide (r.tile = t) }
  { s with reqs := s.reqs.filter fun r => decide (r.tile ≠ t)
           tiles := Tbl.put s.tiles t { v.vacate with l1 := [] }
           mem := { s.mem with poison := s.mem.poison.filter fun l => !inside (64 * l) } }

/-- MIGRATION_SAVE (R98, R119, R120, R123, R124): a quiesced group leaves its tile, whose slots are vacated from then on (log 60); then its slab and save
set are written, with the cycle in which the save completes (R123). A page that is not present is waited for, and a missing right ends the launch with FAULT. -/
def execMigrationSave (part num group : Nat) (s : State) : Out :=
  let k := part * 65536 + num
  match s.group? k group with
  | none => .next s
  | some (l, x) =>
    let t := x.tile
    if x.place ≠ .migrating then .next s
    else if x.phase = 2 then
      if s.quiesced k group t = false then .next (s.withdrawStuck t)
      else
        let s := ((s.gatherTile t).releasesDone t).saveCopies k group
        let (lines, bad) := s.saveSet k group t x.whole
        let s := bad.foldl (fun (s : State) c => s.pushRec part { kind := 3, code := 66, launch := num, group, ctx := c, gen := (s.ctx t c).gen, tile := t
                                                                  addr := (s.ctx t c).lastCkpt, at_ := s.CYC }) s
        .next ((s.lift k group t l.r.groups lines).wakeWaiters k t)
    else if x.phase ≠ 3 ∨ s.waitsFor part .save k = true then .next s
    else if l.st = .ending then .next (s.stay k group)
    else match s.saveFields part l.r.save (x.out.map fun f => if f.1.1 = 0x1018 + group * 0x80000 then ((f.1.1, f.1.2.1, s.CYC), f.2) else f) with
      | .waits pva w => .next (s.engWait .save k part num group none pva w)
      | .fail => .next ((s.stay k group).endLaunch k [])
      | .ok s _ _ => .next (s.updGroup k group fun x => { x with out := [], phase := 4, place := if x.target.isNone then .displaced else x.place })

/-- A context as it resumes (R109, R111, R119, R124): what it is parked on re-evaluates its latched instruction, but for a WAITW or WAITC, which reads its word
again at its home. -/
def Ctx.resume (x : Ctx) (n : Nat) (ending : Bool) : Ctx :=
  let x := { x with ckptStop := false, swapNow := false }
  let x := if [2, 5, 6, 7, 12].contains x.park then { x with park := 0, readyAt := max x.readyAt (n + 1) } else { x with parkedAt := n }
  if ending ∧ (x.state = .slotted ∨ x.state = .cached) then { x with state := .stopped, park := 0 } else x

/-- R260: an acknowledgement with its action reaches a context that a replayable trap stopped. -/
def State.ackCtx (s : State) (t c action : Nat) (r : TrapRec) : State :=
  if action = 0 then s.replay t c
  else (s.updCtx t c fun x => { x with park := 0 }).endLaunch r.ref [{ r with kind := 1, at_ := s.CYC }]

/-- MIGRATION_RESTORE (R119, R122 to R124): SSTATE becomes 2, the group starts on its new tile, its copies are issued again, and its contexts
go on; a terminal trap of its wait ends the launch now. -/
def execMigrationRestore (part num group : Nat) (s : State) : Out :=
  let k := part * 65536 + num
  match s.group? k group with
  | none => .next s
  | some (l, x) =>
    match x.slab, x.target with
    | some slab, some t =>
      if x.phase ≠ 4 then .next s else
      let go := fun (s : State) =>
        let old := x.tile
        let v := s.tile t
        let base := spadPa t 0
        let inside := fun (pa : Nat) => decide (base ≤ pa) && decide (pa < base + 0x80000)
        let ending := decide (l.st = .ending)
        let cells := (s.mem.cells.filter fun c => !inside c.1)
        let cells := x.spad.foldl (fun m c => Mem.putCell m (base + c.1) c.2) cells
        let new : Tile := { slab with
          grp := some ⟨k, group⟩, l1 := v.l1, asids := v.asids, tlb := v.tlb, quiet := false
          junk := if x.whole then slab.junk else s.nextId
          reasm := slab.reasm.map (·.unpause s.cyc)
          ctxs := Tbl.mapV (fun _ (y : Ctx) => y.reload.resume s.cyc ending) slab.ctxs }
        let s := State.fresh { s with
          tiles := Tbl.put s.tiles t new
          mem := { s.mem with cells, poison := x.spadBad.map (· + base / 64) ++ s.mem.poison.filter fun n => !inside (64 * n) }
          flits := s.flits.map fun m => if m.launch = k ∧ m.srcGroup = group then { m with f := { m.f with srcTile := t } } else m
          reqs := s.reqs ++ x.reqs.map fun r => { r with tile := t }
          rreads := s.rreads.map fun r => if r.launch = k ∧ r.group = group ∧ r.tile = old then { r with tile := t } else r }
        let s := s.updGroup k group fun _ => { tile := t, ends := x.ends }
        let mine := s.savedCopies.filter fun c => decide (c.key = k) && decide (c.group = group)
        let here := fun (c : CopyCmd) => { c with tile := t, die := (s.dieRole t c.role).getD c.die }
        let s := { s with
          savedCopies := s.savedCopies.filter fun c => !(decide (c.key = k) && decide (c.group = group))
          copyMsgs := s.copyMsgs.map fun c => if c.key = k ∧ c.group = group then here c else c }
        let s := mine.foldl (fun (s : State) c =>
          let c := here c
          { s with queues := Tbl.put s.queues c.queue (Tbl.getD s.queues c.queue [] ++ [c]) }) s
        let s := if bits (s.pfr 0xA400).toNat 11 0 = group then s.moveEnds k else s
        let s := s.grantUnits t
        let s := s.tiles.foldl (fun (s : State) q => if q.2.grp.map (·.launch) = some k then q.2.ctxs.foldl (fun (s : State) y => s.wakeStream q.1 y.1) s else s) s
        let s := (s.tiles.map (·.1)).foldl (fun (s : State) u => s.releaseTile u) s
        let s := x.acks.foldl (fun (s : State) a => match Tbl.find? (s.tq part).live a.2 with
          | some r => (s.setTq part { s.tq part with live := Tbl.erase (s.tq part).live a.2 }).ackCtx t r.ctx a.1 r
          | none => s) s
        if x.ends.isEmpty then s else s.endLaunch k []
      if (s.tile t).grp.isSome || s.waitsFor part .save k then .next s
      else match s.saveFields part (l.r.save + 0x1000 + group * 0x80000) [((6, 1, 2), false)] with
        | .ok s _ _ => .next (go s)
        | .fail => .next ((go s).endLaunch k [])
        | .waits pva w => if l.st = .ending then .next (go s) else .next (s.engWait .save k part num group none pva w)
    | _, _ => .next s

/-- R87, R98: whether a displaced group may take a tile: no group runs on it, moves to it, or holds it, but for the tiles of its own set. -/
def State.resumeFree (s : State) (k : Nat) (own : List Nat) (t : Nat) : Bool :=
  s.usable t && (s.tile t).grp.isNone && s.launches.all fun q => q.2.groups.all fun y =>
    (decide (q.1 = k) && own.contains y.1) || (decide (y.2.target ≠ some t) && decide (y.2.tile ≠ t))

/-- R98: the tiles on which a displaced group may resume: with feature bit 9 a free one of its cluster, or, where its whole cluster group is displaced,
the first cluster with room for all of it; without it only the tiles left. -/
def State.resumeTiles (s : State) (k : Nat) (l : Launch) (g : Nat) (x : GroupSt) : List (Nat × Nat) :=
  let free := s.resumeFree k [g]
  if free x.tile then [(g, x.tile)]
  else if !s.feature 9 then []
  else match ((List.range 8).map (x.tile / 8 * 8 + ·)).find? free with
    | some t => [(g, t)]
    | none =>
      let (d, c, _) := l.r.members g
      let all := (List.range l.r.tiles).map fun m => l.r.groupOf d c m
      let gone := all.all fun n => match Tbl.find? l.groups n with | some y => decide (y.place = .displaced) && y.target.isNone | none => false
      let room := fun (n : Nat) => ((List.range 8).map (8 * n + ·)).filter (s.resumeFree k all)
      match (if gone then (List.range 512).find? fun n => s.partHas l.part n && decide (l.r.tiles ≤ (room n).length) else none) with
      | some n => all.zip (room n)
      | none => []

/-- DISPLACED_GROUP_RESUME (R98): a tile is chosen for a displaced group, whose restore follows. A class-0 launch that waits for room goes first, and a
launch that ends resumes no more. -/
def execDisplacedGroupResume (part num group : Nat) (s : State) : Out :=
  let k := part * 65536 + num
  match s.group? k group with
  | none => .next s
  | some (l, x) =>
    if x.place ≠ .displaced ∨ x.target.isSome = true ∨ l.st = .ending ∨ (s.waiting part).any (fun q => decide (q.2.r.cls = 0)) = true then .next s
    else .next ((s.resumeTiles k l group x).foldl (fun (s : State) q => s.updGroup k q.1 fun y => { y with target := some q.2 }) s)

/-! ## The context cache's records (R115) -/

/-- CONTEXT_RECORD_WRITEBACK (R115): a cached context's dirty registers are written to its record and their bits cleared; while a page of the record is
waited for, the context stays in the cache. -/
def execContextRecordWriteback (tile ctx : Nat) (s : State) : Out :=
  let x := s.ctx tile ctx
  match (s.tile tile).grp, s.launchOf tile with
  | some g, some l =>
    let fs := x.dirtyFields s.cyc
    if x.state ≠ .cached ∨ fs.isEmpty ∨ (s.tile tile).quiet = true ∨ s.waitsFor l.part .save g.launch = true then .next s
    else
      let base := l.r.save + 0x1000 + g.idx * 0x80000 + 0x8000 + ctx * 0x400
      match s.saveFields l.part base fs with
      | .ok s _ _ => .next (s.updCtx tile ctx fun x => x.clean s.cyc)
      | .fail => .next (s.endLaunch g.launch [])
      | .waits pva w => .next ((s.engWait .save g.launch l.part l.num g.idx (some (ctx, x.gen)) pva w).updCtx tile ctx fun x => { x with recWait := true })
  | _, _ => .next s

end Sys2Proof.Machine
end

