-- ==== Sys2Proof/Machine/RegisterMap.lean ====
section
/-!
DEFINITION. The register maps (R8, R9): REGISTER_WRITE for the registers that have no row of their own, and what a host read of a register returns.
-/
namespace Sys2Proof.Machine

/-- The bits hi..lo set. -/
def span (hi lo : Nat) : Nat := 2 ^ (hi + 1) - 2 ^ lo

/-- The writable bits of the PF register word at an offset, for the registers that no event row of the opcode table writes: those of R36, R55, R61, R63,
R66, R69, R93, R97, R174, R180 and R202. -/
def pfMask (off : Nat) : Nat :=
  let within := fun (lo hi : Nat) => decide (lo ≤ off) && decide (off < hi)
  if within 0x4000 0x4800 then
    match off % 32 / 8 with
    | 0 => span 51 0
    | 1 => span 44 0
    | 2 => span 29 24 + span 16 16 + span 7 0
    | _ => span 63 52
  else if within 0x6000 0x6800 then (if off % 32 = 0x10 then span 16 0 else 0)
  else if off = 0x6800 then span 31 0
  else if within 0x8000 0xA000 then (if off % 128 < 0x40 then span 63 0 else if off % 128 = 0x40 then span 4 2 else 0)
  else if within 0xA000 0xA200 then span 23 0
  else if within 0xA200 0xA400 then span 63 0
  else if within 0xB000 0xB200 then span 16 16 + span 12 0
  else if off = 0xB400 ∨ off = 0xB800 then span 63 0
  else if within 0x40000 0x48000 then (if off % 64 = 0x18 then span 63 33 + span 31 0 else span 63 0)
  else if within 0x70000 0x80000 then (if off % 0x100 = 0x40 then span 51 14 else 0)
  else if within 0x100000 0x200000 then
    let o := off % 128
    if o = 0 then span 51 14 + span 0 0
    else if o = 8 then span 5 0 + span 11 8
    else if o < 0x50 then (if o % 16 = 0 then span 51 21 + span 0 0 else span 51 14)
    else 0
  else 0

/-- Whether a PF register word takes no write now: an endpoint entry that is bound (R36), a partition entry that is enabled (R69). -/
def State.pfLocked (s : State) (off : Nat) : Bool :=
  if 0x40000 ≤ off ∧ off < 0x48000 then s.epBound ((off - 0x40000) / 64)
  else if 0x8000 ≤ off ∧ off < 0xA000 then bit (s.pfr (ptCtl ((off - 0x8000) / 128))).toNat 0
  else false

/-- The writable bits of a VF register word (R70). -/
def vfMask (off : Nat) : Nat :=
  match off with
  | 0x40 => span 63 12
  | 0x48 => span 8 8 + span 4 0
  | 0x68 => span 51 34
  | 0x70 => span 12 0
  | _ => 0

/-- The bytes of a write inside the word of its register: the bits they cover and their value there. -/
def lanes (off size v : Nat) : Nat × Nat :=
  let sh := 8 * (off % 8)
  ((2 ^ (8 * size) - 1) * 2 ^ sh, v % 2 ^ (8 * size) * 2 ^ sh)

/-- A write of the PF's window C. -/
def State.pfWrite (s : State) (off size v : Nat) : State :=
  let w := off / 8 * 8
  let (m, d) := lanes off size v
  if w = 0x40 then (if bit d 3 then { s with power := { s.power with thermEv := false } } else s)
  else if w = 8 then
    let len := (s.boot.rcvLen * 2 ^ 32 &&& (2 ^ 64 - 1 - m % 2 ^ 64)) ||| d
    { s with boot := { s.boot with rcvLen := bits len 63 32 } }
  else if 0x6000 ≤ w ∧ w < 0x6800 ∧ w % 32 = 8 then
    (if bit d 17 then { s with pools := Tbl.put s.pools ((w - 0x6000) / 32) { s.pool ((w - 0x6000) / 32) with rej := false } } else s)
  else if s.pfLocked w then s
  else
    let k := pfMask w &&& m
    if k = 0 then s else s.setPf w (BitVec.ofNat 64 (((s.pfr w).toNat &&& (2 ^ 64 - 1 - k)) ||| (d &&& k)))

/-- A write of a VF's window C. CQ_CTL with LOG2N outside 6 to 16 leaves EN clear (R70). -/
def State.vfWrite (s : State) (fn off size v : Nat) : State :=
  let w := off / 8 * 8
  let (m, d) := lanes off size v
  let p := fn - 1
  if w = 0 then (if bit d 2 then s.setVf fn 0 (s.vfReg fn 0 &&& ~~~4) else s)
  else if w = 0x80 then
    let b := ((s.tq p).base.toNat &&& (2 ^ 64 - 1 - m)) ||| d
    s.setTq p { s.tq p with base := BitVec.ofNat 64 (b / 4096 * 4096) }
  else if w = 0x88 then (if m % 2 = 1 ∧ d % 2 = 0 then s.setTq p { s.tq p with en := false } else s)
  else
    let k := vfMask w &&& m
    let n := ((s.vfReg fn w).toNat &&& (2 ^ 64 - 1 - k)) ||| (d &&& k)
    let n := if w = 0x48 ∧ (n % 32 < 6 ∨ 16 < n % 32) then n % 32 else n
    if k = 0 then s else s.setVf fn w (BitVec.ofNat 64 n)

/-- REGISTER_WRITE (R8, R9): a host write of 1 to 8 bytes within one register word; fields that are reserved or read-only ignore it. fn is 0 for the PF and n
for VF n. Enabling the ring lets waiting records be written (R84). -/
def execRegisterWrite (fn off size v : Nat) (s : State) : Out :=
  if size = 0 ∨ 8 < off % 8 + size then .next s
  else if fn = 0 then .next (s.pfWrite off size v)
  else if !s.vfOn then .next s
  else
    let s := s.vfWrite fn off size v
    .next (s.flushRing fn (Tbl.getD s.rings fn []).length)

/-! ## Reads (R23, R26, R37, R38, R61, R63, R69, R70, R73) -/

/-- The bits that a register returns, where it holds reserved ones as written for the check that refuses them (R9, R36, R180, R202). -/
def pfSeen (off : Nat) : Nat :=
  if off = 0xB400 then span 51 21
  else if off = 0xB800 then span 51 6
  else if 0x40000 ≤ off ∧ off < 0x48000 then (if off % 64 < 0x18 then span 63 0 else if off % 64 = 0x18 then span 34 24 + span 21 0 else 0)
  else span 63 0

/-- What a host read of 8 bytes of the PF's window C returns. Reserved and write-only fields and registers that are not there read zero. DESIGN CHOICE (log
55): DQ_CTL.EN reads as it was last written, so 0 while a queue that is being closed still takes entries (R61). -/
def State.pfRead (s : State) (off : Nat) : Nat :=
  let within := fun (lo hi : Nat) => decide (lo ≤ off) && decide (off < hi)
  if off = 0 then s.boot.secVer * 2 ^ 16 + s.boot.fail * 2 ^ 4 + s.boot.phase
  else if off = 8 then s.boot.rcvLen * 2 ^ 32
  else if off = 0x40 then
    s.power.tj * 2 ^ 32 + s.power.watts * 2 ^ 16 + 8 * b2n s.power.thermEv + 4 * b2n s.power.narrowAct + s.power.clk
  else if within 0x100 0x120 then (if s.boot.phase = 3 then bits s.boot.offer (8 * (off - 0x100) + 63) (8 * (off - 0x100)) else 0)
  else if within 0x2000 0x3000 then
    let e := s.endpoint ((off - 0x2000) / 8)
    e.authFail * 2 ^ 48 + e.keyFail * 2 ^ 32 + e.tagDrop * 2 ^ 16 + 2 * b2n e.cfgErr
  else if within 0x6000 0x6800 ∧ off % 32 = 8 then
    let p := (off - 0x6000) / 32
    (s.pages.filter fun (x : PageSvc) => decide (x.part = p) && x.frame.isNone).length * 2 ^ 32 + b2n (s.pool p).rej * 2 ^ 17 + (s.pool p).frames.length
  else if within 0x8000 0xA000 ∧ off % 128 = 0x40 then (s.pfr off).toNat + 32 * b2n (s.part ((off - 0x8000) / 128)).halted
  else if off = 0xA400 then 0
  else if within 0xA640 0xA680 then bits s.gated (8 * (off - 0xA640) + 63) (8 * (off - 0xA640))
  else if within 0x30000 0x31000 then
    let x := s.slice ((off - 0x30000) / 8)
    x.count + b2n x.ret * 2 ^ 16 + b2n x.last * 2 ^ 17
  else if within 0x50000 0x52000 then
    (if off % 128 = 0x40 then
      let d := s.domain ((off - 0x50000) / 128)
      d.sdi.toNat * 2 ^ 32 + 4 * b2n d.valid1 + 2 * b2n d.valid0 + b2n d.tx
    else 0)
  else if within 0x70000 0x80000 then
    let d := s.dq ((off - 0x70000) / 0x1000) ((off - 0x70000) % 0x1000 / 0x100)
    match off % 0x100 with
    | 0x40 => (s.pfr off).toNat
    | 0x48 => (s.pfr off).toNat
    | 0x50 => 1024 - d.subs.length + d.tail * 2 ^ 16 + d.discards * 2 ^ 32
    | 0x58 => b2n (d.en && !d.off) + 2 * b2n d.irq
    | _ => 0
  else (s.pfr off).toNat &&& pfSeen off

/-- What a host read of 8 bytes of a VF's window C returns. -/
def State.vfRead (s : State) (fn off : Nat) : Nat :=
  let p := fn - 1
  if !s.vfOn then 0 else
  match off with
  | 0 => (s.part p).haltSum.toNat / 2 ^ 32 * 2 ^ 32 + bits (s.vfReg fn 0).toNat 2 2 * 4 + 2 * b2n (s.part p).halted + b2n (s.ready p)
  | 0x20 => bits s.feats 63 0
  | 0x28 => bits s.feats 127 64
  | 0x30 => bits s.feats 191 128
  | 0x38 => bits s.feats 255 192
  | 0x60 => (List.range 16).foldl (fun n w => let x := s.window fn w; if x.run.isSome || !x.q.isEmpty then n + 2 ^ (16 + w) else n) 0
  | 0x80 => (s.tq p).base.toNat
  | 0x88 => b2n (s.tq p).en
  | 0x90 => (s.tq p).tail % 2 ^ 32
  | 0x98 => (s.tq p).head % 2 ^ 32
  | 0xA8 => (s.tq p).lost
  | _ => if off = 0x40 ∨ off = 0x48 ∨ off = 0x50 ∨ off = 0x58 ∨ off = 0x68 ∨ off = 0x70 then (s.vfReg fn off).toNat else 0

/-- CREDIT of a command window (R73). -/
def State.credit (s : State) (vf w : Nat) : Nat := (s.window vf w).free + (s.window vf w).discards * 2 ^ 16
/-- What a host read of 8 bytes at an offset of command window w returns (R73): CREDIT at 0xFC0, zero elsewhere. -/
def State.windowRead (s : State) (vf w off : Nat) : Nat := if s.vfOn ∧ off = 0xFC0 then s.credit vf w else 0

end Sys2Proof.Machine
end

