-- ==== Sys2Proof/Machine/ScalarFloat.lean ====
section
/-!
DEFINITION. The scalar FP32 instructions of R310 to R319.
-/
namespace Sys2Proof.Machine

/-- R310: sources are the low 32 bits of their registers. -/
def low (v : Word) : Nat := v.toNat % 2 ^ 32

/-- A fixed-latency float instruction (R311): f gives the result and the flags from the sources and RND; the flags are raised
when the result lands, even for x0. -/
def fpFixed (S : Nat) (s : State) (srcs : List Nat) (d lat : Nat) (f : List Word → Nat → Nat × Nat) : Out :=
  issue S s fun s t c => withOps s t c srcs [d] fun vs s =>
    let (v, fl) := f vs (s.ctx t c).rnd.toNat
    .done ((s.setX t c d (BitVec.ofNat 64 v) lat).addFfl t c (BitVec.ofNat 8 fl) lat)

/-- FDIV and FSQRT (R311): the tile's FP divide unit serves them in issue order; the destination is pending. -/
def fpUnit (S : Nat) (s : State) (srcs : List Nat) (d : Nat) (f : List Word → Nat → Nat × Nat) : Out :=
  issue S s fun s t c => withOps s t c srcs [d] fun vs s =>
    let (v, fl) := f vs (s.ctx t c).rnd.toNat
    let op : UnitOp := { ctx := c, gen := (s.ctx t c).gen, dst := d, val := BitVec.ofNat 64 v, flags := BitVec.ofNat 8 fl }
    .done ((s.setPending t c d).updTile t fun v => { v with fdivq := v.fdivq ++ [op] })

/-- A value with its flags rounded once into FP32 by MODE (R310). -/
def fpRound (rnd : Nat) (r : Val × Nat) : Nat × Nat :=
  let (b, fl) := Num.toFp32 (Num.rmode rnd) r.1
  (b, r.2 ||| fl)
/-- A sum or product with its invalid condition (R312). -/
def inv (r : Val × Bool) : Val × Nat := (r.1, if r.2 then NV else 0)
/-- The sources as FP32 values. -/
def f1 (vs : List Word) : Val := Num.fp32 (low (arg1 vs))
def f2 (vs : List Word) : Val := Num.fp32 (low (arg2 vs))
def f3 (vs : List Word) : Val := Num.fp32 (low (arg3 vs))
/-- R314: a relation between FP32 values. -/
def rel (p : Ordering → Bool) (vs : List Word) : Nat × Nat :=
  (match Num.cmp (f1 vs) (f2 vs) with | some r => b2n (p r) | none => 0, 0)
/-- R315: the magnitude of the first source with sign bit g of the two. -/
def inject (g : Nat → Nat → Nat) (vs : List Word) : Nat × Nat :=
  (low (arg1 vs) % 2 ^ 31 + 2 ^ 31 * g (low (arg1 vs) / 2 ^ 31) (low (arg2 vs) / 2 ^ 31), 0)
/-- R317: the class of an FP32 value, one bit of nine. -/
def fclass (b : Nat) : Nat :=
  let neg := b / 2 ^ 31 = 1
  let e := b / 2 ^ 23 % 256
  let m := b % 2 ^ 23
  let k := if e = 255 then (if m ≠ 0 then 8 else if neg then 0 else 7)
    else if e = 0 then (if m = 0 then (if neg then 3 else 4) else if neg then 2 else 5)
    else if neg then 1 else 6
  2 ^ k
/-- R318: FP32 to a w-bit signed integer, sign-extended to 64 bits. -/
def toInt (w : Nat) (vs : List Word) (rnd : Nat) : Nat × Nat :=
  let (i, fl) := Num.floatToInt (-(2 ^ (w - 1) : Nat)) ((2 ^ (w - 1) : Nat) - 1) (Num.rmode rnd) (Num.risat rnd) (f1 vs)
  (wrap 64 i, fl)

/-- FADD (R312). -/
def execFadd (S d a b : Nat) (s : State) : Out :=
  fpFixed S s [a, b] d 8 fun vs rnd => fpRound rnd (inv (Num.sum (Num.rmode rnd) [f1 vs, f2 vs]))
/-- FSUB (R312). -/
def execFsub (S d a b : Nat) (s : State) : Out :=
  fpFixed S s [a, b] d 8 fun vs rnd => fpRound rnd (inv (Num.sum (Num.rmode rnd) [f1 vs, Num.negate (f2 vs)]))
/-- FMUL (R312). -/
def execFmul (S d a b : Nat) (s : State) : Out :=
  fpFixed S s [a, b] d 8 fun vs rnd => fpRound rnd (inv (Num.mul (f1 vs) (f2 vs)))
/-- FDIV (R312, R163). -/
def execFdiv (S d a b : Nat) (s : State) : Out :=
  fpUnit S s [a, b] d fun vs rnd => fpRound rnd (Num.div (f1 vs) (f2 vs))
/-- FMAC (R312). -/
def execFmac (S d a b : Nat) (s : State) : Out :=
  fpFixed S s [a, b, d] d 8 fun vs rnd => fpRound rnd (Num.fma (Num.rmode rnd) (f1 vs) (f2 vs) (f3 vs))
/-- FMIN (R313). -/
def execFmin (S d a b : Nat) (s : State) : Out :=
  fpFixed S s [a, b] d 8 fun vs _ => ((Num.toFp32 0 (Num.minV (f1 vs) (f2 vs))).1, 0)
/-- FMAX (R313). -/
def execFmax (S d a b : Nat) (s : State) : Out :=
  fpFixed S s [a, b] d 8 fun vs _ => ((Num.toFp32 0 (Num.maxV (f1 vs) (f2 vs))).1, 0)
/-- FEQ (R314). -/
def execFeq (S d a b : Nat) (s : State) : Out :=
  fpFixed S s [a, b] d 8 fun vs _ => rel (fun r => r == .eq) vs
/-- FLT (R314). -/
def execFlt (S d a b : Nat) (s : State) : Out :=
  fpFixed S s [a, b] d 8 fun vs _ => rel (fun r => r == .lt) vs
/-- FLE (R314). -/
def execFle (S d a b : Nat) (s : State) : Out :=
  fpFixed S s [a, b] d 8 fun vs _ => rel (fun r => r != .gt) vs
/-- FSGNJ (R315). -/
def execFsgnj (S d a b : Nat) (s : State) : Out :=
  fpFixed S s [a, b] d 8 fun vs _ => inject (fun _ y => y) vs
/-- FSGNJN (R315). -/
def execFsgnjn (S d a b : Nat) (s : State) : Out :=
  fpFixed S s [a, b] d 8 fun vs _ => inject (fun _ y => 1 - y) vs
/-- FSGNJX (R315). -/
def execFsgnjx (S d a b : Nat) (s : State) : Out :=
  fpFixed S s [a, b] d 8 fun vs _ => inject (fun x y => (x + y) % 2) vs
/-- FSQRT (R316, R163). -/
def execFsqrt (S d a : Nat) (s : State) : Out :=
  fpUnit S s [a] d fun vs rnd => fpRound rnd (Num.sqrt (f1 vs))
/-- FCLASS (R317). -/
def execFclass (S d a : Nat) (s : State) : Out :=
  fpFixed S s [a] d 8 fun vs _ => (fclass (low (arg1 vs)), 0)
/-- FCVTWS (R318). -/
def execFcvtws (S d a : Nat) (s : State) : Out :=
  fpFixed S s [a] d 8 fun vs rnd => toInt 32 vs rnd
/-- FCVTSW (R318). -/
def execFcvtsw (S d a : Nat) (s : State) : Out :=
  fpFixed S s [a] d 8 fun vs rnd => fpRound rnd (Num.ofInt (sgn 32 (low (arg1 vs))), 0)
/-- FCVTLS (R318). -/
def execFcvtls (S d a : Nat) (s : State) : Out :=
  fpFixed S s [a] d 8 fun vs rnd => toInt 64 vs rnd
/-- FCVTSL (R318). -/
def execFcvtsl (S d a : Nat) (s : State) : Out :=
  fpFixed S s [a] d 8 fun vs rnd => fpRound rnd (Num.ofInt (sgn 64 (arg1 vs).toNat), 0)
/-- FEXP2 (R316, R163). -/
def execFexp2 (S d a : Nat) (s : State) : Out :=
  fpFixed S s [a] d 12 fun vs rnd => fpRound rnd (Num.exp2 (f1 vs))
/-- FLOG2 (R316, R163). -/
def execFlog2 (S d a : Nat) (s : State) : Out :=
  fpFixed S s [a] d 12 fun vs rnd => fpRound rnd (Num.log2 (f1 vs))
/-- FRCP (R316, R163). -/
def execFrcp (S d a : Nat) (s : State) : Out :=
  fpFixed S s [a] d 12 fun vs rnd => fpRound rnd (Num.div (Num.ofInt 1) (f1 vs))
/-- FRSQ (R316, R163). -/
def execFrsq (S d a : Nat) (s : State) : Out :=
  fpFixed S s [a] d 12 fun vs rnd => fpRound rnd (Num.rsqrt (f1 vs))

/-- R319: codes 18 to 31 trap FORMAT before any operand is used. -/
def withFmt (S : Nat) (s : State) (fmt : Nat) (k : Out) : Out :=
  if 17 < fmt then issue S s fun s _ _ => .fail s causeFormat else k

/-- FPACK (R319, R158, R148). -/
def execFpack (S d a fmt : Nat) (s : State) : Out :=
  withFmt S s fmt (fpFixed S s [a] d 8 fun vs rnd => Num.encode fmt rnd (f1 vs))
/-- FUNPK (R319): exact except where the integer is beyond FP32, and that rounding raises NX; the TERN2 pattern 0b10 gives +0
and sets NV. -/
def execFunpk (S d a fmt : Nat) (s : State) : Out :=
  withFmt S s fmt (fpFixed S s [a] d 8 fun vs rnd =>
    let (v, bad) := Num.decode fmt ((arg1 vs).toNat % 2 ^ Num.width fmt)
    fpRound rnd (v, if bad then NV else 0))

end Sys2Proof.Machine
end

