-- ==== Sys2Proof/Machine/TileEvents.lean ====
section
/-!
DEFINITION. What happens at a tile besides its instructions: the fetch of instruction words (R275, R293), swaps (R113, R114), and the trap queue's
answers (R258, R260, R262).
-/
namespace Sys2Proof.Machine

/-! ## Instruction fetch (R133, R178, R293) -/

/-- The key of an instruction word in a tile's cache: its ASID and PVA. -/
def icKey (asid pva : Nat) : Nat := asid * 2 ^ 52 + pva

/-- What fetching at a context's pc gives: the cached word, a word to bring in, a trap, or a fault to wait on. -/
inductive Fetch | word (w : W32) | miss (pa : Nat) (e : Xlat) (key : Nat) | trap (cause : Nat) | absent (pva : Nat)
  deriving DecidableEq, Repr

/-- The word that memory now holds at the PVA of a word in the instruction cache, where it is another one. -/
def State.newer (s : State) (t asid pva : Nat) (w : W32) : Option W32 :=
  match s.xlate t asid pva false false true false with
  | .ok e pa =>
    let m := BitVec.ofNat 32 (s.readN (s.partOf t) e.tenant e.shu pa 4)
    if m = w then none else some m
  | _ => none
/-- R279: a word that has been stored to is fetched as the old one or the new one: a free choice at each fetch, by the counter uses (log 71). -/
def State.oldOrNew (s : State) (t asid pva : Nat) (w : W32) : W32 :=
  match s.newer t asid pva w with
  | some m => if bit (Config.freeWord 4 s.uses).toNat 0 then m else w
  | none => w

/-- The fetch of the word at the pc of context c, under its segments and the X right; a word in the instruction cache needs no translation. -/
def State.fetch (s : State) (t c : Nat) : Fetch :=
  let x := s.ctx t c
  match s.segCheck t x.seg x.pc.toNat 4 false false true with
  | .error k => .trap k
  | .ok (.spad _ _) => .trap causeSegRights
  | .ok (.mem pva) =>
    let asid := (s.partAsid (s.partOf t)).1
    match Tbl.find? (s.tile t).icache (icKey asid pva) with
    | some w => .word (s.oldOrNew t asid pva w)
    | none => match s.xlate t asid pva false false true false with
      | .rights => .trap causePageRights
      | .absent => .absent pva
      | .ok e pa => .miss pa e (icKey asid pva)

/-- Whether the fetch at the pc of a context takes a free choice. -/
def State.fetchOpen (s : State) (t c : Nat) : Bool :=
  let x := s.ctx t c
  match s.segCheck t x.seg x.pc.toNat 4 false false true with
  | .ok (.mem pva) =>
    let asid := (s.partAsid (s.partOf t)).1
    (match Tbl.find? (s.tile t).icache (icKey asid pva) with | some w => (s.newer t asid pva w).isSome | none => false)
  | _ => false
/-- The state after the fetch of the word that a context issues has used its free value. -/
def State.spendFetch (s : State) (t c : Nat) : State :=
  if (s.ctx t c).latch.isNone && s.fetchOpen t c then { s with uses := s.uses + 1 } else s

/-- Whether a context would issue the word at its pc: slotted, not parked, with nothing latched. -/
def Ctx.fetches (x : Ctx) : Bool := x.state = .slotted && x.park = 0 && !x.busy && x.latch.isNone && x.deferred.isNone

/-- Words in a tile's instruction cache of 32 KiB (R1). -/
def icWords : Nat := 8192
/-- R1: the instruction cache with one more word. A full one drops another: DESIGN CHOICE (log 22), the other one of the lowest ASID and PVA. -/
def icPut (m : Table W32) (key : Nat) (w : W32) : Table W32 :=
  let m := Tbl.put m key w
  if m.length ≤ icWords then m else match m.find? fun e => decide (e.1 ≠ key) with | some e => Tbl.erase m e.1 | none => m

/-- INSTRUCTION_CACHE_FILL (R170, R293): the word arrives from its home, or the fetch ends in a trap or a fault at that address, and is made again after
an acknowledgement. -/
def execInstructionCacheFill (tile ctx : Nat) (s : State) : Out :=
  let x := s.ctx tile ctx
  let stop := fun (s : State) (k : Nat) => Host.Outcome.next (s.takeTrap tile ctx { cause := k, pc := x.pc, addr := x.pc, fetch := true })
  if !x.fetches || (s.tile tile).quiet || x.ckptStop then .next s
  else match s.fetch tile ctx with
    | .word _ => .next s
    | .trap k => stop s k
    | .absent pva => .next ((s.pageFault tile ctx pva x.pc.toNat false false true false).parkWith tile ctx 9 none)
    | .miss pa e key =>
      let p := s.partOf tile
      if s.rejectsAt tile pa 4 e.shu then stop s causePageRights
      else
        let s := (s.tlbFill tile e).serve p e.tenant (pa / 64) e.shu
        if s.readBad p e.tenant e.shu (pa / 64) then stop s causePoison
        else .next (s.updTile tile fun v => { v with icache := icPut v.icache key (BitVec.ofNat 32 (s.readN p e.tenant e.shu pa 4)) })

/-! ## Swaps (R107, R113, R114) -/

/-- SWAP_TH of the launch on a tile (R88). -/
def State.swapTh (s : State) (t : Nat) : Nat := match s.launchOf t with | some l => l.r.swapTh | none => 4096

/-- SWAP_THRESHOLD_REACHED (R113): a slotted context parked for SWAP_TH cycles becomes swap-eligible. -/
def execSwapThresholdReached (tile ctx : Nat) (s : State) : Out :=
  let x := s.ctx tile ctx
  if x.state = .slotted ∧ x.park ≠ 0 ∧ ctx ≠ 0 ∧ ctx ≠ 15 ∧ x.parkedAt + s.swapTh tile ≤ s.cyc then
    .next (s.updCtx tile ctx fun x => { x with swapNow := true })
  else .next s

/-- R113: whether a context waits on a storage-backed page, wherever its fault is. -/
def State.onStorage (s : State) (t c : Nat) : Bool :=
  (s.ctx t c).park = 9 && s.faults.any fun f => f.who = .ctx && (s.tile t).grp = some ⟨f.launch, f.group⟩ && decide (f.ctx = c) && decide (f.gen = (s.ctx t c).gen)
    && (match s.walk (s.asidOf f.tile f.asid) f.part f.pva (s.partAsid f.part).2 with | .storage _ _ _ _ _ _ => true | _ => false)

/-- R113: the slotted context that leaves: the swap-eligible one that has been parked longest, the lower slot on a tie; one that has yielded is not
parked and comes last. -/
def State.leavingCtx (s : State) (t : Nat) : Option (Nat × Nat) :=
  let es := (s.tile t).ctxs.filterMap fun q => match q.2.slot with
    | some n => if q.2.state = .slotted ∧ q.1 ≠ 0 ∧ q.1 ≠ 15 ∧ !q.2.busy ∧ (q.2.swapNow ∨ s.onStorage t q.1 = true) then
        some (q.1, n, if q.2.park = 0 then s.cyc else q.2.parkedAt) else none
    | none => none
  (es.foldl (fun (b : Option (Nat × Nat × Nat)) e => match b with
    | none => some e
    | some d => if e.2.2 < d.2.2 ∨ (e.2.2 = d.2.2 ∧ e.2.1 < d.2.1) then some e else b) none).map fun e => (e.1, e.2.1)

/-- A context leaves its slot for the context cache: its input prefetch is discarded and its stream units are released (R114, R131). -/
def State.leaveSlot (s : State) (t c : Nat) : State :=
  (s.updCtx t c fun x => { x with state := .cached, slot := none, swapNow := false
                                  str := x.str.map fun (st : Stream) => if st.out then { st with unit := false } else { st with unit := false, ahead := [] } }).grantUnits t

/-- CONTEXT_SWAP (R107, R113, R114): a swap ends and its context enters the slot; or a free slot takes a ready cached context; or a swap begins, once
the leaving context's output streams have drained. -/
def execContextSwap (tile : Nat) (s : State) : Out :=
  let v := s.tile tile
  match v.swap with
  | some w => if w.till ≤ s.cyc then .next ((s.setTile tile { v with swap := none }).enterSlot tile w.enter w.slot) else .next s
  | none =>
    match v.bestCached s.cyc with
    | none => .next s
    | some c =>
      if v.quiet then .next s
      else match ((List.range 14).map (· + 1)).find? fun n => !v.slotTaken n with
        | some n => .next (s.enterSlot tile c n)
        | none => match s.leavingCtx tile with
          | none => .next s
          | some (d, n) =>
            if (s.ctx tile d).str.els.any (·.undrained) then .next s
            else .next ((s.leaveSlot tile d).updTile tile fun v => { v with swap := some { slot := n, enter := c, till := s.cyc + 32 } })

/-! ## The trap queue's registers (R260, R262) and the crown (R258) -/

/-- Whether a context has the identity a record names and still waits for its acknowledgement. -/
def State.awaitsAck (s : State) (t : Nat) (r : TrapRec) : Bool :=
  let x := s.ctx t r.ctx
  x.state = .stopped && x.park = 10 && x.gen = r.gen

/-- TRAP_ACK (R124, R259, R260): a write of TQ_ACK. A record that is none of this queue's, or is not replayable, is ignored. -/
def execTrapAck (vf : Nat) (v : Word) (s : State) : Out :=
  let p := vf - 1
  let w := v.toNat
  let action := bits w 33 32
  let q := s.tq p
  let idx := match q.live.find? fun e => decide (e.1 % 2 ^ 32 = w % 2 ^ 32) with | some e => some e | none => none
  match (if action < 2 ∧ vf ≠ 0 ∧ s.vfOn = true then idx else none) with
  | none => .next s
  | some (i, r) =>
    let gone := s.setTq p { q with live := Tbl.erase q.live i }
    if r.who ≠ .ctx then .next (if action = 0 then gone else gone.engFail r.who r.ref)
    else match s.group? r.ref r.group with
      | none => .next gone
      | some (_, x) =>
        if s.groupMoves r.ref r.group then
          if x.acks.any (fun a => decide (a.2 = i)) then .next s else .next (s.updGroup r.ref r.group fun y => { y with acks := y.acks ++ [(action, i)] })
        else if s.awaitsAck x.tile r then .next (gone.ackCtx x.tile r.ctx action r)
        else .next gone

/-- TQ_HEAD_WRITE (R262): records are consumed and waiting replayable records are written. -/
def execTqHeadWrite (vf : Nat) (v : Word) (s : State) : Out :=
  if vf = 0 ∨ s.vfOn = false then .next s
  else
    let p := vf - 1
    let q := s.tq p
    let used := (q.tail % 2 ^ 32 + 2 ^ 32 - v.toNat % 2 ^ 32) % 2 ^ 32
    let tail := if q.tail < used then q.tail + 2 ^ 32 else q.tail
    .next ((s.setTq p { q with tail, head := tail - used }).drainRecs p q.waitRecs.length)

/-- TRAP_QUEUE_ENABLE (R262): EN is set and waiting replayable records are written. -/
def execTrapQueueEnable (vf : Nat) (s : State) : Out :=
  if vf = 0 ∨ s.vfOn = false then .next s
  else
    let p := vf - 1
    let q := s.tq p
    .next ((s.setTq p { q with en := true }).drainRecs p q.waitRecs.length)

/-- CROWN_TAKE_TRAP (R258). -/
def execCrownTakeTrap (tile : Nat) (s : State) : Out := if (s.tile tile).quiet then .next s else .next (s.crownTake tile)

end Sys2Proof.Machine
end

