-- ==== Sys2Proof/Machine/Dispatch.lean ====
section
/-!
DEFINITION. The dispatch: one arm per constructor of Instr, each one call of its meaning.
-/
namespace Sys2Proof.Machine

/-- The meaning of an instruction or event (R285 to R291). -/
def exec (i : Instr) (s : State) : Host.Outcome State Fault Refusal :=
  match i with
  | .lui d imm => Sys2Proof.Machine.execLui d imm s
  | .auipc d imm => Sys2Proof.Machine.execAuipc d imm s
  | .jal d imm => Sys2Proof.Machine.execJal d imm s
  | .jalr d a imm => Sys2Proof.Machine.execJalr d a imm s
  | .beq a b imm => Sys2Proof.Machine.execBeq a b imm s
  | .bne a b imm => Sys2Proof.Machine.execBne a b imm s
  | .blt a b imm => Sys2Proof.Machine.execBlt a b imm s
  | .bge a b imm => Sys2Proof.Machine.execBge a b imm s
  | .bltu a b imm => Sys2Proof.Machine.execBltu a b imm s
  | .bgeu a b imm => Sys2Proof.Machine.execBgeu a b imm s
  | .lb d a imm => Sys2Proof.Machine.execLb d a imm s
  | .lh d a imm => Sys2Proof.Machine.execLh d a imm s
  | .lw d a imm => Sys2Proof.Machine.execLw d a imm s
  | .ld d a imm => Sys2Proof.Machine.execLd d a imm s
  | .lbu d a imm => Sys2Proof.Machine.execLbu d a imm s
  | .lhu d a imm => Sys2Proof.Machine.execLhu d a imm s
  | .lwu d a imm => Sys2Proof.Machine.execLwu d a imm s
  | .sb a b imm => Sys2Proof.Machine.execSb a b imm s
  | .sh a b imm => Sys2Proof.Machine.execSh a b imm s
  | .sw a b imm => Sys2Proof.Machine.execSw a b imm s
  | .sd a b imm => Sys2Proof.Machine.execSd a b imm s
  | .addi d a imm => Sys2Proof.Machine.execAddi d a imm s
  | .slti d a imm => Sys2Proof.Machine.execSlti d a imm s
  | .sltiu d a imm => Sys2Proof.Machine.execSltiu d a imm s
  | .xori d a imm => Sys2Proof.Machine.execXori d a imm s
  | .ori d a imm => Sys2Proof.Machine.execOri d a imm s
  | .andi d a imm => Sys2Proof.Machine.execAndi d a imm s
  | .slli d a h => Sys2Proof.Machine.execSlli d a h s
  | .srli d a h => Sys2Proof.Machine.execSrli d a h s
  | .srai d a h => Sys2Proof.Machine.execSrai d a h s
  | .add d a b => Sys2Proof.Machine.execAdd d a b s
  | .sub d a b => Sys2Proof.Machine.execSub d a b s
  | .sll d a b => Sys2Proof.Machine.execSll d a b s
  | .slt d a b => Sys2Proof.Machine.execSlt d a b s
  | .sltu d a b => Sys2Proof.Machine.execSltu d a b s
  | .xor d a b => Sys2Proof.Machine.execXor d a b s
  | .srl d a b => Sys2Proof.Machine.execSrl d a b s
  | .sra d a b => Sys2Proof.Machine.execSra d a b s
  | .or d a b => Sys2Proof.Machine.execOr d a b s
  | .and d a b => Sys2Proof.Machine.execAnd d a b s
  | .addiw d a imm => Sys2Proof.Machine.execAddiw d a imm s
  | .slliw d a h => Sys2Proof.Machine.execSlliw d a h s
  | .srliw d a h => Sys2Proof.Machine.execSrliw d a h s
  | .sraiw d a h => Sys2Proof.Machine.execSraiw d a h s
  | .addw d a b => Sys2Proof.Machine.execAddw d a b s
  | .subw d a b => Sys2Proof.Machine.execSubw d a b s
  | .sllw d a b => Sys2Proof.Machine.execSllw d a b s
  | .srlw d a b => Sys2Proof.Machine.execSrlw d a b s
  | .sraw d a b => Sys2Proof.Machine.execSraw d a b s
  | .mul d a b => Sys2Proof.Machine.execMul d a b s
  | .mulh d a b => Sys2Proof.Machine.execMulh d a b s
  | .mulhsu d a b => Sys2Proof.Machine.execMulhsu d a b s
  | .mulhu d a b => Sys2Proof.Machine.execMulhu d a b s
  | .mulw d a b => Sys2Proof.Machine.execMulw d a b s
  | .div d a b => Sys2Proof.Machine.execDiv d a b s
  | .divu d a b => Sys2Proof.Machine.execDivu d a b s
  | .rem d a b => Sys2Proof.Machine.execRem d a b s
  | .remu d a b => Sys2Proof.Machine.execRemu d a b s
  | .divw d a b => Sys2Proof.Machine.execDivw d a b s
  | .divuw d a b => Sys2Proof.Machine.execDivuw d a b s
  | .remw d a b => Sys2Proof.Machine.execRemw d a b s
  | .remuw d a b => Sys2Proof.Machine.execRemuw d a b s
  | .fadd st d a b => Sys2Proof.Machine.execFadd st d a b s
  | .fsub st d a b => Sys2Proof.Machine.execFsub st d a b s
  | .fmul st d a b => Sys2Proof.Machine.execFmul st d a b s
  | .fdiv st d a b => Sys2Proof.Machine.execFdiv st d a b s
  | .fmin st d a b => Sys2Proof.Machine.execFmin st d a b s
  | .fmax st d a b => Sys2Proof.Machine.execFmax st d a b s
  | .feq st d a b => Sys2Proof.Machine.execFeq st d a b s
  | .flt st d a b => Sys2Proof.Machine.execFlt st d a b s
  | .fle st d a b => Sys2Proof.Machine.execFle st d a b s
  | .fsgnj st d a b => Sys2Proof.Machine.execFsgnj st d a b s
  | .fsgnjn st d a b => Sys2Proof.Machine.execFsgnjn st d a b s
  | .fsgnjx st d a b => Sys2Proof.Machine.execFsgnjx st d a b s
  | .fmac st d a b => Sys2Proof.Machine.execFmac st d a b s
  | .fsqrt st d a => Sys2Proof.Machine.execFsqrt st d a s
  | .fclass st d a => Sys2Proof.Machine.execFclass st d a s
  | .fcvtws st d a => Sys2Proof.Machine.execFcvtws st d a s
  | .fcvtsw st d a => Sys2Proof.Machine.execFcvtsw st d a s
  | .fcvtls st d a => Sys2Proof.Machine.execFcvtls st d a s
  | .fcvtsl st d a => Sys2Proof.Machine.execFcvtsl st d a s
  | .fexp2 st d a => Sys2Proof.Machine.execFexp2 st d a s
  | .flog2 st d a => Sys2Proof.Machine.execFlog2 st d a s
  | .frcp st d a => Sys2Proof.Machine.execFrcp st d a s
  | .frsq st d a => Sys2Proof.Machine.execFrsq st d a s
  | .fpack st d a f => Sys2Proof.Machine.execFpack st d a f s
  | .funpk st d a f => Sys2Proof.Machine.execFunpk st d a f s
  | .bfmt st n a => Sys2Proof.Machine.execBfmt st n a s
  | .pset st a p => Sys2Proof.Machine.execPset st a p s
  | .pget st d p => Sys2Proof.Machine.execPget st d p s
  | .setvl st d a => Sys2Proof.Machine.execSetvl st d a s
  | .sbind st a p => Sys2Proof.Machine.execSbind st a p s
  | .sunbind st p => Sys2Proof.Machine.execSunbind st p s
  | .sdrain st m => Sys2Proof.Machine.execSdrain st m s
  | .vadd st d a b => Sys2Proof.Machine.execVadd st d a b s
  | .vsub st d a b => Sys2Proof.Machine.execVsub st d a b s
  | .vmul st d a b => Sys2Proof.Machine.execVmul st d a b s
  | .vfma st d a b => Sys2Proof.Machine.execVfma st d a b s
  | .vmax st d a b => Sys2Proof.Machine.execVmax st d a b s
  | .vmin st d a b => Sys2Proof.Machine.execVmin st d a b s
  | .vamax st d a b => Sys2Proof.Machine.execVamax st d a b s
  | .vabs st d a => Sys2Proof.Machine.execVabs st d a s
  | .vneg st d a => Sys2Proof.Machine.execVneg st d a s
  | .vexp2 st d a => Sys2Proof.Machine.execVexp2 st d a s
  | .vrcp st d a => Sys2Proof.Machine.execVrcp st d a s
  | .vrsq st d a => Sys2Proof.Machine.execVrsq st d a s
  | .vscl st d x a => Sys2Proof.Machine.execVscl st d x a s
  | .vadds st d x a => Sys2Proof.Machine.execVadds st d x a s
  | .vmaxs st d x a => Sys2Proof.Machine.execVmaxs st d x a s
  | .vcpy st d a => Sys2Proof.Machine.execVcpy st d a s
  | .vset st d x => Sys2Proof.Machine.execVset st d x s
  | .vsel st d a b c => Sys2Proof.Machine.execVsel st d a b c s
  | .vreds st x a => Sys2Proof.Machine.execVreds st x a s
  | .vredm st x a m => Sys2Proof.Machine.execVredm st x a m s
  | .mma st n a b => Sys2Proof.Machine.execMma st n a b s
  | .mzero st n => Sys2Proof.Machine.execMzero st n s
  | .mload st n a => Sys2Proof.Machine.execMload st n a s
  | .mdrain st n a m => Sys2Proof.Machine.execMdrain st n a m s
  | .macq st n r => Sys2Proof.Machine.execMacq st n r s
  | .mstat st n c => Sys2Proof.Machine.execMstat st n c s
  | .ldaW st d a l => Sys2Proof.Machine.execLdaW st d a l s
  | .ldaN st d a => Sys2Proof.Machine.execLdaN st d a s
  | .stc st a b => Sys2Proof.Machine.execStc st a b s
  | .amoaddD st d a b => Sys2Proof.Machine.execAmoaddD st d a b s
  | .amomaxD st d a b => Sys2Proof.Machine.execAmomaxD st d a b s
  | .amominD st d a b => Sys2Proof.Machine.execAmominD st d a b s
  | .amoswpD st d a b => Sys2Proof.Machine.execAmoswpD st d a b s
  | .amocasD st d a b => Sys2Proof.Machine.execAmocasD st d a b s
  | .amoandD st d a b => Sys2Proof.Machine.execAmoandD st d a b s
  | .amoorD st d a b => Sys2Proof.Machine.execAmoorD st d a b s
  | .amoxorD st d a b => Sys2Proof.Machine.execAmoxorD st d a b s
  | .amoaddW st d a b => Sys2Proof.Machine.execAmoaddW st d a b s
  | .amomaxW st d a b => Sys2Proof.Machine.execAmomaxW st d a b s
  | .amominW st d a b => Sys2Proof.Machine.execAmominW st d a b s
  | .amoswpW st d a b => Sys2Proof.Machine.execAmoswpW st d a b s
  | .amocasW st d a b => Sys2Proof.Machine.execAmocasW st d a b s
  | .amoandW st d a b => Sys2Proof.Machine.execAmoandW st d a b s
  | .amoorW st d a b => Sys2Proof.Machine.execAmoorW st d a b s
  | .amoxorW st d a b => Sys2Proof.Machine.execAmoxorW st d a b s
  | .amofadd st d a b => Sys2Proof.Machine.execAmofadd st d a b s
  | .amofmax st d a b => Sys2Proof.Machine.execAmofmax st d a b s
  | .fenceS st c => Sys2Proof.Machine.execFenceS st c s
  | .rel st => Sys2Proof.Machine.execRel st s
  | .acq st c => Sys2Proof.Machine.execAcq st c s
  | .wbr st a b => Sys2Proof.Machine.execWbr st a b s
  | .invr st a b => Sys2Proof.Machine.execInvr st a b s
  | .fempty st d => Sys2Proof.Machine.execFempty st d s
  | .fest st d n => Sys2Proof.Machine.execFest st d n s
  | .elect st d a => Sys2Proof.Machine.execElect st d a s
  | .waitw st d a b c => Sys2Proof.Machine.execWaitw st d a b c s
  | .waitc st d a b c => Sys2Proof.Machine.execWaitc st d a b c s
  | .barinit st a b => Sys2Proof.Machine.execBarinit st a b s
  | .barrive st a => Sys2Proof.Machine.execBarrive st a s
  | .barwait st a b => Sys2Proof.Machine.execBarwait st a b s
  | .semw st n => Sys2Proof.Machine.execSemw st n s
  | .semp st n => Sys2Proof.Machine.execSemp st n s
  | .qcfg st a => Sys2Proof.Machine.execQcfg st a s
  | .qdest st a => Sys2Proof.Machine.execQdest st a s
  | .copy st a b => Sys2Proof.Machine.execCopy st a b s
  | .qfence st a b => Sys2Proof.Machine.execQfence st a b s
  | .route st n a b => Sys2Proof.Machine.execRoute st n a b s
  | .rtopen st n a b => Sys2Proof.Machine.execRtopen st n a b s
  | .rtret st a b => Sys2Proof.Machine.execRtret st a b s
  | .rtretDrop st a => Sys2Proof.Machine.execRtretDrop st a s
  | .rtstat st d n => Sys2Proof.Machine.execRtstat st d n s
  | .rttgt st a => Sys2Proof.Machine.execRttgt st a s
  | .cset st a => Sys2Proof.Machine.execCset st a s
  | .csend st a b => Sys2Proof.Machine.execCsend st a b s
  | .crecv st a b => Sys2Proof.Machine.execCrecv st a b s
  | .crrs st a b => Sys2Proof.Machine.execCrrs st a b s
  | .ccopy st a b => Sys2Proof.Machine.execCcopy st a b s
  | .cwait st => Sys2Proof.Machine.execCwait st s
  | .cloop st j imm => Sys2Proof.Machine.execCloop st j imm s
  | .spawn st d a b => Sys2Proof.Machine.execSpawn st d a b s
  | .spawnDie st d a => Sys2Proof.Machine.execSpawnDie st d a s
  | .reap st d a => Sys2Proof.Machine.execReap st d a s
  | .yield st => Sys2Proof.Machine.execYield st s
  | .halt st => Sys2Proof.Machine.execHalt st s
  | .ckpt st a => Sys2Proof.Machine.execCkpt st a s
  | .iterset st a => Sys2Proof.Machine.execIterset st a s
  | .iterinc st d => Sys2Proof.Machine.execIterinc st d s
  | .trap st a => Sys2Proof.Machine.execTrap st a s
  | .tret st a => Sys2Proof.Machine.execTret st a s
  | .segld st a b => Sys2Proof.Machine.execSegld st a b s
  | .rdcyc st d => Sys2Proof.Machine.execRdcyc st d s
  | .srd st d r => Sys2Proof.Machine.execSrd st d r s
  | .swr st a r => Sys2Proof.Machine.execSwr st a r s
  | .illegalInstruction w => Sys2Proof.Machine.execIllegalInstruction w s
  | .pfReset => Sys2Proof.Machine.execPfReset s
  | .bootVerifyDone => Sys2Proof.Machine.execBootVerifyDone s
  | .firmwareBringupDone linksOk => Sys2Proof.Machine.execFirmwareBringupDone linksOk s
  | .recoveryBufferWrite off data => Sys2Proof.Machine.execRecoveryBufferWrite off data s
  | .recoveryGo v => Sys2Proof.Machine.execRecoveryGo v s
  | .recoveryVerifyDone => Sys2Proof.Machine.execRecoveryVerifyDone s
  | .slotWriteDone ok => Sys2Proof.Machine.execSlotWriteDone ok s
  | .spdmGetVersion => Sys2Proof.Machine.execSpdmGetVersion s
  | .spdmGetCapabilities => Sys2Proof.Machine.execSpdmGetCapabilities s
  | .spdmNegotiateAlgorithms tables body => Sys2Proof.Machine.execSpdmNegotiateAlgorithms tables body s
  | .spdmGetDigests => Sys2Proof.Machine.execSpdmGetDigests s
  | .spdmGetCertificate slot off len => Sys2Proof.Machine.execSpdmGetCertificate slot off len s
  | .spdmChallenge slot rest => Sys2Proof.Machine.execSpdmChallenge slot rest s
  | .spdmGetMeasurements request => Sys2Proof.Machine.execSpdmGetMeasurements request s
  | .spdmUnsupportedRequest code => Sys2Proof.Machine.execSpdmUnsupportedRequest code s
  | .powerWindow tj watts => Sys2Proof.Machine.execPowerWindow tj watts s
  | .thermalRecovery => Sys2Proof.Machine.execThermalRecovery s
  | .clockChangeComplete => Sys2Proof.Machine.execClockChangeComplete s
  | .clusterPowerGate v => Sys2Proof.Machine.execClusterPowerGate v s
  | .clusterUngate v => Sys2Proof.Machine.execClusterUngate v s
  | .clusterGateComplete => Sys2Proof.Machine.execClusterGateComplete s
  | .endpointBind ep flags => Sys2Proof.Machine.execEndpointBind ep flags s
  | .endpointUnbind ep => Sys2Proof.Machine.execEndpointUnbind ep s
  | .sdKeyWrite part slot key => Sys2Proof.Machine.execSdKeyWrite part slot key s
  | .sdCtlWrite part v => Sys2Proof.Machine.execSdCtlWrite part v s
  | .epStatusClear ep => Sys2Proof.Machine.execEpStatusClear ep s
  | .keyFlush ep => Sys2Proof.Machine.execKeyFlush ep s
  | .keyFlushComplete ep => Sys2Proof.Machine.execKeyFlushComplete ep s
  | .peerConfigWrite k v => Sys2Proof.Machine.execPeerConfigWrite k v s
  | .noRouteClear => Sys2Proof.Machine.execNoRouteClear s
  | .portStatClear port => Sys2Proof.Machine.execPortStatClear port s
  | .ethLinkChange port up => Sys2Proof.Machine.execEthLinkChange port up s
  | .deliveryContextAllocate msg => Sys2Proof.Machine.execDeliveryContextAllocate msg s
  | .uetMessageSend msg => Sys2Proof.Machine.execUetMessageSend msg s
  | .uetWritePacket p => Sys2Proof.Machine.execUetWritePacket p s
  | .uetReadPacket p => Sys2Proof.Machine.execUetReadPacket p s
  | .uetSendPacket p => Sys2Proof.Machine.execUetSendPacket p s
  | .uetTaggedSend p => Sys2Proof.Machine.execUetTaggedSend p s
  | .uetAtomicPacket p => Sys2Proof.Machine.execUetAtomicPacket p s
  | .ethHeldPlacement id => Sys2Proof.Machine.execEthHeldPlacement id s
  | .arrivalCounterAdd id => Sys2Proof.Machine.execArrivalCounterAdd id s
  | .evUnusableExpire ev => Sys2Proof.Machine.execEvUnusableExpire ev s
  | .packetRelay p dst => Sys2Proof.Machine.execPacketRelay p dst s
  | .combineContribution c dst => Sys2Proof.Machine.execCombineContribution c dst s
  | .combineTimeout id => Sys2Proof.Machine.execCombineTimeout id s
  | .mrtEnable entry => Sys2Proof.Machine.execMrtEnable entry s
  | .mrtDisable entry => Sys2Proof.Machine.execMrtDisable entry s
  | .mrtDisableComplete entry => Sys2Proof.Machine.execMrtDisableComplete entry s
  | .cxlLinkDown port => Sys2Proof.Machine.execCxlLinkDown port s
  | .driverQueueSubmit ssd q aligned data => Sys2Proof.Machine.execDriverQueueSubmit ssd q aligned data s
  | .driverQueueCompletion ssd q idx status data => Sys2Proof.Machine.execDriverQueueCompletion ssd q idx status data s
  | .dqCtlWrite ssd q v => Sys2Proof.Machine.execDqCtlWrite ssd q v s
  | .dqClearDiscards ssd q => Sys2Proof.Machine.execDqClearDiscards ssd q s
  | .dqCqHeadWrite ssd q v => Sys2Proof.Machine.execDqCqHeadWrite ssd q v s
  | .namespaceEntryWrite entry v => Sys2Proof.Machine.execNamespaceEntryWrite entry v s
  | .freeFramePush part v => Sys2Proof.Machine.execFreeFramePush part v s
  | .storageFault id => Sys2Proof.Machine.execStorageFault id s
  | .storageReadComplete id ok data bad => Sys2Proof.Machine.execStorageReadComplete id ok data bad s
  | .storageTimeout id => Sys2Proof.Machine.execStorageTimeout id s
  | .ssdLinkDown ssd => Sys2Proof.Machine.execSsdLinkDown ssd s
  | .commandWindowWrite vf w off data => Sys2Proof.Machine.execCommandWindowWrite vf w off data s
  | .windowDiscardsClear vf w => Sys2Proof.Machine.execWindowDiscardsClear vf w s
  | .launch vf w => Sys2Proof.Machine.execLaunch vf w s
  | .arm vf w => Sys2Proof.Machine.execArm vf w s
  | .hostCopy vf w die eng => Sys2Proof.Machine.execHostCopy vf w die eng s
  | .handleRegister vf w => Sys2Proof.Machine.execHandleRegister vf w s
  | .handleRetire vf w => Sys2Proof.Machine.execHandleRetire vf w s
  | .handleRetireComplete vf w => Sys2Proof.Machine.execHandleRetireComplete vf w s
  | .signal vf w linkOk => Sys2Proof.Machine.execSignal vf w linkOk s
  | .waitv vf w => Sys2Proof.Machine.execWaitv vf w s
  | .waitvTimeout vf w => Sys2Proof.Machine.execWaitvTimeout vf w s
  | .badOpCommand vf w => Sys2Proof.Machine.execBadOpCommand vf w s
  | .launchComplete part num => Sys2Proof.Machine.execLaunchComplete part num s
  | .cqHeadWrite vf v => Sys2Proof.Machine.execCqHeadWrite vf v s
  | .windowAbort vf v => Sys2Proof.Machine.execWindowAbort vf v s
  | .featureAccept v => Sys2Proof.Machine.execFeatureAccept v s
  | .partitionEnable part => Sys2Proof.Machine.execPartitionEnable part s
  | .partitionDisable part => Sys2Proof.Machine.execPartitionDisable part s
  | .functionLevelReset vf => Sys2Proof.Machine.execFunctionLevelReset vf s
  | .windowBRead vf off len => Sys2Proof.Machine.execWindowBRead vf off len s
  | .windowBWrite vf off data => Sys2Proof.Machine.execWindowBWrite vf off data s
  | .launchPlacement part => Sys2Proof.Machine.execLaunchPlacement part s
  | .displacedGroupResume part num group => Sys2Proof.Machine.execDisplacedGroupResume part num group s
  | .groupMigrateRequest v => Sys2Proof.Machine.execGroupMigrateRequest v s
  | .ckptLimitExpire part num group => Sys2Proof.Machine.execCkptLimitExpire part num group s
  | .migrationQuiesce part num group => Sys2Proof.Machine.execMigrationQuiesce part num group s
  | .migrationSave part num group => Sys2Proof.Machine.execMigrationSave part num group s
  | .migrationRestore part num group => Sys2Proof.Machine.execMigrationRestore part num group s
  | .rotationTableApply tile => Sys2Proof.Machine.execRotationTableApply tile s
  | .swapThresholdReached tile ctx => Sys2Proof.Machine.execSwapThresholdReached tile ctx s
  | .contextSwap tile => Sys2Proof.Machine.execContextSwap tile s
  | .contextRecordWriteback tile ctx => Sys2Proof.Machine.execContextRecordWriteback tile ctx s
  | .streamPrefetch tile ctx sr => Sys2Proof.Machine.execStreamPrefetch tile ctx sr s
  | .streamOutputDrain tile ctx sr => Sys2Proof.Machine.execStreamOutputDrain tile ctx sr s
  | .remoteReadClose id => Sys2Proof.Machine.execRemoteReadClose id s
  | .registerFill id => Sys2Proof.Machine.execRegisterFill id s
  | .loadResultLand id => Sys2Proof.Machine.execLoadResultLand id s
  | .divideResultLand tile => Sys2Proof.Machine.execDivideResultLand tile s
  | .fpDivideResultLand tile => Sys2Proof.Machine.execFpDivideResultLand tile s
  | .vectorUnitStart tile => Sys2Proof.Machine.execVectorUnitStart tile s
  | .vectorResultLand tile => Sys2Proof.Machine.execVectorResultLand tile s
  | .matrixOperandFill tile => Sys2Proof.Machine.execMatrixOperandFill tile s
  | .matrixStepLand tile => Sys2Proof.Machine.execMatrixStepLand tile s
  | .homeStoreApply id => Sys2Proof.Machine.execHomeStoreApply id s
  | .homeLoad id => Sys2Proof.Machine.execHomeLoad id s
  | .homeAtomic id => Sys2Proof.Machine.execHomeAtomic id s
  | .stampedWriteApply id => Sys2Proof.Machine.execStampedWriteApply id s
  | .stampedWriteAck id => Sys2Proof.Machine.execStampedWriteAck id s
  | .stampedLoadAtHome id => Sys2Proof.Machine.execStampedLoadAtHome id s
  | .stampedLoadRetry tile ctx => Sys2Proof.Machine.execStampedLoadRetry tile ctx s
  | .slimTimeout tile ctx => Sys2Proof.Machine.execSlimTimeout tile ctx s
  | .staleWithdrawAck tile ctx => Sys2Proof.Machine.execStaleWithdrawAck tile ctx s
  | .stampSetRequest v => Sys2Proof.Machine.execStampSetRequest v s
  | .partialEviction tile line => Sys2Proof.Machine.execPartialEviction tile line s
  | .releaseQuery tile ctx => Sys2Proof.Machine.execReleaseQuery tile ctx s
  | .releaseClearReturn tile ctx => Sys2Proof.Machine.execReleaseClearReturn tile ctx s
  | .faultMessage id => Sys2Proof.Machine.execFaultMessage id s
  | .pagerWalk id => Sys2Proof.Machine.execPagerWalk id s
  | .faultWake id => Sys2Proof.Machine.execFaultWake id s
  | .shootdownRequest v => Sys2Proof.Machine.execShootdownRequest v s
  | .shootdownComplete => Sys2Proof.Machine.execShootdownComplete s
  | .tsetWrite part tenant v => Sys2Proof.Machine.execTsetWrite part tenant v s
  | .tsetRangeSwitch part tenant => Sys2Proof.Machine.execTsetRangeSwitch part tenant s
  | .correctableError slice => Sys2Proof.Machine.execCorrectableError slice s
  | .sliceStatClear slice => Sys2Proof.Machine.execSliceStatClear slice s
  | .commutativeRangeWrite part idx v => Sys2Proof.Machine.execCommutativeRangeWrite part idx v s
  | .uncorrectableError site => Sys2Proof.Machine.execUncorrectableError site s
  | .nocHeaderError router header => Sys2Proof.Machine.execNocHeaderError router header s
  | .copyCommandEnqueue id => Sys2Proof.Machine.execCopyCommandEnqueue id s
  | .copyGranule die eng q => Sys2Proof.Machine.execCopyGranule die eng q s
  | .copyComplete die eng q => Sys2Proof.Machine.execCopyComplete die eng q s
  | .qfenceRelease die eng q => Sys2Proof.Machine.execQfenceRelease die eng q s
  | .copyMergeClose id => Sys2Proof.Machine.execCopyMergeClose id s
  | .completionWordWrite id => Sys2Proof.Machine.execCompletionWordWrite id s
  | .flitArrive id => Sys2Proof.Machine.execFlitArrive id s
  | .sendRetry tile ctx => Sys2Proof.Machine.execSendRetry tile ctx s
  | .orphanNotice id => Sys2Proof.Machine.execOrphanNotice id s
  | .routeRowArrive id => Sys2Proof.Machine.execRouteRowArrive id s
  | .routeHandoutResume tile => Sys2Proof.Machine.execRouteHandoutResume tile s
  | .routeDropNotice id => Sys2Proof.Machine.execRouteDropNotice id s
  | .routeReturnArrive id => Sys2Proof.Machine.execRouteReturnArrive id s
  | .reassemblyDeadline tile entry => Sys2Proof.Machine.execReassemblyDeadline tile entry s
  | .collectiveStepStart id => Sys2Proof.Machine.execCollectiveStepStart id s
  | .collectiveContribution c => Sys2Proof.Machine.execCollectiveContribution c s
  | .collectiveSendAck id chunk ok => Sys2Proof.Machine.execCollectiveSendAck id chunk ok s
  | .watchRetry id => Sys2Proof.Machine.execWatchRetry id s
  | .hostWatchPoll id => Sys2Proof.Machine.execHostWatchPoll id s
  | .trapAck vf v => Sys2Proof.Machine.execTrapAck vf v s
  | .tqHeadWrite vf v => Sys2Proof.Machine.execTqHeadWrite vf v s
  | .crownTakeTrap tile => Sys2Proof.Machine.execCrownTakeTrap tile s
  | .deferredTrap tile ctx => Sys2Proof.Machine.execDeferredTrap tile ctx s
  | .registerWrite fn off size v => Sys2Proof.Machine.execRegisterWrite fn off size v s
  | .uetAcknowledgement msg kind ev => Sys2Proof.Machine.execUetAcknowledgement msg kind ev s
  | .stampSetComplete => Sys2Proof.Machine.execStampSetComplete s
  | .instructionCacheFill tile ctx => Sys2Proof.Machine.execInstructionCacheFill tile ctx s
  | .trapQueueEnable vf => Sys2Proof.Machine.execTrapQueueEnable vf s

end Sys2Proof.Machine
end

