-- ==== Sys2Proof/Machine/Schedule.lean ====
section
/-!
DEFINITION. Which step comes next (log 1): the choice of the issuing context (R109, R110), one issue, the passing of a cycle (R16, R17), and the order in
which the part's own events occur when the agenda names none.
-/
namespace Sys2Proof.Machine

/-! ## The issue of a context (R109 to R111, R256, R258) -/

/-- The word a context would issue: the one in its retry latch, else the one at its pc if the tile holds it. -/
def State.nextWord (s : State) (t c : Nat) : Option W32 :=
  match (s.ctx t c).latch with
  | some l => some l.insn
  | none => match s.fetch t c with | .word w => some w | _ => none

/-- Whether the crown enters its handler at its next issue (R258). -/
def Tile.crownDue (v : Tile) (c : Nat) : Bool := decide (c = 0) && !v.pend.isEmpty && !v.inH

/-- R109: whether a context is ready: slotted, its spacing and stall over, and not parked, unless it is a crown that takes a trap; with a trap or a word to
issue. -/
def State.canIssue (s : State) (t c : Nat) : Bool :=
  let x := s.ctx t c
  decide (x.state = .slotted) && decide (x.readyAt ≤ s.cyc) && !x.busy && !x.ckptStop
    && ((s.tile t).crownDue c || (decide (x.park = 0) && (x.deferred.isSome || (s.nextWord t c).isSome)))

/-- R110: whether an instruction is a matrix step. -/
def isMatrixStep (w : W32) : Bool :=
  match decodeWord w.toNat with
  | .ok (.mma _ _ _ _) => true
  | .ok (.mzero _ _) => true
  | .ok (.mload _ _ _) => true
  | .ok (.mdrain _ _ _ _) => true
  | _ => false

/-- R110: whether a ready context may take a passed turn. -/
def State.takesPassed (s : State) (t c : Nat) : Bool :=
  (s.tile t).crownDue c || (s.ctx t c).deferred.isSome || !(match s.nextWord t c with | some w => isMatrixStep w | none => false)

/-- The context in a slot of a tile. -/
def Tile.inSlot (v : Tile) (n : Nat) : Option Nat := (v.ctxs.find? fun q => decide (q.2.slot = some n)).map (·.1)

/-- The slots offered a turn that slot n passes, in order (R110). -/
def passOrder (n q : Nat) : List Nat := ((List.range 16).map fun i => (n + 1 + q + i) % 16).filter fun m => decide (m ≠ n)

/-- R110: the context that issues on tile t in this cycle. -/
def State.turn (s : State) (t : Nat) : Option Nat :=
  let v := s.tile t
  let n := v.turnSlot (s.cyc % 32)
  let own := match v.inSlot n with | some c => if s.canIssue t c then some c else none | none => none
  match own with
  | some c => some c
  | none => (passOrder n (s.cyc / 32 % 16)).findSome? fun m =>
      match v.inSlot m with
      | some c => if s.canIssue t c && s.takesPassed t c then some c else none
      | none => none

/-- What an outcome's state becomes by f. -/
def mapOut (f : State → State) : Out → Out
  | .next s => .next (f s)
  | .fault r => .fault r
  | .refused r => .refused r

/-- The word w is issued by context c of tile t: its instruction is executed, or it traps as illegal (R291). -/
def State.runWord (s : State) (t c : Nat) (w : W32) : Out :=
  let s := { s with cur := some ⟨t, c, w⟩ }
  mapOut (fun s => { s with cur := none })
    (match decodeWord w.toNat with
     | .ok i => exec i s
     | .error _ => execIllegalInstruction w s)

/-- One issue on tile t, at most one in a cycle: a deferred trap (R256), a trap for the crown (R258), the wait of a context whose flit is refused (R111, R230),
or an instruction. -/
def State.issueOn (s : State) (t : Nat) : Out :=
  if s.issuedNow.contains t || (s.tile t).quiet || s.power.shut then .next s
  else match s.turn t with
  | none => .next s
  | some c =>
    let s := { s with issuedNow := t :: s.issuedNow }
    if (s.tile t).crownDue c then mapOut (fun s => s.updCtx t 0 fun x => { x with readyAt := s.cyc + 4 }) (execCrownTakeTrap t s)
    else if (s.ctx t c).deferred.isSome then execDeferredTrap t c s
    else if s.flitHeld t c then .next (s.parkFlit t c)
    else match s.nextWord t c with
      | some w => (s.spendFetch t c).runWord t c w
      | none => .next s

/-! ## Time (R16 to R18) -/

/-- Sixths of a period of the 1.4 GHz reference in a core cycle at each clock setting. -/
def refPerCycle (clk : Nat) : Nat := if clk = 0 then 6 else if clk = 1 then 7 else 12

/-- A core cycle passes. -/
def State.tick (s : State) : State := { s with cyc := s.cyc + 1, ref6 := s.ref6 + refPerCycle s.power.clk, issuedNow := [] }

/-! ## The part's own events -/

/-- The event that takes an access further. -/
def Req.due (r : Req) : State → Out :=
  match r.stage with
  | .port => .next
  | .buffer => if r.stamped then execStampedWriteApply r.id else execHomeStoreApply r.id
  | .flight => match r.kind with
    | .amo => execHomeAtomic r.id
    | .elect => execHomeAtomic r.id
    | .ldaW => execStampedLoadAtHome r.id
    | .ldaN => execStampedLoadAtHome r.id
    | _ => if r.acts then execHomeStoreApply r.id else execHomeLoad r.id
  | .waiting => if r.kind = .ldaW then execSlimTimeout r.tile r.ctx else execHostWatchPoll r.id
  | .refused => if r.kind = .ldaW then execStampedLoadRetry r.tile r.ctx else execWatchRetry r.id
  | .withdrawing => execStaleWithdrawAck r.tile r.ctx
  | .reply => if r.kind = .store then execStampedWriteAck r.id else execLoadResultLand r.id

/-- The events of context c of tile t. -/
def ctxEvents (t c : Nat) : List (State → Out) :=
  [execReleaseQuery t c, execReleaseClearReturn t c, execStampedLoadRetry t c, execSendRetry t c, execInstructionCacheFill t c, execSwapThresholdReached t c]
  ++ (List.range 8).map (fun q => execStreamOutputDrain t c q) ++ (List.range 8).map (fun q => execStreamPrefetch t c q)
  ++ [execContextRecordWriteback t c]

/-- The events of a tile. -/
def tileEvents (t : Nat) (v : Tile) : List (State → Out) :=
  [execRotationTableApply t, execDivideResultLand t, execFpDivideResultLand t, execVectorResultLand t, execVectorUnitStart t, execMatrixStepLand t
   , execMatrixOperandFill t, execRouteHandoutResume t, execContextSwap t]
  ++ (List.range 16).map (fun n => execReassemblyDeadline t n) ++ v.ctxs.flatMap fun q => ctxEvents t q.1

/-- The events of a launch: of the migration of its groups, then its end. -/
def launchEvents (l : Launch) : List (State → Out) :=
  l.groups.flatMap (fun g => [execCkptLimitExpire l.part l.num g.1, execMigrationQuiesce l.part l.num g.1, execMigrationSave l.part l.num g.1
                              , execMigrationRestore l.part l.num g.1, execDisplacedGroupResume l.part l.num g.1])
  ++ [execLaunchComplete l.part l.num]

/-- The event of a copy queue's head, by its key. -/
def queueEvents (k : Nat) : List (State → Out) :=
  [execQfenceRelease (k / 128) (k / 8 % 16) (k % 8), execCopyComplete (k / 128) (k / 8 % 16) (k % 8), execCopyGranule (k / 128) (k / 8 % 16) (k % 8)]

/-- The start of window w's next command, or what the running one waits for (R75 to R82). A host copy whose engine the command processor chooses
goes to engine 0 of die 0. -/
def windowEvents (vf w : Nat) (x : Window) : List (State → Out) :=
  let c := match x.run with | some r => some r.cmd | none => x.q.head?
  match c with
  | none => []
  | some c => match c.op with
    | 1 => [execLaunch vf w]
    | 2 => [execArm vf w]
    | 3 => [execHostCopy vf w (if c.fld 0x20 1 = 0xFF then 0 else c.fld 0x20 1) 0]
    | 4 => if c.retires then [execHandleRetire vf w, execHandleRetireComplete vf w] else [execHandleRegister vf w]
    | 5 => [execSignal vf w true]
    | 6 => [execWaitvTimeout vf w, execWaitv vf w]
    | _ => [execBadOpCommand vf w]

/-- The events that are under way in the part, in the order in which they are tried. -/
def State.events (s : State) : List (State → Out) :=
  [execBootVerifyDone, execFirmwareBringupDone true, execRecoveryVerifyDone, execSlotWriteDone true, execClockChangeComplete, execThermalRecovery]
  ++ s.reqs.map Req.due
  ++ s.tiles.flatMap (fun q => tileEvents q.1 q.2)
  ++ s.faults.flatMap (fun f => [execFaultMessage f.id, execPagerWalk f.id, execStorageFault f.id, execFaultWake f.id])
  ++ s.pages.map (fun x => execStorageTimeout x.id)
  ++ s.flits.flatMap (fun m => if m.notice then [execOrphanNotice m.id] else if m.engine || m.f.fill then [execRegisterFill m.id, execFlitArrive m.id] else [execFlitArrive m.id])
  ++ s.copyMsgs.flatMap (fun m => [execCopyMergeClose m.id, execCopyCommandEnqueue m.id])
  ++ s.queues.flatMap (fun q => queueEvents q.1)
  ++ s.cwords.map (fun x => execCompletionWordWrite x.id)
  ++ s.rmsgs.map (fun m => if m.kind = 0 then execRouteRowArrive m.id else if m.kind = 1 then execRouteReturnArrive m.id else execRouteDropNotice m.id)
  ++ s.rreads.map (fun r => execRemoteReadClose r.id)
  ++ s.steps.map (fun x => execCollectiveStepStart x.id)
  ++ s.tx.flatMap (fun m => [execDeliveryContextAllocate m.id, execUetMessageSend m.id])
  ++ s.heldPackets.map (fun h => execEthHeldPlacement h.id)
  ++ s.rx.map (fun m => execArrivalCounterAdd m.id)
  ++ s.combining.map (fun e => execCombineTimeout e.id)
  ++ s.evBad.map (fun e => execEvUnusableExpire e.1)
  ++ s.endpoints.map (fun e => execKeyFlushComplete e.1)
  ++ s.tset.map (fun x => execTsetRangeSwitch x.1 x.2.1)
  ++ (List.range 64).map (fun k => execMrtDisableComplete k)
  ++ [execShootdownComplete, execStampSetComplete, execClusterGateComplete]
  ++ s.windows.flatMap (fun x => windowEvents (x.1 / 16) (x.1 % 16) x.2)
  ++ s.launches.flatMap (fun l => launchEvents l.2)
  ++ (List.range 64).map (fun p => execLaunchPlacement p)

/-- Whether two states differ in more than counters. -/
def differs (a b : State) : Bool := decide ({ a with engLast := b.engLast, nextId := b.nextId, uses := b.uses } ≠ b)

/-- The outcome of the first event of a list that changes the state. -/
def firstChange (s : State) : List (State → Out) → Option Out
  | [] => none
  | f :: rest => match f s with
    | .next s' => if differs s' s then some (.next s') else firstChange s rest
    | o => some o

/-- The part's own next step: the boot ROM starts it; else its events in their order, then an issue on the lowest tile that has one in this cycle, then the
passing of the cycle. After the thermal shutdown time alone passes (R20). -/
def State.ownStep (s : State) : Out :=
  if s.power.shut then .next s.tick
  else if s.boot.phase = 0 then execPfReset s
  else match firstChange s s.events with
    | some o => o
    | none =>
      match s.tiles.find? (fun q => !s.issuedNow.contains q.1 && !q.2.quiet && (s.turn q.1).isSome) with
      | some q => s.issueOn q.1
      | none => .next s.tick

/-- One step: the next of the agenda, or the part's own. An event that is not well-formed does not occur, and none does after the thermal shutdown
(R20). -/
def State.takeTurn (s : State) : Out :=
  match s.agenda with
  | [] => s.ownStep
  | x :: rest =>
    let s := { s with agenda := rest }
    match x with
    | .event i => if i.wf && !s.power.shut then exec i s else .next s
    | .issue t => s.issueOn t
    | .tick => .next s.tick

/-! ## A word placed where the next issue finds it -/

/-- A memory segment at PVA 0 with every right (R133). -/
def placedSeg : Seg := ⟨0x1700000000000000, 0x10000000000000⟩

/-- A state in which the next step issues the word w (log 20): a launch of partition 0 with one tile group runs on tile 0; its crown is in slot 0, whose
turn cycle 0 is, at pc 0; and tile 0 holds w for that address. Every feature that the part implements is accepted. -/
def State.placeWord (s : State) (w : W32) : State :=
  let crown : Ctx := { state := .slotted, slot := some 0, seg := (Fixed.fill 8 {}).set 0 placedSeg }
  let tile0 : Tile := { s.tile 0 with
    grp := some ⟨1, 0⟩, ctxs := [(0, crown)], rotLo := 0xFEDCBA9876543210, pend := [], inH := false, quiet := false
    icache := [(icKey (s.partAsid 0).1 0, w)] }
  let l : Launch := { part := 0, num := 1, r := { seg := (Fixed.fill 8 {}).set 0 placedSeg }, st := .running, groups := [(0, { tile := 0 })] }
  { s with
    agenda := [.issue 0], issuedNow := [], cyc := 0, feats := 0x7FF03FF, tiles := Tbl.put s.tiles 0 tile0
    launches := Tbl.put s.launches 1 l, power := { s.power with shut := false } }

end Sys2Proof.Machine
end

