-- ==== Sys2Proof/Machine/Step.lean ====
section
/-!
DEFINITION. The step of the machine, and a word placed where it fetches.
-/
namespace Sys2Proof.Machine

/-- One step of the package: the agenda's next, or the part's own (log 1). -/
def step (s : State) : Host.Outcome State Fault Refusal := s.takeTurn

/-- s with the instruction of bits w stored where the next step fetches; the bits above nbits are zero. -/
def State.withFetchWord (s : State) (nbits w : Nat) : State := s.placeWord (BitVec.ofNat 32 (w % 2 ^ nbits))

end Sys2Proof.Machine
end

