-- ==== Sys2Proof/Safety.lean ====
section
/-!
DEFINITION. What counts as a safe run, and the words in which the statements say what an instruction needs and what it leaves.
-/
namespace Sys2Proof

open Sys2Proof.Machine

/-- The invariant of memory (log 2): its canonical form. -/
abbrev MemInv (s : State) : Prop := Mem.wf s.mem

/-- A step that goes on keeps memory in its canonical form. -/
def SafeStep (s : State) : Prop := ∀ s', Machine.step s = .next s' → MemInv s → MemInv s'

namespace Machine.Says

/-! ## What an instruction needs (R126, R127, R141, R265, R294) -/

/-- Register r is not x30 or x31 while QMAP maps the message queues onto them (R230). -/
def plain (x : Ctx) (r : Nat) : Prop := x.mapped = true → r ≠ 30 ∧ r ≠ 31

/-- Source r can be read at cycle n and holds v: x0 holds 0; any other register is full and not poisoned, and under SCHK its result has landed. -/
def readable (x : Ctx) (n r : Nat) (v : Word) : Prop :=
  (r = 0 ∧ v = 0) ∨
  (r ≠ 0 ∧ plain x r ∧ (x.reg r).st = .full ∧ (x.reg r).poison = false ∧ (x.schk = true → (x.reg r).isShort n = false) ∧ v = (x.reg r).seen n)

/-- The sources can be read and hold these values, in order. -/
def sources (x : Ctx) (n : Nat) : List Nat → List Word → Prop
  | [], [] => True
  | r :: rs, v :: vs => readable x n r v ∧ sources x n rs vs
  | _, _ => False

/-- Destination d may be written: it is x0 or not pending. -/
def writable (x : Ctx) (d : Nat) : Prop := d = 0 ∨ (plain x d ∧ (x.reg d).st ≠ .pending)

/-! ## What an instruction leaves -/

/-- The context with v written to register d at cycle n, usable from n + lat (R126, R140): x0 discards it. -/
def written (x : Ctx) (n d : Nat) (v : Word) (lat : Nat) : Ctx :=
  if d = 0 then x
  else x.setReg d (if lat ≤ 4 then { val := v, st := .full, poison := false, dirty := true, late := [] }
    else { val := (x.reg d).val, st := .full, poison := false, dirty := true, late := (n + lat, v) :: (x.reg d).late })

/-- The context with register d awaiting a variable-latency result (R126); its value until then is the newest it was given. -/
def awaiting (x : Ctx) (d : Nat) : Ctx :=
  if d = 0 then x
  else x.setReg d { val := (match (x.reg d).late with | p :: _ => p.2 | [] => (x.reg d).val), st := .pending, poison := (x.reg d).poison, dirty := true, late := [] }

/-- The context after an issue at cycle n that completes and goes on at pc: not ready for 4 × (1 + S) cycles (R109, R140, R284), its latch empty. -/
def retire (x : Ctx) (n S : Nat) (pc : Word) : Ctx := { x with pc := pc, latch := none, park := 0, readyAt := n + 4 * (1 + S) }

/-- What s' is: as b, but that tile t, its contexts apart, is v, and that context c of it is x. Every other tile, every other context and every byte of
memory is as in b. -/
structure Becomes (s' b : State) (t c : Nat) (v : Tile) (x : Ctx) : Prop where
  rest : s' = { b with tiles := s'.tiles }
  tiles : ∀ k, k ≠ t → s'.tile k = b.tile k
  tile : { s'.tile t with ctxs := [] } = { v with ctxs := [] }
  ctxs : ∀ k, k ≠ c → s'.ctx t k = b.ctx t k
  ctx : s'.ctx t c = x
  mem : ∀ a, s'.peek a = b.peek a

/-- An instruction that changes only its own context completes: exec i s answers a next state that is s with that context x. -/
def completes (i : Instr) (s : State) (u : Cur) (x : Ctx) : Prop :=
  ∃ s', exec i s = .next s' ∧ Becomes s' s u.tile u.ctx (s.tile u.tile) x

end Machine.Says
end Sys2Proof
end

