-- ==== Sys2Proof/Certificates/Slice0/Obligations.lean ====
section
/-!
DEFINITION. The statements for the provers, and the tables of results, written from the spec's rules, that they speak in. A statement that an instruction
completes says what the whole next state is (Says.Becomes): what it changes, and that every other register, context, tile, queue and byte of memory is as before.
-/
namespace Sys2Proof.Machine.Says

open Sys2Proof

/-! ## Integer results (R296 to R308) -/

/-- R303: 1 when the relation holds, else 0. -/
def bool64 (p : Prop) [Decidable p] : Word := if p then 1 else 0
/-- The 32-bit result r sign-extended to 64 bits (R306). -/
def word (r : W32) : Word := r.signExtend 64
/-- A register's low 32 bits. -/
def low32 (v : Word) : W32 := v.extractLsb' 0 32
/-- Bits [127:64] of an exact product (R307). -/
def high64 (v : Int) : Word := (BitVec.ofInt 128 v).extractLsb' 64 64
/-- u of R296: the immediate shifted left by 12, as a signed 32-bit number. -/
def upper (imm : BitVec 20) : Word := BitVec.ofInt 64 ((imm.toInt : Int) * 4096)

/-- The integer instructions of fixed latency: sources, destination, latency (R140), and the result from the pc and the sources' values. -/
def intForm : Instr → Option (List Nat × Nat × Nat × (Word → List Word → Word))
  | .lui d imm => some ([], d, 2, fun _ _ => upper imm)
  | .auipc d imm => some ([], d, 2, fun pc _ => pc + upper imm)
  | .addi d a imm => some ([a], d, 2, fun _ v => v.getD 0 0 + imm.signExtend 64)
  | .slti d a imm => some ([a], d, 2, fun _ v => bool64 ((v.getD 0 0).toInt < imm.toInt))
  | .sltiu d a imm => some ([a], d, 2, fun _ v => bool64 ((v.getD 0 0).toNat < (imm.signExtend 64).toNat))
  | .xori d a imm => some ([a], d, 2, fun _ v => v.getD 0 0 ^^^ imm.signExtend 64)
  | .ori d a imm => some ([a], d, 2, fun _ v => v.getD 0 0 ||| imm.signExtend 64)
  | .andi d a imm => some ([a], d, 2, fun _ v => v.getD 0 0 &&& imm.signExtend 64)
  | .slli d a h => some ([a], d, 2, fun _ v => BitVec.ofNat 64 ((v.getD 0 0).toNat * 2 ^ h))
  | .srli d a h => some ([a], d, 2, fun _ v => BitVec.ofNat 64 ((v.getD 0 0).toNat / 2 ^ h))
  | .srai d a h => some ([a], d, 2, fun _ v => BitVec.ofInt 64 ((v.getD 0 0).toInt / 2 ^ h))
  | .add d a b => some ([a, b], d, 2, fun _ v => v.getD 0 0 + v.getD 1 0)
  | .sub d a b => some ([a, b], d, 2, fun _ v => v.getD 0 0 - v.getD 1 0)
  | .sll d a b => some ([a, b], d, 2, fun _ v => BitVec.ofNat 64 ((v.getD 0 0).toNat * 2 ^ ((v.getD 1 0).toNat % 64)))
  | .slt d a b => some ([a, b], d, 2, fun _ v => bool64 ((v.getD 0 0).toInt < (v.getD 1 0).toInt))
  | .sltu d a b => some ([a, b], d, 2, fun _ v => bool64 ((v.getD 0 0).toNat < (v.getD 1 0).toNat))
  | .xor d a b => some ([a, b], d, 2, fun _ v => v.getD 0 0 ^^^ v.getD 1 0)
  | .srl d a b => some ([a, b], d, 2, fun _ v => BitVec.ofNat 64 ((v.getD 0 0).toNat / 2 ^ ((v.getD 1 0).toNat % 64)))
  | .sra d a b => some ([a, b], d, 2, fun _ v => BitVec.ofInt 64 ((v.getD 0 0).toInt / 2 ^ ((v.getD 1 0).toNat % 64)))
  | .or d a b => some ([a, b], d, 2, fun _ v => v.getD 0 0 ||| v.getD 1 0)
  | .and d a b => some ([a, b], d, 2, fun _ v => v.getD 0 0 &&& v.getD 1 0)
  | .addiw d a imm => some ([a], d, 2, fun _ v => word (low32 (v.getD 0 0) + imm.signExtend 32))
  | .slliw d a h => some ([a], d, 2, fun _ v => word (BitVec.ofNat 32 ((low32 (v.getD 0 0)).toNat * 2 ^ h)))
  | .srliw d a h => some ([a], d, 2, fun _ v => word (BitVec.ofNat 32 ((low32 (v.getD 0 0)).toNat / 2 ^ h)))
  | .sraiw d a h => some ([a], d, 2, fun _ v => word (BitVec.ofInt 32 ((low32 (v.getD 0 0)).toInt / 2 ^ h)))
  | .addw d a b => some ([a, b], d, 2, fun _ v => word (low32 (v.getD 0 0) + low32 (v.getD 1 0)))
  | .subw d a b => some ([a, b], d, 2, fun _ v => word (low32 (v.getD 0 0) - low32 (v.getD 1 0)))
  | .sllw d a b => some ([a, b], d, 2, fun _ v => word (BitVec.ofNat 32 ((low32 (v.getD 0 0)).toNat * 2 ^ ((v.getD 1 0).toNat % 32))))
  | .srlw d a b => some ([a, b], d, 2, fun _ v => word (BitVec.ofNat 32 ((low32 (v.getD 0 0)).toNat / 2 ^ ((v.getD 1 0).toNat % 32))))
  | .sraw d a b => some ([a, b], d, 2, fun _ v => word (BitVec.ofInt 32 ((low32 (v.getD 0 0)).toInt / 2 ^ ((v.getD 1 0).toNat % 32))))
  | .mul d a b => some ([a, b], d, 4, fun _ v => BitVec.ofNat 64 ((v.getD 0 0).toNat * (v.getD 1 0).toNat))
  | .mulh d a b => some ([a, b], d, 4, fun _ v => high64 ((v.getD 0 0).toInt * (v.getD 1 0).toInt))
  | .mulhsu d a b => some ([a, b], d, 4, fun _ v => high64 ((v.getD 0 0).toInt * ((v.getD 1 0).toNat : Int)))
  | .mulhu d a b => some ([a, b], d, 4, fun _ v => high64 (((v.getD 0 0).toNat : Int) * ((v.getD 1 0).toNat : Int)))
  | .mulw d a b => some ([a, b], d, 4, fun _ v => word (BitVec.ofNat 32 ((low32 (v.getD 0 0)).toNat * (low32 (v.getD 1 0)).toNat)))
  | _ => none

/-- R308 at width w: the signed quotient and remainder, rounded toward zero, with the two special cases; and the unsigned ones. -/
def quotS {w : Nat} (a b : BitVec w) : BitVec w := if b = 0 then BitVec.allOnes w else BitVec.ofInt w (a.toInt.tdiv b.toInt)
def remainS {w : Nat} (a b : BitVec w) : BitVec w := if b = 0 then a else BitVec.ofInt w (a.toInt.tmod b.toInt)
def quotU {w : Nat} (a b : BitVec w) : BitVec w := if b = 0 then BitVec.allOnes w else BitVec.ofNat w (a.toNat / b.toNat)
def remainU {w : Nat} (a b : BitVec w) : BitVec w := if b = 0 then a else BitVec.ofNat w (a.toNat % b.toNat)

/-- The divides (R308): sources, destination and result. -/
def divForm : Instr → Option (Nat × Nat × Nat × (Word → Word → Word))
  | .div d a b => some (d, a, b, quotS)
  | .divu d a b => some (d, a, b, quotU)
  | .rem d a b => some (d, a, b, remainS)
  | .remu d a b => some (d, a, b, remainU)
  | .divw d a b => some (d, a, b, fun x y => word (quotS (low32 x) (low32 y)))
  | .divuw d a b => some (d, a, b, fun x y => word (quotU (low32 x) (low32 y)))
  | .remw d a b => some (d, a, b, fun x y => word (remainS (low32 x) (low32 y)))
  | .remuw d a b => some (d, a, b, fun x y => word (remainU (low32 x) (low32 y)))
  | _ => none

/-- The branches (R298): sources, offset and condition. -/
def branchForm : Instr → Option (Nat × Nat × BitVec 13 × (Word → Word → Bool))
  | .beq a b imm => some (a, b, imm, fun x y => x == y)
  | .bne a b imm => some (a, b, imm, fun x y => x != y)
  | .blt a b imm => some (a, b, imm, fun x y => decide (x.toInt < y.toInt))
  | .bge a b imm => some (a, b, imm, fun x y => decide (y.toInt ≤ x.toInt))
  | .bltu a b imm => some (a, b, imm, fun x y => decide (x.toNat < y.toNat))
  | .bgeu a b imm => some (a, b, imm, fun x y => decide (y.toNat ≤ x.toNat))
  | _ => none

/-! ## Scalar floats (R310 to R319) -/

/-- A register as an FP32 value (R310): its low 32 bits decoded. -/
def f32 (v : Word) : Val := Num.decodeFloat (Num.floatFmt 0) (low32 v).toNat
/-- The canonical NaN (R145). -/
def qNaN : Nat := 0x7FC00000
/-- A pattern is a NaN: exponent field 255 and a mantissa that is not 0. -/
def isNaN (b : W32) : Bool := decide (b.toNat % 2 ^ 31 > 0x7F800000)
/-- The place of a pattern in the order of R313, −0 below +0; every NaN apart. -/
def place (b : W32) : Int := if b.toNat < 2 ^ 31 then (b.toNat : Int) else -((b.toNat % 2 ^ 31 : Nat) : Int) - 1
/-- The place of a pattern where +0 and −0 are equal (R314). -/
def value (b : W32) : Int := if b.toNat < 2 ^ 31 then (b.toNat : Int) else -((b.toNat % 2 ^ 31 : Nat) : Int)
/-- R313. -/
def minMax (least : Bool) (a b : W32) : Nat :=
  if isNaN a || isNaN b then qNaN else if (place a ≤ place b) = (least = true) then a.toNat else b.toNat
/-- R314: the relation holds, and no operand is a NaN. -/
def compares (p : Int → Int → Bool) (a b : W32) : Nat := if !isNaN a && !isNaN b && p (value a) (value b) then 1 else 0
/-- R315: a sign bit over the magnitude of a. -/
def withSign (sign : Bool) (a : W32) : Nat := a.toNat % 2 ^ 31 + (if sign then 2 ^ 31 else 0)
/-- R317: the number of the class of a pattern. -/
def classOf (b : W32) : Nat :=
  let m := b.toNat % 2 ^ 31
  let neg := decide (2 ^ 31 ≤ b.toNat)
  if m > 0x7F800000 then 8
  else if m = 0x7F800000 then (if neg then 0 else 7)
  else if m ≥ 0x800000 then (if neg then 1 else 6)
  else if m > 0 then (if neg then 2 else 5)
  else (if neg then 3 else 4)
/-- Encode(FP32, v, MODE), with the flags of its one rounding and those of the operation (R155, R310). -/
def single (mode : Nat) (v : Val) (fl : Nat) : Nat × Nat := ((Num.encodeFloat (Num.floatFmt 0) mode false v).1, fl ||| (Num.encodeFloat (Num.floatFmt 0) mode false v).2)
/-- The flag NV when an operation is invalid (R156). -/
def invalid (b : Bool) : Nat := if b then NV else 0
/-- R318: an FP32 value as a w-bit integer, sign-extended: rounded by MODE, clamped with SATD under ISAT and NV without. -/
def asInt (w : Nat) (rnd : Nat) (v : Val) : Word × Nat :=
  let r := Num.floatToInt (-(2 ^ (w - 1) : Nat)) ((2 ^ (w - 1) : Nat) - 1) (Num.rmode rnd) (Num.risat rnd) v
  (BitVec.ofInt 64 r.1, r.2)

/-- The scalar floats of fixed latency: S, sources, destination, latency (R311), and the 64-bit result with the flags, from RND and the sources' values. -/
def floatForm : Instr → Option (Nat × List Nat × Nat × Nat × (Nat → List Word → Nat × Nat))
  | .fadd S d a b => some (S, [a, b], d, 8, fun r v =>
      let t := Num.sum (r % 8) [f32 (v.getD 0 0), f32 (v.getD 1 0)]; single (r % 8) t.1 (invalid t.2))
  | .fsub S d a b => some (S, [a, b], d, 8, fun r v =>
      let t := Num.sum (r % 8) [f32 (v.getD 0 0), Num.negate (f32 (v.getD 1 0))]; single (r % 8) t.1 (invalid t.2))
  | .fmul S d a b => some (S, [a, b], d, 8, fun r v =>
      let t := Num.mul (f32 (v.getD 0 0)) (f32 (v.getD 1 0)); single (r % 8) t.1 (invalid t.2))
  | .fmac S d a b => some (S, [a, b, d], d, 8, fun r v =>
      let p := Num.mul (f32 (v.getD 0 0)) (f32 (v.getD 1 0))
      let t := Num.sum (r % 8) [p.1, f32 (v.getD 2 0)]
      single (r % 8) (if p.2 then .nan else t.1) (invalid (p.2 || t.2)))
  | .fmin S d a b => some (S, [a, b], d, 8, fun _ v => (minMax true (low32 (v.getD 0 0)) (low32 (v.getD 1 0)), 0))
  | .fmax S d a b => some (S, [a, b], d, 8, fun _ v => (minMax false (low32 (v.getD 0 0)) (low32 (v.getD 1 0)), 0))
  | .feq S d a b => some (S, [a, b], d, 8, fun _ v => (compares (fun x y => x == y) (low32 (v.getD 0 0)) (low32 (v.getD 1 0)), 0))
  | .flt S d a b => some (S, [a, b], d, 8, fun _ v => (compares (fun x y => decide (x < y)) (low32 (v.getD 0 0)) (low32 (v.getD 1 0)), 0))
  | .fle S d a b => some (S, [a, b], d, 8, fun _ v => (compares (fun x y => decide (x ≤ y)) (low32 (v.getD 0 0)) (low32 (v.getD 1 0)), 0))
  | .fsgnj S d a b => some (S, [a, b], d, 8, fun _ v => (withSign (low32 (v.getD 1 0)).msb (low32 (v.getD 0 0)), 0))
  | .fsgnjn S d a b => some (S, [a, b], d, 8, fun _ v => (withSign (!(low32 (v.getD 1 0)).msb) (low32 (v.getD 0 0)), 0))
  | .fsgnjx S d a b => some (S, [a, b], d, 8, fun _ v => (withSign ((low32 (v.getD 0 0)).msb != (low32 (v.getD 1 0)).msb) (low32 (v.getD 0 0)), 0))
  | .fclass S d a => some (S, [a], d, 8, fun _ v => (2 ^ classOf (low32 (v.getD 0 0)), 0))
  | .fcvtws S d a => some (S, [a], d, 8, fun r v => let t := asInt 32 r (f32 (v.getD 0 0)); (t.1.toNat, t.2))
  | .fcvtls S d a => some (S, [a], d, 8, fun r v => let t := asInt 64 r (f32 (v.getD 0 0)); (t.1.toNat, t.2))
  | .fcvtsw S d a => some (S, [a], d, 8, fun r v => single (r % 8) (Num.ofInt (low32 (v.getD 0 0)).toInt) 0)
  | .fcvtsl S d a => some (S, [a], d, 8, fun r v => single (r % 8) (Num.ofInt (v.getD 0 0).toInt) 0)
  | .fexp2 S d a => some (S, [a], d, 12, fun r v => let t := Num.exp2 (f32 (v.getD 0 0)); single (r % 8) t.1 t.2)
  | .flog2 S d a => some (S, [a], d, 12, fun r v => let t := Num.log2 (f32 (v.getD 0 0)); single (r % 8) t.1 t.2)
  | .frcp S d a => some (S, [a], d, 12, fun r v => let t := Num.div (.fin false 1 0) (f32 (v.getD 0 0)); single (r % 8) t.1 t.2)
  | .frsq S d a => some (S, [a], d, 12, fun r v => let t := Num.rsqrt (f32 (v.getD 0 0)); single (r % 8) t.1 t.2)
  | .fpack S d a f => if f < 18 then some (S, [a], d, 8, fun r v => Num.encode f r (f32 (v.getD 0 0))) else none
  | .funpk S d a f => if f < 18 then some (S, [a], d, 8, fun r v =>
      let t := Num.decode f ((v.getD 0 0).toNat % 2 ^ Num.width f); single (r % 8) t.1 (invalid t.2)) else none
  | _ => none

/-- The two scalar floats of variable latency (R311): S, sources, destination, result and flags. -/
def unitForm : Instr → Option (Nat × List Nat × Nat × (Nat → List Word → Nat × Nat))
  | .fdiv S d a b => some (S, [a, b], d, fun r v => let t := Num.div (f32 (v.getD 0 0)) (f32 (v.getD 1 0)); single (r % 8) t.1 t.2)
  | .fsqrt S d a => some (S, [a], d, fun r v => let t := Num.sqrt (f32 (v.getD 0 0)); single (r % 8) t.1 t.2)
  | _ => none

/-- The context at cycle n with flags raised lat cycles later (R156, R310); those of results that have landed by n are set (R141). -/
def flagged (x : Ctx) (n lat fl : Nat) : Ctx :=
  { x with ffl := x.fflAt n, fflLate := x.fflLate.filter (fun p => decide (n < p.1)) ++ [(n + lat, BitVec.ofNat 8 fl)] }

/-- An instruction that also changes its tile completes: the next state is s with that tile and that context. -/
def completesTile (i : Instr) (s : State) (u : Cur) (v : Tile) (x : Ctx) : Prop := ∃ s', exec i s = .next s' ∧ Becomes s' s u.tile u.ctx v x

/-- An instruction that also changes the package beside the tiles completes: the next state is b with that tile and that context. -/
def completesWith (i : Instr) (s b : State) (u : Cur) (v : Tile) (x : Ctx) : Prop := ∃ s', exec i s = .next s' ∧ Becomes s' b u.tile u.ctx v x

/-- An instruction traps: the next state is s with the trap of that cause and address taken by its context (R255). -/
def traps (i : Instr) (s : State) (u : Cur) (cause : Nat) (addr : Word) : Prop :=
  exec i s = .next (s.takeTrap u.tile u.ctx { cause := cause, addr := addr, insn := u.insn, pc := (s.ctx u.tile u.ctx).pc })

/-! ## Vector and matrix instructions (R326 to R344) -/

/-- The context's part of an issue that completes and goes on: pc, latch, park and spacing, its x registers as before. -/
def wentOn (s s' : State) (u : Cur) (S : Nat) : Prop :=
  (s'.ctx u.tile u.ctx).pc = (s.ctx u.tile u.ctx).pc + 4 ∧ (s'.ctx u.tile u.ctx).latch = none ∧ (s'.ctx u.tile u.ctx).park = 0 ∧
  (s'.ctx u.tile u.ctx).readyAt = s.cyc + 4 * (1 + S) ∧ (s'.ctx u.tile u.ctx).x = (s.ctx u.tile u.ctx).x

/-- The vector instructions by number (R331 to R336): S, vop, D, A, B and mod. -/
def vecForm : Instr → Option (Nat × Nat × Nat × Nat × Nat × Nat)
  | .vadd S d a b => some (S, 0, d, a, b, 0)
  | .vsub S d a b => some (S, 1, d, a, b, 0)
  | .vmul S d a b => some (S, 2, d, a, b, 0)
  | .vfma S d a b => some (S, 3, d, a, b, 0)
  | .vmax S d a b => some (S, 4, d, a, b, 0)
  | .vmin S d a b => some (S, 5, d, a, b, 0)
  | .vamax S d a b => some (S, 6, d, a, b, 0)
  | .vabs S d a => some (S, 7, d, a, 0, 0)
  | .vneg S d a => some (S, 8, d, a, 0, 0)
  | .vexp2 S d a => some (S, 9, d, a, 0, 0)
  | .vrcp S d a => some (S, 10, d, a, 0, 0)
  | .vrsq S d a => some (S, 11, d, a, 0, 0)
  | .vscl S d x a => some (S, 12, d, a, x, 0)
  | .vadds S d x a => some (S, 13, d, a, x, 0)
  | .vmaxs S d x a => some (S, 14, d, a, x, 0)
  | .vcpy S d a => some (S, 15, d, a, 0, 0)
  | .vset S d x => some (S, 16, d, 0, x, 0)
  | .vsel S d a b c => some (S, 17, d, a, b, c)
  | .vreds S x a => some (S, 18, x, a, 0, 0)
  | .vredm S x a m => some (S, 19, x, a, 0, m)
  | _ => none

/-- What a vector instruction captures when it issues (R322, R328): its place in program order, its context, VL, RND, ITER and the bank registers. -/
def captured (s : State) (u : Cur) (vop d a b mod : Nat) : VOp :=
  { id := s.nextId, ctx := u.ctx, gen := (s.ctx u.tile u.ctx).gen, vop := vop, d := d, a := a, b := b, mod := mod, vl := (s.ctx u.tile u.ctx).vl
    rnd := (s.ctx u.tile u.ctx).rnd, iter := (s.ctx u.tile u.ctx).iter, fmts := (s.tile u.tile).bank.els, pc := (s.ctx u.tile u.ctx).pc, insn := u.insn }

/-- Whether the selectors of a vector instruction are pointers into banks of its own tile. -/
def local_ (s : State) (u : Cur) (vop d a b : Nat) : Prop :=
  (∀ q ∈ vopReads vop d a b, q < 8 ∧ s.remoteTile u.tile u.ctx q = none) ∧ (vop < 18 → d < 8)

/-- The context of an accumulator's owner whose turn it is, the unit free (R110, R132, R337, R338): it may issue a matrix step on accumulator n. -/
def mayStep (s : State) (u : Cur) (n : Nat) : Prop :=
  (s.ctx u.tile u.ctx).role.toNat % 2 = 0 ∧ (s.tile u.tile).ownTurn u.ctx s.cyc = true ∧ (s.tile u.tile).mrun = none ∧ (s.tile u.tile).mfree ≤ s.cyc ∧
  s.bankBusy u.tile u.ctx = false ∧ ((s.tile u.tile).acc.getD n {}).owner = some u.ctx

/-- A source selector of a matrix step: a pointer into a bank of the tile itself that gives operand o, and whose first n vectors are these rows. -/
def rowsOf (s : State) (u : Cur) (q n : Nat) (o : Operand) (rows : List (Vec × Nat)) : Prop :=
  q < 8 ∧ s.remoteTile u.tile u.ctx q = none ∧ (∀ k, s.operand u.tile u.ctx q (s.tile u.tile).bank.els k = .ok o) ∧ o.fmt.bad = false ∧
  s.readVecs u.tile u.ctx o 0 n = .ok (s, rows)

/-- A source selector of a matrix step that passes the checks of the issue: the operand it gives when cnt of its format is the vectors it needs. -/
def stepSource (s : State) (u : Cur) (q : Nat) (cnt : OFmt → Nat) (o : Operand) : Prop :=
  s.selBad u.tile u.ctx q false = false ∧ o.fmt.bad = false ∧
  ∃ o0, s.operand u.tile u.ctx q (s.tile u.tile).bank.els 0 = .ok o0 ∧ s.operand u.tile u.ctx q (s.tile u.tile).bank.els (cnt o0.fmt) = .ok o

/-- A source that a matrix step has fetched before it issues (R337): a stream, or a pointer into another tile. -/
def fetched (s : State) (u : Cur) (q : Nat) : Prop := 8 ≤ q ∨ s.remoteTile u.tile u.ctx q ≠ none

/-- A matrix step has taken the operand buffer for its vectors; its context is not ready, and stands at it (R337). -/
def fetches (s s' : State) (u : Cur) : Prop :=
  (s'.tile u.tile).mbuf = some { ctx := u.ctx, pc := (s.ctx u.tile u.ctx).pc, insn := u.insn } ∧ (s'.tile u.tile).mrun = none ∧
  (s'.tile u.tile).acc = (s.tile u.tile).acc ∧ (s'.ctx u.tile u.ctx).pc = (s.ctx u.tile u.ctx).pc ∧ (s'.ctx u.tile u.ctx).x = (s.ctx u.tile u.ctx).x ∧
  (s'.ctx u.tile u.ctx).latch = (s.ctx u.tile u.ctx).latch ∧ (s'.ctx u.tile u.ctx).busy = (s.ctx u.tile u.ctx).busy ∧
  (s'.ctx u.tile u.ctx).readyAt = s.cyc + 1 ∧ u.tile ∉ s'.issuedNow ∧ ∀ pa, s'.peek pa = s.peek pa

/-- An MMA on its way to the accumulator (R337, R339): the sums of its rows, for its occupancy. -/
def mmaRun (s : State) (u : Cur) (n : Nat) (oa ob : Operand) (ra rb : List (Vec × Nat)) : MRun :=
  let r := mmaOf (s.ctx u.tile u.ctx).rnd.toNat oa.fmt.int ((s.tile u.tile).acc.getD n {}).els (s.mRows oa.fmt ra) (s.mRows ob.fmt rb)
  { id := s.nextId, ctx := u.ctx, gen := (s.ctx u.tile u.ctx).gen, acc := n, till := s.cyc + mmaOcc u.tile oa ob, els := some r.1, flags := r.2 }

/-- The words an MLOAD writes (R341): the first 256 elements of its rows, as integers or rounded to FP32. -/
def loaded (s : State) (u : Cur) (o : Operand) (rows : List (Vec × Nat)) : List W32 :=
  ((s.mRows o.fmt rows).flatten.take 256).map fun x =>
    if o.fmt.int then BitVec.ofInt 32 x.i else BitVec.ofNat 32 (Num.toFp32 ((s.ctx u.tile u.ctx).rnd.toNat % 8) x.v).1

/-- An element of a vector instruction in the integer domain, exactly (R331 to R335): a of A, b of B or the scalar, c of D. -/
def intElem (vop mod : Nat) (a b c : Int) : Int :=
  if vop = 0 ∨ vop = 13 then a + b
  else if vop = 1 then a - b
  else if vop = 2 ∨ vop = 12 then a * b
  else if vop = 3 then a * b + c
  else if vop = 4 ∨ vop = 14 then (if a ≤ b then b else a)
  else if vop = 5 then (if a ≤ b then a else b)
  else if vop = 6 then (if a.natAbs ≤ b.natAbs then b.natAbs else a.natAbs)
  else if vop = 7 then a.natAbs
  else if vop = 8 then -a
  else if vop = 17 then
    (if (mod = 0 ∧ a = 0) ∨ (mod = 1 ∧ a ≠ 0) ∨ (mod = 2 ∧ a < 0) ∨ (mod = 3 ∧ a ≤ 0) ∨ (mod = 4 ∧ 0 < a) ∨ (mod = 5 ∧ 0 ≤ a) then a else b)
  else a

/-- A pointer register advanced by n vectors (R129). -/
def stepped (x : Ctx) (q n : Nat) : Ctx := { x with ptr := x.ptr.set q (pAdvance (x.ptr.getD q 0) n) }

/-- R162: an element of an integer-domain step in which no sum leaves the range of INT32. -/
def macInt (acc : W32) (a b : List Int) : Int := (List.zipWith (· * ·) a b).foldl (· + ·) acc.toInt

/-! ## Memory accesses (R295 to R301, R346 to R357) -/

/-- The loads (R299): destination, base, offset, bytes, and whether they sign-extend. -/
def loadForm : Instr → Option (Nat × Nat × BitVec 12 × Nat × Bool)
  | .lb d a imm => some (d, a, imm, 1, true)
  | .lh d a imm => some (d, a, imm, 2, true)
  | .lw d a imm => some (d, a, imm, 4, true)
  | .ld d a imm => some (d, a, imm, 8, false)
  | .lbu d a imm => some (d, a, imm, 1, false)
  | .lhu d a imm => some (d, a, imm, 2, false)
  | .lwu d a imm => some (d, a, imm, 4, false)
  | _ => none

/-- The stores (R301): base, source, offset and bytes. -/
def storeForm : Instr → Option (Nat × Nat × BitVec 12 × Nat)
  | .sb a b imm => some (a, b, imm, 1)
  | .sh a b imm => some (a, b, imm, 2)
  | .sw a b imm => some (a, b, imm, 4)
  | .sd a b imm => some (a, b, imm, 8)
  | _ => none

/-- The atomics (R350): S, destination, address, operand, f4 and bytes. -/
def amoForm : Instr → Option (Nat × Nat × Nat × Nat × Nat × Nat)
  | .amoaddD S d a b => some (S, d, a, b, 0, 8)
  | .amomaxD S d a b => some (S, d, a, b, 1, 8)
  | .amominD S d a b => some (S, d, a, b, 2, 8)
  | .amoswpD S d a b => some (S, d, a, b, 3, 8)
  | .amocasD S d a b => some (S, d, a, b, 4, 8)
  | .amoandD S d a b => some (S, d, a, b, 5, 8)
  | .amoorD S d a b => some (S, d, a, b, 6, 8)
  | .amoxorD S d a b => some (S, d, a, b, 7, 8)
  | .amoaddW S d a b => some (S, d, a, b, 0, 4)
  | .amomaxW S d a b => some (S, d, a, b, 1, 4)
  | .amominW S d a b => some (S, d, a, b, 2, 4)
  | .amoswpW S d a b => some (S, d, a, b, 3, 4)
  | .amocasW S d a b => some (S, d, a, b, 4, 4)
  | .amoandW S d a b => some (S, d, a, b, 5, 4)
  | .amoorW S d a b => some (S, d, a, b, 6, 4)
  | .amoxorW S d a b => some (S, d, a, b, 7, 4)
  | .amofadd S d a b => some (S, d, a, b, 8, 4)
  | .amofmax S d a b => some (S, d, a, b, 9, 4)
  | _ => none

/-- R350: the new value of a word of n bytes under f4, from the old value, the operand and the compare value; integers wrap, and max and min are signed. -/
def amoNew (op n old v cmp : Nat) : Nat :=
  match op with
  | 0 => (old + v) % 2 ^ (8 * n)
  | 1 => if sgn (8 * n) old < sgn (8 * n) v then v else old
  | 2 => if sgn (8 * n) v < sgn (8 * n) old then v else old
  | 3 => v
  | 4 => if old = cmp then v else old
  | 5 => old &&& v
  | 6 => old ||| v
  | _ => old ^^^ v

/-- The address of an access of n bytes at va resolves (R295, R346): aligned, and s1 is the state, its TLB filled, in which it reaches pa with translation
e. -/
def resolves (s : State) (u : Cur) (va : Word) (n : Nat) (r w wr : Bool) (s1 : State) (pa : Nat) (e : Option Xlat) : Prop :=
  va.toNat % n = 0 ∧ s.access u.tile u.ctx va.toNat n r w false wr = .at_ s1 pa e

/-- An access of kind k is the newest of s': it has taken the next place in program order; every earlier access is as it was. -/
def sent (s s' : State) (u : Cur) (k : ReqKind) (pa n d : Nat) (r : Req) : Prop :=
  s'.reqs = s.reqs ++ [r] ∧ r.id = s.nextId ∧ s'.nextId = s.nextId + 1 ∧ r.tile = u.tile ∧ r.ctx = u.ctx ∧ r.gen = (s.ctx u.tile u.ctx).gen ∧
  r.kind = k ∧ r.pa = pa ∧ r.n = n ∧ r.dst = d

/-- No WAITV is in progress on a translated word, so that a write answers no command. -/
def noWaitv (s : State) : Prop := ∀ q ∈ s.windows, ∀ r, q.2.run = some r → r.pa = none

/-- The object of a barrier instruction (R359): the address is 64-byte aligned in a LOCAL or REMOTE segment with the rights, and its vector is line l of a
tile's scratchpad, not poisoned, whose group is not away. -/
def objectAt (s : State) (u : Cur) (va : Word) (w : Bool) (l : Nat) : Prop :=
  va.toNat % 64 = 0 ∧ s.farAway u.tile (s.ctx u.tile u.ctx).seg va.toNat = false ∧ ∃ d off, s.segCheck u.tile (s.ctx u.tile u.ctx).seg va.toNat 16 true w false = .ok (.spad d off) ∧ l = spadPa d off / 64 ∧
    isSpad (spadPa d off) = true ∧ s.poisoned l = false

/-- Nothing of the context is in flight: no access, no vector or matrix work, no hold; and it is entered as a waiter at no barrier. -/
def quiet (s : State) (u : Cur) : Prop :=
  (∀ r ∈ s.reqs, ¬(r.tile = u.tile ∧ r.ctx = u.ctx)) ∧ s.unitBusy u.tile u.ctx s.nextId = false ∧ (s.ctx u.tile u.ctx).fences = [] ∧
  (∀ r, (s.ctx u.tile u.ctx).closed.getD r false = false ∧ (s.ctx u.tile u.ctx).clearing.getD r false = false) ∧ ∀ w ∈ s.barWait, ¬(w.2.2.1 = u.tile ∧ w.2.2.2 = u.ctx)

/-! ## Context and system instructions (R378 to R393) -/

/-- R378: the registers that only the crown may access. -/
def crowns (r : Nat) : Bool := r = 13 || r = 14 || r = 16 || r = 17 || r = 18 || r = 19

/-- R378, R379: what an SRD of each register returns. -/
def sysValue (s : State) (u : Cur) (r : Nat) : Word :=
  let x := s.ctx u.tile u.ctx
  let v := s.tile u.tile
  if r = 0 then BitVec.ofNat 64 x.iter.toNat
  else if r = 1 then BitVec.ofNat 64 x.rnd.toNat
  else if r = 2 then BitVec.ofNat 64 (x.fflAt s.cyc).toNat
  else if r = 3 then BitVec.ofNat 64 x.vl
  else if r = 4 then BitVec.ofNat 64 v.acstat
  else if r = 5 then BitVec.ofNat 64 x.slim.toNat
  else if r = 6 then x.qmap
  else if r = 7 then x.qdest &&& 0xFF3F1FFFFF
  else if r = 8 then x.role
  else if r = 9 then BitVec.ofNat 64 (u.ctx + x.gen * 2 ^ 8 + s.groupIdx u.tile * 2 ^ 16 + (match s.launchOf u.tile with | some l => l.num | none => 0) * 2 ^ 32)
  else if r = 10 then BitVec.ofNat 64 (s.ref6 / 6)
  else if r = 11 then (if x.schk then 1 else 0)
  else if r = 12 then BitVec.ofNat 64 x.orph
  else if r = 13 then v.rotLo
  else if r = 14 then v.rotHi
  else if r = 15 then x.rtmap
  else if r = 16 then v.tepc
  else if r = 17 then v.tfpc
  else if r = 18 then v.taddr
  else v.tcause

/-- R378: the context after an SWR of v to one of its own registers at cycle n, or none where the value has a reserved bit or is out of range. -/
def sysWrite (x : Ctx) (n r : Nat) (v : Word) : Option Ctx :=
  if r = 0 then (if v.toNat < 2 ^ 32 then some { x with iter := BitVec.ofNat 32 v.toNat } else none)
  else if r = 1 then (if v.toNat < 32 ∧ v.toNat % 8 < 6 then some { x with rnd := BitVec.ofNat 8 v.toNat } else none)
  else if r = 2 then
    (if v.toNat < 128 then some { x with ffl := BitVec.ofNat 8 v.toNat, fflLate := x.fflLate.filter fun p => decide (n < p.1) } else none)
  else if r = 3 then (if 1 ≤ v.toNat ∧ v.toNat ≤ 2048 then some { x with vl := v.toNat } else none)
  else if r = 5 then (if v.toNat < 2 ^ 32 then some { x with slim := BitVec.ofNat 32 v.toNat } else none)
  else if r = 8 then (if v.toNat < 2 then some { x with role := v } else none)
  else if r = 11 then (if v.toNat < 2 then some { x with schk := decide (v.toNat = 1) } else none)
  else if r = 15 then (if v.toNat % 8 = 0 then some { x with rtmap := v } else none)
  else none

/-- R108: the two halves of a tile's rotation table after a write of one, over the write that waits, if one does. -/
def rotAfter (t : Tile) (hi : Bool) (v : Word) : Word × Word :=
  let old := match t.rotNext with | some p => p | none => (t.rotLo, t.rotHi)
  if hi then (old.1, v ||| 0xF000000000000000) else (v ||| 0xF000000000000000, old.2)
/-- R108: entry e of a rotation table. -/
def rotEntry (l h : Word) (e : Nat) : Nat := if e < 16 then l.toNat / 2 ^ (4 * e) % 16 else h.toNat / 2 ^ (4 * (e - 16)) % 16

/-- R255: y is x, stopped by the trap i at cycle n: its registers, pc and configuration are as they were; a replayable trap leaves PARK 10 and its cause in the
latch with the instruction. -/
def stoppedBy (x y : Ctx) (n : Nat) (i : TrapInfo) : Prop :=
  let r := decide (1 ≤ i.cause) && decide (i.cause ≤ 5)
  y.state = .stopped ∧ y.busy = false ∧ (y.park = if r then 10 else 0) ∧
  y.latch = some { fetch := i.fetch, insn := i.insn, pc := i.pc, prog := i.prog, aux := if r then i.cause else 0
                   next := x.latch.bind fun l => if l.pc = i.pc then l.next else none } ∧
  { y with state := x.state, busy := x.busy, park := x.park, latch := x.latch, parkedAt := x.parkedAt, readyAt := x.readyAt, deferred := x.deferred } = x ∧
  y.deferred = none ∧ y.readyAt = n + 4

/-- R255, R268, R119: a context stopped by a replayable trap that goes on at cycle n: in its slot, or cached, with the instruction of its latch to issue, or the word
whose fetch trapped to fetch again; a short read waits for its result to land (R141); one of a group that waits to migrate counts as stopped. -/
def replayed (x : Ctx) (n : Nat) (waits : Bool) : Ctx :=
  { x with
    state := if x.slot.isSome then .slotted else .cached, park := 0, ckptStop := x.ckptStop || waits
    latch := match x.latch with | some l => if l.fetch then none else some { l with aux := 0 } | none => none
    readyAt := max (max x.readyAt (n + 1)) (match x.latch with | some l => if l.aux = causeStallShort then x.landed else 0 | none => 0) }

/-! ## Engines (R362 to R376) -/

/-- R129, R362: p is a pointer image without reserved bits to a bank of its own tile, and n vectors lie from its index on. -/
def names (p n : Nat) : Prop := p < 2 ^ 32 ∧ p % 4 ≠ 3 ∧ p / 4 % 2 = 0 ∧ p / 512 % 2048 + n ≤ 2048

/-- R362: the n vectors that a pointer image of the tile names are v, none poisoned. -/
def holds (s : State) (t p n v : Nat) : Prop := names p n ∧ s.ptrBlock t p n = (v, false)

/-- R219: a command of the context: what it takes from its issuer, and its completion word from the command vector v. -/
def commanded (s : State) (u : Cur) (m : CopyCmd) (die w v : Nat) : Prop :=
  m.id = s.nextId ∧ m.die = die ∧ m.eng = w / 4 % 16 ∧ m.q = w / 64 % 8 ∧ m.tile = u.tile ∧ m.ctx = u.ctx ∧ m.gen = (s.ctx u.tile u.ctx).gen ∧
  m.part = s.partOf u.tile ∧ m.group = s.groupIdx u.tile ∧ m.cword = BitVec.ofNat 64 (v / 2 ^ 128) ∧ m.cval = BitVec.ofNat 64 (v / 2 ^ 192) ∧
  m.rnd = (s.ctx u.tile u.ctx).rnd ∧ m.iter = (s.ctx u.tile u.ctx).iter ∧ m.segs = (s.ctx u.tile u.ctx).seg

/-- A command of the context has left for its engine, and the context goes on. -/
def commands (i : Instr) (s : State) (u : Cur) (S : Nat) (m : CopyCmd) : Prop :=
  ∃ s', exec i s = .next s' ∧ s'.copyMsgs = s.copyMsgs ++ [m] ∧
    Becomes s' { s with copyMsgs := s'.copyMsgs, nextId := s.nextId + 1 } u.tile u.ctx (s.tile u.tile)
      (retire (s.ctx u.tile u.ctx) s.cyc S ((s.ctx u.tile u.ctx).pc + 4))

/-- The context is entered as a waiter at no barrier. -/
def noBarWait (s : State) (u : Cur) : Prop := ∀ w ∈ s.barWait, ¬(w.2.2.1 = u.tile ∧ w.2.2.2 = u.ctx)

/-- R372: a half h of a peer word names rank p, of n ranks of which this one is me; lc gives the loop counters. -/
def peer (h n me : Nat) (lc : Nat → Nat) (p : Nat) : Prop :=
  let k := if h / 4 % 2 = 1 then lc (h / 8 % 4) else h / 8 % 1024
  h < 8192 ∧ (h / 4 % 2 = 1 → h / 32 = 0) ∧ p ≠ me ∧ p < n ∧
  ((h % 4 = 0 ∧ p = (me + k) % n) ∨ (h % 4 = 1 ∧ (p : Int) = ((me : Int) - (k : Int)) % (n : Int)) ∨ (h % 4 = 2 ∧ p = me ^^^ k))

/-- R247: n bytes at offset off of the block at line blk of a tile's scratchpad. -/
def block (s : State) (t blk off n : Nat) : Nat := s.peekN (spadPa t (64 * blk + off)) n

/-- The sources can be read where x31 takes the flit f (R230, R294). -/
def taking (x : Ctx) (n : Nat) (f : Flit) : List Nat → List Word → Prop
  | [], [] => True
  | r :: rs, v :: vs => ((r = 31 ∧ v = f.val) ∨ (r ≠ 31 ∧ readable x n r v)) ∧ taking x n f rs vs
  | _, _ => False

/-- R363, R379: QDEST q of a group of n contexts is one that a write of x30 may use. -/
def goodDest (n q : Nat) : Prop :=
  q < 2 ^ 40 ∧ q / 2 ^ 30 % 4 = 0 ∧ q / 2 ^ 21 % 8 = 0 ∧ q % 64 < n ∧ (q / 2 ^ 24 % 2 = 1 → 1 ≤ q / 2 ^ 25 % 32 ∧ q / 2 ^ 25 % 32 ≤ 29)

/-- R239: the used slots of the route vectors rv, as pairs of 4 × row + slot and target number. -/
def usedSlots (rv : Nat) : List (Nat × Nat) :=
  (List.range 64).filterMap fun i =>
    if rv / 2 ^ (8 * (32 * (i / 4) + i % 4)) % 256 = 255 then none else some (i, rv / 2 ^ (8 * (32 * (i / 4) + i % 4)) % 256)

/-- R233: the image v of a registration has no field out of range. -/
def goodTarget (v : Nat) : Prop :=
  let cap := v / 2 ^ 16 % 2 ^ 16
  let wmax := v / 2 ^ 32 % 2 ^ 16
  let ring := v / 2 ^ 48 % 2 ^ 16
  v % 256 ≠ 255 ∧ v / 2 ^ 10 % 64 = 0 ∧ v / 2 ^ 80 % 2 ^ 16 = 0 ∧ v < 2 ^ 192 ∧ 1 ≤ cap ∧ cap ≤ 256 ∧ 1 ≤ wmax ∧ wmax ≤ 256 ∧
  ring < 3 * 2 ^ 11 ∧ v / 2 ^ 64 % 2 ^ 16 < 3 * 2 ^ 11 ∧ ring % 2048 + cap * (1 + wmax) ≤ 2048

/-! ## Events (R11 to R86, R118 to R266, R414) -/

/-- The phase of boot becomes n, with PF vector 0 (R25, R71). -/
def phased (s : State) (b : Boot) (n : Nat) : State := { s with boot := { b with phase := n }, msix := s.msix ++ [(0, 0)] }

/-- R30: a response m leaves, and the responder's transcripts are those of b. -/
def answered (s : State) (b : Boot) (m : List Byte) : State := { s with boot := { b with replies := s.boot.replies ++ [m] } }
/-- R30: an ERROR response leaves; the transcripts are as they were. -/
def turnedAway (s : State) (code data : Byte) : State := answered s s.boot [0x13, 0x7F, code, data]
/-- R31: the measurement block of record k: index, specification, sizes, type, then INDEX, KIND, SEC_VER and the digest. -/
def measBlock (s : State) (k : Nat) : List Byte :=
  [BitVec.ofNat 8 k, 1, 75, 0, if k = 1 then 0x80 else if k = 2 then 0x81 else 0x83, 72, 0] ++ natBytes k 2 ++ natBytes k 2 ++ natBytes s.boot.secVer 4 ++ s.measured k

/-- R20: the power manager's record of a window, before its outcome. -/
def windowed (p : Power) (tj watts : Nat) : Power :=
  { p with tj := min tj 255, watts := min watts 65535, narrowAct := p.narrow, narrow := false
           lowWin := if watts < 1800 ∧ p.target = 1 then p.lowWin + 1 else 0, coolWin := if tj < 95 ∧ p.target = 2 then p.coolWin + 1 else 0 }
/-- R20: the clock setting that a window below 105 °C leaves: 0 is 1.4 GHz, 1 is 1.2 GHz, 2 is 0.7 GHz. -/
def setting (p : Power) (watts : Nat) : Nat :=
  if p.target = 2 then 2 else if 1950 < watts ∧ p.narrow = true then 1 else if p.target = 1 ∧ watts < 1800 ∧ 10 ≤ p.lowWin + 1 then 0 else p.target
/-- R60: every entry that a driver queue holds has an opcode of the command set. -/
def obeyed (d : DriverQ) : Prop := ∀ e ∈ d.subs, e.toNat % 256 ∈ [0, 1, 2, 9]
/-- R61: the ring of a driver queue has room for an entry, and no completion waits for it. -/
def roomy (s : State) (ssd q : Nat) : Prop := (s.dq ssd q).comps = [] ∧ ((s.dq ssd q).tail + 1) % 1024 ≠ (s.pfr (dqOff ssd q + 0x48)).toNat % 1024
/-- R61: a completion of a driver queue, whose submissions are then rest: an entry of the ring is written and the tail moves on. -/
def ringStep (d : DriverQ) (rest : List Vec) : DriverQ :=
  { d with subs := rest, tail := (d.tail + 1) % 1024, passes := if d.tail = 1023 then d.passes + 1 else d.passes }
/-- No tile holds a partial. -/
def noPartials (s : State) : Prop := ∀ q ∈ s.tiles, q.2.parts = []

/-- R76: the head c of window w's queue starts. -/
def begun (s : State) (vf w : Nat) (c : Cmd) (rest : List Cmd) : State :=
  s.updWindow vf w fun x => { x with q := rest, run := some { cmd := c, start := s.CYC } }
/-- R72, R73, R76, R80, R86: the window runs nothing, c stands at its head, its partition is ready and not halted and was so when c was accepted, c has no field out of
range and names handles that are registered. -/
def heads (s : State) (vf w : Nat) (c : Cmd) (rest : List Cmd) : Prop :=
  (s.window vf w).run = none ∧ (s.window vf w).q = c :: rest ∧ (s.part (vf - 1)).halted = false ∧ s.ready (vf - 1) = true ∧ c.doom = 0 ∧ c.bad = false ∧
  c.noHandle = false ∧ ∀ n ∈ c.names, (s.handle (vf - 1) n.1).reg = true
/-- R84: the 32 bytes of a completion record of pass n, as a number. -/
def record (seq win op st detail queued elapsed n : Nat) : Nat :=
  seq + 2 ^ 32 * win + 2 ^ 40 * op + 2 ^ 48 * st + 2 ^ 64 * detail + 2 ^ 128 * queued + 2 ^ 160 * elapsed + 2 ^ 224 * ((n + 1) % 2)
/-- R28, R32, R34, R35, R41, R53: the hub takes a packet: its port's link is up with fewer than 256 packets held, its context is bound and its partition live, it is
authentic, and its mode is in use. part is its context's partition. -/
def taken (s : State) (p : Packet) (part : Nat) : Prop :=
  s.ethUp p.port = true ∧ s.heldOf p.port < 256 ∧ s.epBound p.ep = true ∧ s.authentic p = true ∧ s.feature (modeBit p.mode) = true ∧
  part = (s.epPart p.ep).getD 0 ∧ s.partLive part = true
/-- R33, R43: its flow has a delivery context, and under ROD no packet before it is missing there. -/
def inTurn (s : State) (p : Packet) : Prop := ∃ c, s.flowIn p = some c ∧ (c.mode = .rod → p.psn ≤ c.next)
/-- R33: the delivery context that a new flow takes with packet p. -/
def newFlow (s : State) (p : Packet) : Pdc :=
  { id := s.nextId, out := false, ep := p.ep, peer := p.src, peerNum := p.pdc, mode := p.mode, rccc := bit (s.epFlags p.ep) 1 }
/-- R43, R44: it belongs to message m, which still waits for it, and whose key entry is read. -/
def awaited (s : State) (p : Packet) (m : RxMsg) : Prop := s.rxMsg p = some m ∧ p.idx ∉ m.got ∧ p.idx ∉ m.refused ∧ m.done = false ∧ m.reread = false
/-- R174, R171, R175: the pager of a tile's die, or the storage engines, hold entry h and walk the tables: the state after the reads of their lines. -/
def walks (b : State) (h : AsidHeld) (f : PageFault) (en : Bool) : State := if h.serves f.part en then b.walked h f.pva else b
/-- R34, R50: a contribution to dst may be combined: authentic where dst is here, and not sealed where it is not. -/
def combinable (s : State) (c : Contribution) (dst : BitVec 128) : Prop :=
  s.feature 4 = true ∧ s.ethUp c.port = true ∧ ((s.epOf dst).isSome = true → s.epBound c.ep = true → s.authenticAt c.ep c.sealed c.kid c.icv = true) ∧
  (s.epOf dst = none → c.sealed = false)
/-- R37, R45, R49: one packet w, of at most 4,096 bytes, leaves endpoint context ep for the peer of a wire, which has a port for every entropy value. -/
def sends (s t : State) (ep : Nat) (dst : BitVec 128) (w : Wire) : Prop :=
  s.epSec ep = false → (∀ ev, s.egress s.cabling dst ev ≠ none) →
  ∃ k ev, s.egress s.cabling dst ev = some k ∧ ∃ before, t.wire = before ++ [{ w with port := k, ev := ev, src := s.epOwn ep, dst := dst, count := 1 }]
/-- Access r waits for nothing at its home (R136, R187). -/
def arrives (s : State) (r : Req) : Prop := s.req? r.id = some r ∧ s.homeWaits r = false
/-- R190: a write of access r leaves, and its home counts it. -/
def left (s : State) (r : Req) : State := s.countWrite r.tile r.ctx (s.home (s.partOf r.tile) r.pa) r.round

/-! ## Events of a tile, of the engines and of the hub -/

/-- R126, R127: the result v lands in register d of context c of tile t, with its flags; nothing else of the tile's contexts changes, but that c may wake. -/
def landed (s s' : State) (t c d : Nat) (v : Word) (fl : Byte) : Prop :=
  (s'.ctx t c).reg d = { val := v, st := .full, poison := false, dirty := true } ∧ (∀ r, r ≠ d → (s'.ctx t c).reg r = (s.ctx t c).reg r) ∧
  (s'.ctx t c).ffl = (s.ctx t c).ffl ||| fl ∧ (s'.ctx t c).pc = (s.ctx t c).pc ∧ (∀ k, k ≠ c → s'.ctx t k = s.ctx t k) ∧ ∀ a, s'.peek a = s.peek a

/-- The result for register d lands where the operand rules allow it: one of the 32, not x0, nor a register that QMAP maps. -/
def lands (s : State) (t c d : Nat) : Prop := 0 < d ∧ d < 32 ∧ plain (s.ctx t c) d

/-- The selectors of the matrix instruction of word w: A and B of an MMA, A of a load (R282). -/
def matSels (w : Nat) : List Nat := if w / 2 ^ 24 % 32 = 0 then [w / 2 ^ 16 % 16, w / 2 ^ 20 % 16] else [w / 2 ^ 16 % 16]

/-- An address of a copy leads, for one byte and for all n, to pa, and its home holds no partial. -/
def reaches (s : State) (c : CopyCmd) (va n pa : Nat) (w : Bool) (e : Option Xlat) : Prop :=
  s.copyAddr c va 1 w = .ok pa e ∧ s.copyAddr c va n w = .ok pa e ∧ pa % 64 = 0

/-- Bytes that a write of n of them at pa, within a line, may reach: not OFFLINE, and not in the part of a scratchpad window that holds none. -/
def there (s : State) (pa : Nat) : Prop := s.offline pa = false ∧ s.offline (64 * (pa / 64)) = false ∧ (isSpad pa = true → pa % 0x80000 < 0x60000)
/-- Bytes that an engine writes in the line of pa through a translation e are there afterwards: each has its place, and the page takes no stamps and is not
shared-uncached. -/
def lasting (s : State) (pa : Nat) (e : Option Xlat) : Prop :=
  (∀ i < 64, s.memKey (64 * (pa / 64) + i) ≠ none) ∧ ∀ x, e = some x → x.stamp = false ∧ x.shu = false
/-- R56, R171, R175: byte a is none that an engine's write at pa through e reaches, nor one of a line that the tables or the write bring into or drive out of a
cache part: those are CXL memory. -/
def aside (a pa : Nat) (e : Option Xlat) : Prop := isCxl a = false ∨ (isCxl pa = false ∧ e = none)

/-- A context waits for the answer of its latched instruction. -/
def latched (s : State) (t c : Nat) (l : Latch) : Prop := (s.ctx t c).latch = some l ∧ ((s.ctx t c).state = .slotted ∨ (s.ctx t c).state = .cached)

/-- The latched instruction of a context has completed: it goes on behind it. -/
def completed (s s' : State) (t c : Nat) (l : Latch) : Prop :=
  (s'.ctx t c).pc = l.pc + 4 ∧ (s'.ctx t c).latch = none ∧ (s'.ctx t c).busy = false ∧ (s'.ctx t c).park = 0 ∧ (s'.ctx t c).x = (s.ctx t c).x

/-- R242: an entry accepts the return or notice m for slot i: it is served, of the generation, and the slot is selected and not settled. -/
def accepting (e : Reasm) (m : RouteMsg) (i : Nat) : Prop :=
  i = 4 * (m.rs % 16) + m.rs / 16 ∧ (e.state = 2 ∨ e.state = 3) ∧ e.closing = false ∧ e.gen = m.gen ∧ e.expect / 2 ^ i % 2 = 1 ∧
  e.ret / 2 ^ i % 2 = 0 ∧ e.drop / 2 ^ i % 2 = 0 ∧ e.tout / 2 ^ i % 2 = 0

/-- R97: launch k is the one that partition p places next; the launches whose handles are free have started, and its shape could be placed. -/
def placing (s : State) (p k : Nat) (l : Launch) : Prop :=
  s.partLive p = true ∧ s.nextLaunch p = some (k, l) ∧ s.chooseTiles p l.r (fun _ => true) ≠ none ∧
  ∀ q ∈ s.launches, q.2.part = p → q.2.st = .waiting → q.2.startAt.isSome = true ∨ s.depsOpen q.2.deps = true

/-- The tile of a group that is on it and stays. -/
def homeOf (s : State) (k g : Nat) (l : Launch) (t : Nat) : Prop := Tbl.find? s.launches k = some l ∧ l.tileOf g = some t ∧ s.groupMoves k g = false

/-- R242: vectors written from va on, one after another, by an entry's address space. -/
def rowPut (s : State) (t : Nat) (e : Reasm) (va : Nat) : List (Vec × Bool) → Option State
  | [] => some s
  | d :: rest => match s.segWrite (s.partOf t) t (s.entrySegs t e) e.iter d.2 3 va 64 d.1.toNat with
    | .ok s1 _ _ => rowPut s1 t e (va + 64) rest
    | _ => none

/-- R245: a row is not that of a group of this package that has been lifted off its tile. -/
def sendable (s : State) (m : RouteMsg) : Prop := (s.origin m).isSome = true → s.originTile m ≠ none

/-- R33: the state in which the flow of a contribution has its delivery context. -/
def flowed (s : State) (c : Contribution) : State :=
  if s.flowFrom c = none then
    State.fresh { s with pdcs := s.pdcs ++ [{ id := s.nextId, out := false, ep := c.ep, peer := c.sender, peerNum := c.src, mode := .rud, rccc := bit (s.epFlags c.ep) 1 }] }
  else s
/-- R32, R33, R34, R35, R41, R248: a contribution passes the checks of a packet: its port's link is up, its context is bound, it is authentic, collectives are
accepted, its partition is live, its flow has or finds a delivery context, and its key entry e, read in s1, has the write right for its bytes. -/
def checked (s : State) (c : Contribution) (s1 : State) (e : KeyEntry) : Prop :=
  s.ethUp c.port = true ∧ s.epBound c.ep = true ∧ s.authenticAt c.ep c.sealed c.kid c.icv = true ∧ s.feature 16 = true ∧
  s.partLive ((s.epPart c.ep).getD 0) = true ∧ (s.flowFrom c = none → s.pdcs.length < 65536) ∧ (flowed s c).keyEntry c.ep c.key = (s1, e) ∧
  e.fails c.key 1 c.off c.data.length = false

/-- R248: the contribution as its partition takes it. -/
def addressed (s : State) (c : Contribution) : Contribution := { c with part := (s.epPart c.ep).getD 0 }
/-- R40, R248: the launch that a TYPE 1 key names. -/
def named (e : KeyEntry) : Option Nat := if e.typ = 1 then some (e.base.toNat / 2 ^ 48) else none
/-- R252: the ranks whose contributions for the chunk of c are in the arrived set of launch k. -/
def had (s : State) (k : Nat) (c : Contribution) : List Nat :=
  ranksIn (s.arrived.filter fun x => decide (x.part = k / 65536 ∧ x.launch = k % 65536 ∧ x.cid = c.cid ∧ x.step = c.step ∧ x.chunk = c.chunk))
/-- R251: no step that gathers the chunk of c expects fewer than n contributions. -/
def expects (s : State) (k : Nat) (c : Contribution) (n : Nat) : Prop :=
  ∀ x ∈ s.steps, x.launch = k → x.cid = c.cid → x.num = c.step → x.kind ≠ 1 → n ≤ x.expect

end Sys2Proof.Machine.Says

section

open Sys2Proof Sys2Proof.Machine

/-! ## Integer, control and scalar floats (R293 to R319) -/

/-- R296, R303 to R307, R140: an integer instruction of fixed latency whose operands allow it writes the result its rule gives, with the latency of its kind,
moves the pc on by 4, and changes nothing else.
It states that these complete: LUI, AUIPC, ADDI, SLTI, SLTIU, XORI, ORI, ANDI, SLLI, SRLI, SRAI, ADD, SUB, SLL, SLT, SLTU, XOR, SRL, SRA, OR, AND, ADDIW, SLLIW, SRLIW, SRAIW, ADDW, SUBW, SLLW, SRLW, SRAW, MUL, MULH, MULHSU, MULHU, MULW. -/
def Obligations.IntegerResults : Prop :=
  ∀ (i : Instr) (s : State) (u : Cur) (srcs : List Nat) (d lat : Nat) (f : Word → List Word → Word) (vs : List Word),
    Says.intForm i = some (srcs, d, lat, f) → s.cur = some u →
    Says.sources (s.ctx u.tile u.ctx) s.cyc srcs vs → Says.writable (s.ctx u.tile u.ctx) d →
    Says.completes i s u (Says.retire (Says.written (s.ctx u.tile u.ctx) s.cyc d (f (s.ctx u.tile u.ctx).pc vs) lat) s.cyc 0 ((s.ctx u.tile u.ctx).pc + 4))

/-- R308, R311, R312, R316: a divide, FDIV or FSQRT whose operands allow it leaves its destination pending and enters its tile's divider or FP divide unit behind
those before it, with the quotient, remainder, result and flags of its rule; the pc moves on, and nothing else changes.
It states that these complete: DIV, DIVU, REM, REMU, DIVW, DIVUW, REMW, REMUW, FDIV, FSQRT. -/
def Obligations.UnitInstructionsIssue : Prop :=
  (∀ (i : Instr) (s : State) (u : Cur) (d a b : Nat) (f : Word → Word → Word) (va vb : Word),
    Says.divForm i = some (d, a, b, f) → s.cur = some u →
    Says.sources (s.ctx u.tile u.ctx) s.cyc [a, b] [va, vb] → Says.writable (s.ctx u.tile u.ctx) d →
    ∃ s', exec i s = .next s' ∧ Says.Becomes s' s u.tile u.ctx
      { s.tile u.tile with divq := (s.tile u.tile).divq ++ [{ ctx := u.ctx, gen := (s.ctx u.tile u.ctx).gen, dst := d, val := f va vb }] }
      (Says.retire (Says.awaiting (s.ctx u.tile u.ctx) d) s.cyc 0 ((s.ctx u.tile u.ctx).pc + 4))) ∧
  (∀ (i : Instr) (s : State) (u : Cur) (S : Nat) (srcs : List Nat) (d : Nat) (f : Nat → List Word → Nat × Nat) (vs : List Word),
    Says.unitForm i = some (S, srcs, d, f) → s.cur = some u →
    Says.sources (s.ctx u.tile u.ctx) s.cyc srcs vs → Says.writable (s.ctx u.tile u.ctx) d →
    Says.completesTile i s u
      { s.tile u.tile with fdivq := (s.tile u.tile).fdivq ++ [{ ctx := u.ctx, gen := (s.ctx u.tile u.ctx).gen, dst := d
                                                                val := BitVec.ofNat 64 (f (s.ctx u.tile u.ctx).rnd.toNat vs).1
                                                                flags := BitVec.ofNat 8 (f (s.ctx u.tile u.ctx).rnd.toNat vs).2 }] }
      (Says.retire (Says.awaiting (s.ctx u.tile u.ctx) d) s.cyc S ((s.ctx u.tile u.ctx).pc + 4)))

/-- R297, R298: a branch whose sources read completes at its target when its condition holds and the target is 4-byte aligned, and at pc + 4 when it does not hold,
whatever the target. A jump whose operands allow it writes pc + 4 to its destination, after it has read its source, and goes to its target, when that is 4-byte aligned.
It states that these complete: JAL, JALR, BEQ, BNE, BLT, BGE, BLTU, BGEU. -/
def Obligations.ControlTransfers : Prop :=
  (∀ (i : Instr) (s : State) (u : Cur) (a b : Nat) (imm : BitVec 13) (p : Word → Word → Bool) (va vb : Word),
    Says.branchForm i = some (a, b, imm, p) → s.cur = some u → Says.sources (s.ctx u.tile u.ctx) s.cyc [a, b] [va, vb] →
    (p va vb = true → ((s.ctx u.tile u.ctx).pc + imm.signExtend 64).toNat % 4 = 0 →
      Says.completes i s u (Says.retire (s.ctx u.tile u.ctx) s.cyc 0 ((s.ctx u.tile u.ctx).pc + imm.signExtend 64))) ∧
    (p va vb = false → Says.completes i s u (Says.retire (s.ctx u.tile u.ctx) s.cyc 0 ((s.ctx u.tile u.ctx).pc + 4)))) ∧
  (∀ (s : State) (u : Cur) (d : Nat), s.cur = some u → Says.writable (s.ctx u.tile u.ctx) d →
    (∀ imm : BitVec 21, ((s.ctx u.tile u.ctx).pc + imm.signExtend 64).toNat % 4 = 0 →
      Says.completes (.jal d imm) s u (Says.retire (Says.written (s.ctx u.tile u.ctx) s.cyc d ((s.ctx u.tile u.ctx).pc + 4) 2) s.cyc 0
        ((s.ctx u.tile u.ctx).pc + imm.signExtend 64))) ∧
    (∀ (a : Nat) (imm : BitVec 12) (va : Word), Says.readable (s.ctx u.tile u.ctx) s.cyc a va → (va + imm.signExtend 64).toNat / 2 % 2 = 0 →
      Says.completes (.jalr d a imm) s u (Says.retire (Says.written (s.ctx u.tile u.ctx) s.cyc d ((s.ctx u.tile u.ctx).pc + 4) 2) s.cyc 0
        ((va + imm.signExtend 64) &&& ~~~1))))

/-- R297, R298, R295: a jump, or a branch whose condition holds, to a target that is not 4-byte aligned traps MISALIGN at that target, and a load or store of an
address that is not a multiple of its size at that address, with nothing written. -/
def Obligations.MisalignedTraps : Prop :=
  (∀ (s : State) (u : Cur), s.cur = some u →
    (∀ (i : Instr) (a b : Nat) (imm : BitVec 13) (p : Word → Word → Bool) (va vb : Word),
      Says.branchForm i = some (a, b, imm, p) → Says.sources (s.ctx u.tile u.ctx) s.cyc [a, b] [va, vb] → p va vb = true →
      ((s.ctx u.tile u.ctx).pc + imm.signExtend 64).toNat % 4 ≠ 0 →
      Says.traps i s u causeMisalign ((s.ctx u.tile u.ctx).pc + imm.signExtend 64)) ∧
    (∀ (d : Nat) (imm : BitVec 21), Says.writable (s.ctx u.tile u.ctx) d → ((s.ctx u.tile u.ctx).pc + imm.signExtend 64).toNat % 4 ≠ 0 →
      Says.traps (.jal d imm) s u causeMisalign ((s.ctx u.tile u.ctx).pc + imm.signExtend 64)) ∧
    (∀ (d a : Nat) (imm : BitVec 12) (va : Word), Says.writable (s.ctx u.tile u.ctx) d → Says.readable (s.ctx u.tile u.ctx) s.cyc a va →
      ((va + imm.signExtend 64) &&& ~~~1).toNat % 4 ≠ 0 →
      Says.traps (.jalr d a imm) s u causeMisalign ((va + imm.signExtend 64) &&& ~~~1))) ∧
  (∀ (s : State) (u : Cur), s.cur = some u →
    (∀ (i : Instr) (d a n : Nat) (imm : BitVec 12) (sx : Bool) (va : Word), Says.loadForm i = some (d, a, imm, n, sx) →
      Says.readable (s.ctx u.tile u.ctx) s.cyc a va → Says.writable (s.ctx u.tile u.ctx) d → (va + imm.signExtend 64).toNat % n ≠ 0 →
      Says.traps i s u causeMisalign (va + imm.signExtend 64)) ∧
    (∀ (i : Instr) (a b n : Nat) (imm : BitVec 12) (va vb : Word), Says.storeForm i = some (a, b, imm, n) →
      Says.sources (s.ctx u.tile u.ctx) s.cyc [a, b] [va, vb] → (va + imm.signExtend 64).toNat % n ≠ 0 →
      Says.traps i s u causeMisalign (va + imm.signExtend 64)))

/-- R310 to R319: a scalar float of fixed latency whose operands allow it writes the result its rule gives, usable after 8 cycles, or 12 for the four
functions, raises its flags when the result lands, x0 included, and changes nothing else.
It states that these complete: FADD, FSUB, FMUL, FMIN, FMAX, FEQ, FLT, FLE, FSGNJ, FSGNJN, FSGNJX, FMAC, FCLASS, FCVTWS, FCVTSW, FCVTLS, FCVTSL, FEXP2, FLOG2, FRCP, FRSQ, FPACK, FUNPK. -/
def Obligations.ScalarFloatResults : Prop :=
  ∀ (i : Instr) (s : State) (u : Cur) (S : Nat) (srcs : List Nat) (d lat : Nat) (f : Nat → List Word → Nat × Nat) (vs : List Word),
    Says.floatForm i = some (S, srcs, d, lat, f) → s.cur = some u →
    Says.sources (s.ctx u.tile u.ctx) s.cyc srcs vs → Says.writable (s.ctx u.tile u.ctx) d →
    Says.completes i s u (Says.retire (Says.flagged (Says.written (s.ctx u.tile u.ctx) s.cyc d
      (BitVec.ofNat 64 (f (s.ctx u.tile u.ctx).rnd.toNat vs).1) lat) s.cyc lat (f (s.ctx u.tile u.ctx).rnd.toNat vs).2)
      s.cyc S ((s.ctx u.tile u.ctx).pc + 4))

/-- R142 to R148, R158: a pattern of any tile-encodable format that is no NaN and no invalid pattern, its unused bits 0, encodes from its decoded value to
itself in every rounding mode, with no flag. -/
def Obligations.FormatsRoundTrip : Prop :=
  ∀ (c b rnd : Nat) (v : Val), c < 18 → b < 2 ^ Num.width c → (c = 1 → b % 2 ^ 13 = 0) → (c = 6 ∨ c = 7 → b < 64) →
    Num.decode c b = (v, false) → v ≠ .nan → Num.encode c rnd v = (b, 0)

/-- R142, R319, R320, R322, R354, R228, R254, R359: the traps of operand values: FPACK and FUNPK with a format code of 18 to 31 trap FORMAT; a BFMT with a reserved bit
of the value set, a SETVL of 0, a FEMPTY of x0 or of a register that QMAP maps, a BARINIT count above 65,535 and a BARWAIT generation above 15 trap ILLEGAL; a BARRIVE that finds
PENDING at 0, or an object in a poisoned vector, traps BARRIER. Nothing is written. -/
def Obligations.OperandTraps : Prop :=
  (∀ (s : State) (u : Cur) (S d a f : Nat), s.cur = some u → 17 < f →
    Says.traps (.fpack S d a f) s u causeFormat 0 ∧ Says.traps (.funpk S d a f) s u causeFormat 0) ∧
  (∀ (s : State) (u : Cur) (S n d a : Nat) (va : Word), s.cur = some u → Says.readable (s.ctx u.tile u.ctx) s.cyc a va →
    (va.toNat / 64 % 4 ≠ 0 ∨ va.toNat / 65536 % 65536 ≠ 0 → Says.traps (.bfmt S n a) s u causeIllegal 0) ∧
    (va = 0 → Says.writable (s.ctx u.tile u.ctx) d → Says.traps (.setvl S d a) s u causeIllegal 0)) ∧
  (∀ (s : State) (u : Cur) (S d : Nat), s.cur = some u → (d = 0 ∨ ((s.ctx u.tile u.ctx).mapped = true ∧ (d = 30 ∨ d = 31))) →
    Says.traps (.fempty S d) s u causeIllegal 0) ∧
  (∀ (s : State) (u : Cur) (S a b l : Nat) (va vb : Word), s.cur = some u →
    (Says.quiet s u → Says.readable (s.ctx u.tile u.ctx) s.cyc a va → Says.objectAt s u va true l → (s.barrier l).pending = 0 →
      Says.traps (.barrive S a) s u causeBarrier va) ∧
    (∀ d off, Says.readable (s.ctx u.tile u.ctx) s.cyc a va → va.toNat % 64 = 0 → s.farAway u.tile (s.ctx u.tile u.ctx).seg va.toNat = false →
      s.segCheck u.tile (s.ctx u.tile u.ctx).seg va.toNat 16 true true false = .ok (.spad d off) → s.poisoned (spadPa d off / 64) = true →
      Says.traps (.barrive S a) s u causeBarrier va) ∧
    (Says.sources (s.ctx u.tile u.ctx) s.cyc [a, b] [va, vb] →
      (65535 < vb.toNat → Says.traps (.barinit S a b) s u causeIllegal 0) ∧ (15 < vb.toNat → Says.traps (.barwait S a b) s u causeIllegal 0)))

/-! ## Configuration, vectors and matrices (R320 to R344) -/

/-- R320 to R322: BFMT, PSET, PGET and SETVL whose operands allow them, no earlier vector instruction of the context still naming the pointer (R321).
It states that these complete: BFMT, PSET, PGET, SETVL. -/
def Obligations.ConfigurationResults : Prop :=
  ∀ (s : State) (u : Cur) (S : Nat), s.cur = some u →
    (∀ (n a : Nat) (va : Word), Says.readable (s.ctx u.tile u.ctx) s.cyc a va → va.toNat / 64 % 4 = 0 → va.toNat / 65536 % 65536 = 0 →
      Says.completesTile (.bfmt S n a) s u { s.tile u.tile with bank := (s.tile u.tile).bank.set n va }
        (Says.retire (s.ctx u.tile u.ctx) s.cyc S ((s.ctx u.tile u.ctx).pc + 4))) ∧
    (∀ (a p : Nat) (va : Word), Says.readable (s.ctx u.tile u.ctx) s.cyc a va → s.namesSel u.tile u.ctx p = false →
      Says.completes (.pset S a p) s u
        (Says.retire { s.ctx u.tile u.ctx with ptr := (s.ctx u.tile u.ctx).ptr.set p va } s.cyc S ((s.ctx u.tile u.ctx).pc + 4))) ∧
    (∀ d p : Nat, Says.writable (s.ctx u.tile u.ctx) d → s.namesSel u.tile u.ctx p = false →
      Says.completes (.pget S d p) s u
        (Says.retire (Says.written (s.ctx u.tile u.ctx) s.cyc d ((s.ctx u.tile u.ctx).ptr.getD p 0) 2) s.cyc S ((s.ctx u.tile u.ctx).pc + 4))) ∧
    (∀ (d a : Nat) (va : Word), Says.readable (s.ctx u.tile u.ctx) s.cyc a va → Says.writable (s.ctx u.tile u.ctx) d → va ≠ 0 →
      Says.completes (.setvl S d a) s u
        (Says.retire (Says.written { s.ctx u.tile u.ctx with vl := min va.toNat 2048 } s.cyc d (BitVec.ofNat 64 (min va.toNat 2048)) 2) s.cyc S
          ((s.ctx u.tile u.ctx).pc + 4)))

/-- R323 to R325: SBIND reads the 48-byte block it names as a load, its context parked with PARK 2, and the register is bound to it when it has come back, not poisoned and valid; a unit may be granted
at once. SUNBIND leaves the register unbound once its stream has drained, and does nothing to one that is unbound; SDRAIN completes, changing nothing, once every named output stream has been
applied.
It states that these complete: SBIND, SUNBIND, SDRAIN, LOAD_RESULT_LAND. -/
def Obligations.StreamInstructions : Prop :=
  ((∀ (s s0 s1 : State) (u : Cur) (S a r : Nat) (va : Word), s.cur = some u → Says.readable (s.ctx u.tile u.ctx) s.cyc a va → r < 8 →
    ((s.ctx u.tile u.ctx).str.getD r {}).undrained = false → (∀ q ∈ s.reqs, q.binds u.tile u.ctx (s.ctx u.tile u.ctx).pc = false) →
    s0 = (if ((s.ctx u.tile u.ctx).str.getD r {}).bound then s.unbind u.tile u.ctx r else s) → va.toNat % 8 = 0 →
    (∃ p, s0.segCheck u.tile (s0.ctx u.tile u.ctx).seg va.toNat 48 true false false = .ok p) → s0.portHolds u.tile u.ctx true = false →
    s0.bindReqs u.tile u.ctx r va.toNat 0 48 2 = .inl s1 →
    ∃ s', exec (.sbind S a r) s = .next s' ∧ s'.reqs = s1.reqs ∧ (∀ q ∈ s'.reqs, q ∈ s.reqs ∨ q.binds u.tile u.ctx (s.ctx u.tile u.ctx).pc = true) ∧
      (s'.ctx u.tile u.ctx).park = 2 ∧ (s'.ctx u.tile u.ctx).pc = (s.ctx u.tile u.ctx).pc ∧ (s'.ctx u.tile u.ctx).x = (s.ctx u.tile u.ctx).x ∧
      ((s'.ctx u.tile u.ctx).str.getD r {}).bound = false ∧ ∀ pa, s'.peek pa = s.peek pa) ∧
  (∀ (s : State) (r : Req) (l : Latch) (v : Nat), s.req? r.id = some r → r.kind = .sbind → r.stage = .reply → r.dst < 8 →
    (∀ q ∈ s.reqs, q.binds r.tile r.ctx r.pc = true → q.stage = .reply ∧ q.poison = false ∧ q.dst = r.dst ∧ q.gen = r.gen) →
    s.alive r.tile r.ctx r.gen = true → (s.ctx r.tile r.ctx).state = .slotted ∨ (s.ctx r.tile r.ctx).state = .cached → (s.ctx r.tile r.ctx).park = 2 →
    (s.ctx r.tile r.ctx).latch = some l → l.pc = r.pc → l.next = none → l.takes = false →
    v = ((s.reqs.filter (·.binds r.tile r.ctx r.pc)).map fun q => q.data * 2 ^ (8 * q.op)).sum → bindBad v = none →
    ∃ s', exec (.loadResultLand r.id) s = .next s' ∧ (s'.ctx r.tile r.ctx).pc = r.pc + 4 ∧ (s'.ctx r.tile r.ctx).park = 0 ∧
      (s'.ctx r.tile r.ctx).x = (s.ctx r.tile r.ctx).x ∧ (∀ q ∈ s'.reqs, q.binds r.tile r.ctx r.pc = false) ∧ (∀ pa, s'.peek pa = s.peek pa) ∧
      let b := (s'.ctx r.tile r.ctx).str.getD r.dst {}
      b.bound = true ∧ b.base = v % 2 ^ 64 ∧ b.fmt = v / 2 ^ 64 % 32 ∧ b.out = decide (v / 2 ^ 72 % 2 = 1) ∧ b.pos = v / 2 ^ 352 % 2 ^ 32 ∧ b.ahead = [] ∧
      b.dims = (List.range 4).map (fun i => (v / 2 ^ (96 + 64 * i) % 2 ^ 32, sgn 32 (v / 2 ^ (128 + 64 * i) % 2 ^ 32))))) ∧
  (∀ (s : State) (u : Cur) (S : Nat), s.cur = some u →
    (∀ r, ((s.ctx u.tile u.ctx).str.getD r {}).bound = false →
      Says.completes (.sunbind S r) s u (Says.retire (s.ctx u.tile u.ctx) s.cyc S ((s.ctx u.tile u.ctx).pc + 4))) ∧
    (∀ r, r < 8 → ((s.ctx u.tile u.ctx).str.getD r {}).undrained = false →
      ∃ s', exec (.sunbind S r) s = .next s' ∧ Says.wentOn s s' u S ∧ (s'.ctx u.tile u.ctx).str.getD r {} = (if ((s.ctx u.tile u.ctx).str.getD r {}).bound
        then {} else (s.ctx u.tile u.ctx).str.getD r {}) ∧ ∀ pa, s'.peek pa = s.peek pa) ∧
    (∀ m, (∀ r < 8, (m = 0 ∨ m / 2 ^ r % 2 = 1) → ((s.ctx u.tile u.ctx).str.getD r {}).undrained = false) →
      Says.completes (.sdrain S m) s u (Says.retire (s.ctx u.tile u.ctx) s.cyc S ((s.ctx u.tile u.ctx).pc + 4))))

/-- R255, R322, R327, R328, R336: a vector instruction through pointers of its own tile whose checks pass enters the tile's queue, when that holds fewer than four, with what
it captures; its context goes on, a reduction's x register pending. One that may yet stop at a vector (a source or the destination is a stream or lies on another tile, a scratchpad vector
of the tile is poisoned, an operand is in a block format, or a check already fails) enters the queue too, and its context waits with it until it has been accepted.
It states that these complete: VADD, VSUB, VMUL, VFMA, VMAX, VMIN, VAMAX, VABS, VNEG, VEXP2, VRCP, VRSQ, VSCL, VADDS, VMAXS, VCPY, VSET, VSEL, VREDS, VREDM. -/
def Obligations.VectorIssues : Prop :=
  (∀ (i : Instr) (s : State) (u : Cur) (S vop d a b mod : Nat) (os : List Operand) (dst : Option Operand),
    Says.vecForm i = some (S, vop, d, a, b, mod) → s.cur = some u → (s.tile u.tile).vq.length < 4 → (s.ctx u.tile u.ctx).latch = none →
    (vopScalar vop = true → ∃ v, Says.readable (s.ctx u.tile u.ctx) s.cyc b v) → (18 ≤ vop → Says.writable (s.ctx u.tile u.ctx) d) →
    Says.local_ s u vop d a b → s.spadPoison u.tile = false →
    s.vecOperands u.tile u.ctx (Says.captured s u vop d a b mod) = .ok (os, dst) → (∀ o ∈ os, Num.isBlock o.fmt.code = false) →
    Says.completesWith i s { s with nextId := s.nextId + 1 } u
      { s.tile u.tile with vq := (s.tile u.tile).vq ++ [Says.captured s u vop d a b mod] }
      (Says.retire (if 18 ≤ vop then { Says.awaiting (s.ctx u.tile u.ctx) d with reduced := [] } else s.ctx u.tile u.ctx) s.cyc S
        ((s.ctx u.tile u.ctx).pc + 4))) ∧
  (∀ (i : Instr) (s : State) (u : Cur) (S vop d a b mod : Nat),
    Says.vecForm i = some (S, vop, d, a, b, mod) → s.cur = some u → (s.tile u.tile).vq.length < 4 → (s.ctx u.tile u.ctx).latch = none →
    (vopScalar vop = true → ∃ v, Says.readable (s.ctx u.tile u.ctx) s.cyc b v) → (18 ≤ vop → Says.writable (s.ctx u.tile u.ctx) d) →
    (vop < 18 → 8 ≤ d → ((s.ctx u.tile u.ctx).str.getD (d - 8) {}).ahead.length < 4) →
    s.selsBad u.tile u.ctx (Says.captured s u vop d a b mod) = false →
    ((∃ q ∈ vopReads vop d a b, s.remoteTile u.tile u.ctx q ≠ none) →
      (∀ o ∈ (s.tile u.tile).vq, o.ctx ≠ u.ctx) ∧ (∀ r, (s.tile u.tile).vrun = some r → r.ctx ≠ u.ctx) ∧
      ∀ r ∈ s.reqs, ¬(r.tile = u.tile ∧ r.ctx = u.ctx ∧ isSpad r.pa = true)) →
    (s.spadPoison u.tile = true ∨ (∃ q ∈ vopReads vop d a b, 8 ≤ q ∨ s.remoteTile u.tile u.ctx q ≠ none) ∨ (vop < 18 ∧ 8 ≤ d) ∨
      (∀ os dst, s.vecOperands u.tile u.ctx (Says.captured s u vop d a b mod) = .ok (os, dst) → ∃ o ∈ os, Num.isBlock o.fmt.code = true)) →
    ∃ s', exec i s = .next s' ∧ (s'.tile u.tile).vq = (s.tile u.tile).vq ++ [{ Says.captured s u vop d a b mod with held := true }] ∧
      (s'.ctx u.tile u.ctx).busy = true ∧ (s'.ctx u.tile u.ctx).pc = (s.ctx u.tile u.ctx).pc ∧
      (s'.ctx u.tile u.ctx).x = (if 18 ≤ vop then (Says.awaiting (s.ctx u.tile u.ctx) d).x else (s.ctx u.tile u.ctx).x) ∧
      (s'.ctx u.tile u.ctx).latch = some { insn := u.insn, pc := (s.ctx u.tile u.ctx).pc } ∧ ∀ pa, s'.peek pa = s.peek pa)

/-- R158, R328, R329, R331 to R336: a VSET of x0 through a pointer to a bank of its own tile in an unscaled two's-complement integer format, when it starts in the
unit, zeroes VL vectors from the pointer on, in its stride, changes no other byte of memory, advances the pointer by VL and holds the unit for at least 6 + VL cycles. In the integer domain, on operands of one
two's-complement format, an element whose exact result lies in the format is that result, with no flag; a VREDS whose sum lies in 64 bits gives the sum, and VREDM the greatest element or magnitude.
It states that these complete: VECTOR_UNIT_START. -/
def Obligations.VectorSetZeroes : Prop :=
  (∀ (s : State) (t : Nat) (op : VOp) (o : Operand) (bank idx : Nat) (stride : Int), t < 4096 → bank < 3 → idx < 2048 →
    (s.tile t).vq = [op] → (s.tile t).vrun = none → (s.tile t).drains op.ctx op.id = false → s.alive t op.ctx op.gen = true → op.vop = 16 → op.b = 0 → op.prog = 0 → op.held = false → op.d < 8 →
    (∀ r ∈ s.reqs, ¬(r.tile = t ∧ r.ctx = op.ctx)) → s.rreads = [] → Says.noWaitv s →
    s.vecOperands t op.ctx op = .ok ([], some o) → o.sel = op.d → o.at_ = .bank t bank idx stride → 9 ≤ o.fmt.code → o.fmt.code ≤ 14 → o.fmt.scale = none →
    ∃ s', exec (.vectorUnitStart t) s = .next s' ∧
      (∀ i < op.vl, ∀ k < 64, s'.peek (64 * spadLine t bank (pStep idx stride i) + k) = 0) ∧
      (∀ pa, (∀ i < op.vl, pa / 64 ≠ spadLine t bank (pStep idx stride i)) → s'.peek pa = s.peek pa) ∧
      (s'.ctx t op.ctx).ptr.getD op.d 0 = pAdvance ((s.ctx t op.ctx).ptr.getD op.d 0) op.vl ∧
      (s'.ctx t op.ctx).x = (s.ctx t op.ctx).x ∧ (s'.tile t).vq = [] ∧
      ∃ r, (s'.tile t).vrun = some r ∧ r.ctx = op.ctx ∧ r.dst = none ∧ s.cyc + 6 + op.vl ≤ r.till) ∧
  ((∀ (s : State) (k : VCtx) (els : List (Operand × List (Nat × Nat × Nat))) (f : OFmt) (i : Nat), k.int = true → k.same = false → k.op.vop ≠ 16 → i < f.e →
    f.code = 9 ∨ f.code = 10 ∨ f.code = 11 ∨ f.code = 13 → els.length = (vopReads k.op.vop k.op.d k.op.a k.op.b).length → (∀ o ∈ els, o.1.fmt.code = f.code) →
    let w := Num.width f.code
    let el := fun n => sgn w (match els[n]? with | some o => (o.2.getD i (0, 0, 0)).1 | none => 0)
    let r := Says.intElem k.op.vop k.op.mod (el 0) (if vopScalar k.op.vop then k.op.scalar.toInt else el 1) (el 2)
    r < 2 ^ (w - 1) → -(2 ^ (w - 1) : Int) ≤ r → ∃ x, (s.vecElems k els f)[i]? = some (x, 0) ∧ x < 2 ^ w ∧ sgn w x = r) ∧
  (∀ (mod rnd : Nat) (x : Word) (l : List Word),
    let t := ((x :: l).map (·.toInt)).sum
    let m := if mod % 2 = 1 then (x :: l).map (fun y => (y.toInt.natAbs : Int)) else (x :: l).map (·.toInt)
    (-(2 ^ 63 : Int) ≤ t → t < 2 ^ 63 → reduceAll 18 mod rnd true (x :: l) = (BitVec.ofInt 64 t, 0)) ∧
    ∃ y ∈ m, (∀ z ∈ m, z ≤ y) ∧ reduceAll 19 mod rnd true (x :: l) = (BitVec.ofInt 64 y, 0)))

/-- R162, R337, R339: an MMA on two pointers into the tile's own banks, of one width and domain, issues in its owner's turn: the unit is held for its occupancy with
the sums of R339 on their way to the accumulator, and both pointers advance by 16. An integer-domain step adds to each of the 256 words the products of a row of A and a row of the transposed B; a
sum within INT32 is exact, one beyond it wraps and sets overflow, or, under ISAT, clamps and sets saturated. One with a source that is a stream or lies on another tile first takes the
operand buffer and waits; once its vectors lie there it issues on them.
It states that these complete: MMA. -/
def Obligations.MatrixMultiplies : Prop :=
  (∀ (s : State) (u : Cur) (S n a b : Nat) (oa ob : Operand) (ra rb : List (Vec × Nat)), s.cur = some u → Says.mayStep s u n →
    Says.rowsOf s u a 16 oa ra → Says.rowsOf s u b 16 ob rb → s.selBad u.tile u.ctx a false = false → s.selBad u.tile u.ctx b false = false →
    Num.width oa.fmt.code = Num.width ob.fmt.code → oa.fmt.int = ob.fmt.int →
    ∃ s', exec (.mma S n a b) s = .next s' ∧ (s'.tile u.tile).mrun = some (Says.mmaRun s u n oa ob ra rb) ∧
      (s'.tile u.tile).mfree = s.cyc + mmaOcc u.tile oa ob ∧ (s'.tile u.tile).acc = (s.tile u.tile).acc ∧
      s'.ctx u.tile u.ctx = Says.retire (if a = b then Says.stepped (s.ctx u.tile u.ctx) a 16 else Says.stepped (Says.stepped (s.ctx u.tile u.ctx) a 16) b 16)
        s.cyc S ((s.ctx u.tile u.ctx).pc + 4) ∧
      (∀ k, k ≠ u.ctx → s'.ctx u.tile k = s.ctx u.tile k) ∧ (∀ k, k ≠ u.tile → s'.tile k = s.tile k) ∧ s'.reqs = s.reqs ∧ ∀ pa, s'.peek pa = s.peek pa) ∧
  (∀ (rnd : Nat) (acc : List W32) (ra rb : List (List MEl)) (i j : Nat), i < 16 → j < 16 →
    (∀ r ∈ ra, ∀ x ∈ r, x.bad = false) → (∀ r ∈ rb, ∀ x ∈ r, x.bad = false) →
    let a := (ra.getD i []).map (·.i)
    let b := (rb.getD j []).map (·.i)
    let t := Says.macInt (acc.getD (16 * i + j) 0) a b
    let r := (mmaOf rnd true acc ra rb)
    (-(2 ^ 31 : Int) ≤ t → t < 2 ^ 31 → (r.1.getD (16 * i + j) 0).toInt = t) ∧
    (¬(-(2 ^ 31 : Int) ≤ t ∧ t < 2 ^ 31) → Num.risat rnd = false → r.1.getD (16 * i + j) 0 = BitVec.ofInt 32 t ∧ bit r.2 1 = true) ∧
    (t < -(2 ^ 31 : Int) → Num.risat rnd = true → (r.1.getD (16 * i + j) 0).toInt = -(2 ^ 31 : Int) ∧ bit r.2 2 = true) ∧
    ((2 ^ 31 : Int) ≤ t → Num.risat rnd = true → (r.1.getD (16 * i + j) 0).toInt = 2 ^ 31 - 1 ∧ bit r.2 2 = true)) ∧
  (∀ (s : State) (u : Cur) (S n a b : Nat) (oa ob : Operand), s.cur = some u → Says.mayStep s u n →
    Says.stepSource s u a (fun _ => 16) oa → Says.stepSource s u b (fun _ => 16) ob → Says.fetched s u a ∨ Says.fetched s u b →
    Num.width oa.fmt.code = Num.width ob.fmt.code → oa.fmt.int = ob.fmt.int →
    ((s.tile u.tile).bufHeld = false → (∀ m, (s.tile u.tile).mbuf = some m → m.ctx ≠ u.ctx ∨ m.pc ≠ (s.ctx u.tile u.ctx).pc) →
      ∃ s', exec (.mma S n a b) s = .next s' ∧ Says.fetches s s' u) ∧
    (∀ m ra rb sa sb, (s.tile u.tile).mbuf = some m → m.ready = true → m.ctx = u.ctx → m.pc = (s.ctx u.tile u.ctx).pc → m.trap = none →
      s.mFetch u.tile u.ctx oa m.a 16 = .ok (sa, ra) → s.mFetch u.tile u.ctx ob m.b 16 = .ok (sb, rb) →
      ∃ s', exec (.mma S n a b) s = .next s' ∧ Says.wentOn s s' u S ∧ (s'.tile u.tile).mrun = some (Says.mmaRun s u n oa ob ra rb) ∧
        (s'.tile u.tile).mbuf = none ∧ (s'.tile u.tile).acc = (s.tile u.tile).acc ∧ ∀ pa, s'.peek pa = s.peek pa))

/-- R340: MZERO by the accumulator's owner makes every element zero and leaves its flags and its owner; the words with a non-zero A, B or mod are no
instruction, and such a word traps ILLEGAL; another context traps ACC_OWNER; and the example word decodes to it.
It states that these complete: MZERO. -/
def Obligations.MatrixZero : Prop :=
  (∀ (s : State) (u : Cur) (S n : Nat), s.cur = some u → Says.mayStep s u n →
    Says.completesTile (.mzero S n) s u
      { s.tile u.tile with mfree := s.cyc + 1
                           acc := (s.tile u.tile).acc.set n { (s.tile u.tile).acc.getD n {} with els := List.replicate 256 0 } }
      (Says.retire (s.ctx u.tile u.ctx) s.cyc S ((s.ctx u.tile u.ctx).pc + 4))) ∧
  (∀ (s : State) (u : Cur) (S n : Nat), s.cur = some u → (s.ctx u.tile u.ctx).role.toNat % 2 = 0 → (s.tile u.tile).ownTurn u.ctx s.cyc = true →
    (s.tile u.tile).mrun = none → (s.tile u.tile).mfree ≤ s.cyc → s.bankBusy u.tile u.ctx = false → ((s.tile u.tile).acc.getD n {}).owner ≠ some u.ctx →
    Says.traps (.mzero S n) s u causeAccOwner 0) ∧
  (∀ S n a b m : Nat, S < 8 → n < 8 → a < 16 → b < 16 → m < 16 → a ≠ 0 ∨ b ≠ 0 ∨ m ≠ 0 →
    ∃ e, decodeWord (S * 2 ^ 29 + 1 * 2 ^ 24 + b * 2 ^ 20 + a * 2 ^ 16 + n * 2 ^ 12 + m * 2 ^ 8 + 2 ^ 7 + 0x2B) = .error e) ∧
  (∀ (s : State) (u : Cur) (w : W32), s.cur = some u → Says.traps (.illegalInstruction w) s u causeIllegal 0) ∧
  decodeWord 0x010000AB = .ok (.mzero 0 0)

/-- R337, R341, R342: MLOAD from a pointer into the tile's own bank issues in its owner's turn: the first 256 elements it reads are on their way to the accumulator,
which the unit is held for 6 + V cycles, V its vectors; the pointer advances by V. MDRAIN sends the V vectors that hold 256 elements of the format to their bank, advances the pointer by V, leaves the
accumulator as it is and holds the unit for 6 + V cycles, at whose end they are written, and no other byte; to an output stream with room in scratchpads it produces its V vectors. An MLOAD from a stream or another tile first takes the operand
buffer and waits; once the vectors lie there it issues on them.
It states that these complete: MLOAD, MDRAIN, MATRIX_STEP_LAND. -/
def Obligations.MatrixMoves : Prop :=
  (∀ (s : State) (u : Cur) (S n a : Nat) (o : Operand) (rows : List (Vec × Nat)), s.cur = some u → Says.mayStep s u n →
    Says.rowsOf s u a (vecs256 o.fmt) o rows → s.selBad u.tile u.ctx a false = false →
    ∃ (s' : State) (m : MRun), exec (.mload S n a) s = .next s' ∧ (s'.tile u.tile).mrun = some m ∧ m.ctx = u.ctx ∧ m.acc = n ∧ m.till = s.cyc + 6 + vecs256 o.fmt ∧
      m.els = some (Says.loaded s u o rows) ∧
      (s'.tile u.tile).acc = (s.tile u.tile).acc ∧
      s'.ctx u.tile u.ctx = Says.retire (Says.stepped (s.ctx u.tile u.ctx) a (vecs256 o.fmt)) s.cyc S ((s.ctx u.tile u.ctx).pc + 4) ∧
      ∀ pa, s'.peek pa = s.peek pa) ∧
  ((∀ (s : State) (u : Cur) (S n a m : Nat) (o : Operand) (bank idx : Nat) (stride : Int), s.cur = some u → Says.mayStep s u n →
    (s.ctx u.tile u.ctx).latch = none → a < 8 → s.selBad u.tile u.ctx a true = false →
    s.operand u.tile u.ctx a (s.tile u.tile).bank.els 0 = .ok o → o.at_ = .bank u.tile bank idx stride → o.fmt.bad = false → o.fmt.noWrite = false →
    ∃ (s' : State) (r : MRun), exec (.mdrain S n a m) s = .next s' ∧ Says.wentOn s s' u S ∧
      (s'.ctx u.tile u.ctx).ptr.getD a 0 = pAdvance ((s.ctx u.tile u.ctx).ptr.getD a 0) (vecs256 o.fmt) ∧
      (s'.tile u.tile).acc = (s.tile u.tile).acc ∧ (s'.tile u.tile).mrun = some r ∧ r.ctx = u.ctx ∧ r.acc = n ∧ r.till = s.cyc + 6 + vecs256 o.fmt ∧ r.els = none ∧
      r.drain.map (·.1) = (List.range (vecs256 o.fmt)).map (fun i => spadLine u.tile bank (pStep idx stride i)) ∧ ∀ pa, s'.peek pa = s.peek pa) ∧
  (∀ (s : State) (t : Nat) (m : MRun), t < 4096 → (s.tile t).mrun = some m → m.till ≤ s.cyc → m.els = none → Says.noWaitv s → (m.drain.map (·.1)).Nodup →
    (∀ d ∈ m.drain, isSpad (64 * d.1) = true ∧ 64 * d.1 % 0x80000 < 0x60000 ∧ d.2.2 ≤ 512 ∧ d.2.1 < 2 ^ d.2.2) →
    ∃ s', exec (.matrixStepLand t) s = .next s' ∧ (s'.tile t).mrun = none ∧
      (∀ d ∈ m.drain, s'.line d.1 = BitVec.ofNat 512 (d.2.1 + (s.line d.1).toNat / 2 ^ d.2.2 * 2 ^ d.2.2)) ∧
      ∀ pa, (∀ d ∈ m.drain, pa / 64 ≠ d.1) → s'.peek pa = s.peek pa)) ∧
  (∀ (s : State) (u : Cur) (S n a : Nat) (o : Operand), s.cur = some u → Says.mayStep s u n → Says.stepSource s u a vecs256 o → Says.fetched s u a →
    ((s.tile u.tile).bufHeld = false → (∀ m, (s.tile u.tile).mbuf = some m → m.ctx ≠ u.ctx ∨ m.pc ≠ (s.ctx u.tile u.ctx).pc) →
      ∃ s', exec (.mload S n a) s = .next s' ∧ Says.fetches s s' u) ∧
    (∀ m rows s1, (s.tile u.tile).mbuf = some m → m.ready = true → m.ctx = u.ctx → m.pc = (s.ctx u.tile u.ctx).pc → m.trap = none →
      s.mFetch u.tile u.ctx o m.a (vecs256 o.fmt) = .ok (s1, rows) →
      ∃ s' r, exec (.mload S n a) s = .next s' ∧ Says.wentOn s s' u S ∧ (s'.tile u.tile).mrun = some r ∧ r.ctx = u.ctx ∧ r.acc = n ∧
        r.till = s.cyc + 6 + vecs256 o.fmt ∧ r.els = some (Says.loaded s u o rows) ∧ (s'.tile u.tile).mbuf = none ∧
        (s'.tile u.tile).acc = (s.tile u.tile).acc ∧ ∀ pa, s'.peek pa = s.peek pa)) ∧
  (∀ (s : State) (u : Cur) (S n a m : Nat) (o : Operand), s.cur = some u → Says.mayStep s u n → (s.ctx u.tile u.ctx).latch = none → 8 ≤ a → a < 16 →
    s.selBad u.tile u.ctx a true = false → s.operand u.tile u.ctx a (s.tile u.tile).bank.els 0 = .ok o → o.fmt.bad = false → o.fmt.noWrite = false →
    let st := (s.ctx u.tile u.ctx).str.getD (a - 8) {}
    let v := vecs256 o.fmt
    st.unit = true → st.ahead.length < 4 → st.ahead.length + v ≤ 4 → st.pos + v ≤ st.total →
    (∀ k < v, s.farAway u.tile (s.ctx u.tile u.ctx).seg (st.addr (st.pos + k)) = false ∧
      ∃ d off, s.segCheck u.tile (s.ctx u.tile u.ctx).seg (st.addr (st.pos + k)) 64 false true false = .ok (.spad d off)) →
    ∃ (s' : State) (r : MRun), exec (.mdrain S n a m) s = .next s' ∧ Says.wentOn s s' u S ∧
      ((s'.ctx u.tile u.ctx).str.getD (a - 8) {}).pos = st.pos + v ∧ ((s'.ctx u.tile u.ctx).str.getD (a - 8) {}).ahead.length = st.ahead.length + v ∧
      (s'.tile u.tile).acc = (s.tile u.tile).acc ∧ (s'.tile u.tile).mrun = some r ∧ r.ctx = u.ctx ∧ r.acc = n ∧ r.till = s.cyc + 6 + v ∧
      ∀ pa, s'.peek pa = s.peek pa)

/-- R343, R344, R132: MACQ takes a free accumulator, for a context that does not stage, or gives up its own when no step on it is in the unit; MSTAT of its owner
completes when none is, clearing the flags with its clear bit.
It states that these complete: MACQ, MSTAT. -/
def Obligations.AccumulatorOwnership : Prop :=
  ∀ (s : State) (u : Cur) (S n : Nat), s.cur = some u →
    ((s.ctx u.tile u.ctx).role.toNat % 2 = 0 → ((s.tile u.tile).acc.getD n {}).owner = none →
      Says.completesTile (.macq S n 0) s u
        { s.tile u.tile with acc := (s.tile u.tile).acc.set n { (s.tile u.tile).acc.getD n {} with owner := some u.ctx } }
        (Says.retire (s.ctx u.tile u.ctx) s.cyc S ((s.ctx u.tile u.ctx).pc + 4))) ∧
    (((s.tile u.tile).acc.getD n {}).owner = some u.ctx → (∀ m, (s.tile u.tile).mrun = some m → m.acc ≠ n) →
      Says.completesTile (.macq S n 1) s u
        { s.tile u.tile with acc := (s.tile u.tile).acc.set n { (s.tile u.tile).acc.getD n {} with owner := none } }
        (Says.retire (s.ctx u.tile u.ctx) s.cyc S ((s.ctx u.tile u.ctx).pc + 4)) ∧
      Says.completes (.mstat S n 0) s u (Says.retire (s.ctx u.tile u.ctx) s.cyc S ((s.ctx u.tile u.ctx).pc + 4)) ∧
      Says.completesTile (.mstat S n 1) s u
        { s.tile u.tile with acc := (s.tile u.tile).acc.set n { (s.tile u.tile).acc.getD n {} with flags := 0 } }
        (Says.retire (s.ctx u.tile u.ctx) s.cyc S ((s.ctx u.tile u.ctx).pc + 4))) ∧
    ((s.ctx u.tile u.ctx).role.toNat % 2 = 0 → ((s.tile u.tile).acc.getD n {}).owner = some u.ctx →
      Says.completes (.macq S n 0) s u (Says.retire (s.ctx u.tile u.ctx) s.cyc S ((s.ctx u.tile u.ctx).pc + 4))) ∧
    (∀ c, c ≠ u.ctx → (s.ctx u.tile u.ctx).role.toNat % 2 = 0 → ((s.tile u.tile).acc.getD n {}).owner = some c → Says.traps (.macq S n 0) s u causeAccOwner 0) ∧
    (((s.tile u.tile).acc.getD n {}).owner ≠ some u.ctx →
      Says.traps (.macq S n 1) s u causeAccOwner 0 ∧ Says.traps (.mstat S n 0) s u causeAccOwner 0 ∧ Says.traps (.mstat S n 1) s u causeAccOwner 0)

/-! ## Memory and synchronization (R134, R295 to R301, R345 to R361) -/

/-- R134, R178, R295: an access that is let through has its segment's rights and limit, and, in partition memory, a translation with the page rights; it changes
nothing but the tile's TLB and the ASID entries that it holds. -/
def Obligations.AddressChecks : Prop :=
  ∀ (s s1 : State) (t c va n pa : Nat) (r w xq wr : Bool) (e : Option Xlat), s.access t c va n r w xq wr = .at_ s1 pa e →
    let g := (s.ctx t c).seg.getD (va / 2 ^ 61) {}
    let off := va % 2 ^ 61
    (r = true → g.w0.toNat / 2 ^ 56 % 2 = 1) ∧ (w = true → g.w0.toNat / 2 ^ 57 % 2 = 1) ∧ (xq = true → g.w0.toNat / 2 ^ 58 % 2 = 1) ∧
    g.w0.toNat / 2 ^ 60 % 4 ≠ 0 ∧ off + n ≤ g.w1.toNat % 2 ^ 61 ∧
    (g.w0.toNat / 2 ^ 60 % 4 = 1 → g.w0.toNat % 2 ^ 52 + off + n ≤ 2 ^ 52 ∧
      ∃ x, e = some x ∧ x.covers (s.partAsid (s.partOf t)).1 (g.w0.toNat % 2 ^ 52 + off) = true ∧ pa = x.pa (g.w0.toNat % 2 ^ 52 + off) ∧
        (r = true → x.r = true) ∧ (w = true → x.w = true) ∧ (xq = true → x.x = true) ∧ (wr = true → x.mig = false) ∧ s1 = s.tlbFill t x) ∧
    (g.w0.toNat / 2 ^ 60 % 4 = 2 → e = none ∧ s1 = s ∧ pa = spadPa t (g.w0.toNat % 2 ^ 19 + off) ∧ g.w0.toNat % 2 ^ 19 + off + n ≤ 393216) ∧
    (g.w0.toNat / 2 ^ 60 % 4 = 3 → e = none ∧ s1 = s ∧
      ∃ d, s.tileRole t (g.w0.toNat / 2 ^ 19 % 64) = some d ∧ pa = spadPa d (g.w0.toNat % 2 ^ 19 + off) ∧ g.w0.toNat % 2 ^ 19 + off + n ≤ 393216)

/-- R188, R299, R301: a load or store whose operands, address and port allow it sends its access and goes on: a load leaves its destination pending, a store carries
the low bytes of its source; nothing else changes until the access is performed.
It states that these complete: LB, LH, LW, LD, LBU, LHU, LWU, SB, SH, SW, SD. -/
def Obligations.LoadsStoresIssue : Prop :=
  (∀ (i : Instr) (s s1 : State) (u : Cur) (d a n pa : Nat) (imm : BitVec 12) (sx : Bool) (va : Word) (e : Option Xlat),
    Says.loadForm i = some (d, a, imm, n, sx) → s.cur = some u → Says.readable (s.ctx u.tile u.ctx) s.cyc a va → Says.writable (s.ctx u.tile u.ctx) d →
    Says.resolves s u (va + imm.signExtend 64) n true false false s1 pa e → s1.portFull u.tile u.ctx true = false →
    ∃ s' r, exec i s = .next s' ∧ Says.sent s1 s' u .load pa n d r ∧ r.sgn = sx ∧
      Says.Becomes s' { s1 with reqs := s'.reqs, nextId := s'.nextId } u.tile u.ctx (s1.tile u.tile)
        (Says.retire (Says.awaiting (s.ctx u.tile u.ctx) d) s.cyc 0 ((s.ctx u.tile u.ctx).pc + 4))) ∧
  (∀ (i : Instr) (s s1 : State) (u : Cur) (a b n pa : Nat) (imm : BitVec 12) (va vb : Word) (e : Option Xlat),
    Says.storeForm i = some (a, b, imm, n) → s.cur = some u → Says.sources (s.ctx u.tile u.ctx) s.cyc [a, b] [va, vb] →
    Says.resolves s u (va + imm.signExtend 64) n false true true s1 pa e → s1.portFull u.tile u.ctx false = false → s1.sbCount u.tile < 32 →
    ∃ s' r, exec i s = .next s' ∧ Says.sent s1 s' u .store pa n 0 r ∧ r.data = vb.toNat % 2 ^ (8 * n) ∧ r.iter = (s.ctx u.tile u.ctx).iter ∧
      Says.Becomes s' { s1 with reqs := s'.reqs, nextId := s'.nextId } u.tile u.ctx
        (if (match e with | some x => x.stamp | none => false) then { s1.tile u.tile with l1 := Tbl.erase (s1.tile u.tile).l1 (pa / 64) } else s1.tile u.tile)
        (Says.retire (s.ctx u.tile u.ctx) s.cyc 0 ((s.ctx u.tile u.ctx).pc + 4)))

/-- R347, R357: LDA.W and LDA.N, with feature bit 0 accepted and an even destination, leave the pair pending and send the stamped load; the context of LDA.W waits for its
answer, that of LDA.N goes on. WAITW and WAITC leave their destination pending and send the wait for the word with its condition and value; their context goes on issuing, and an acquire holds its later
accesses until the answer.
It states that these complete: LDA_W, LDA_N, WAITW, WAITC. -/
def Obligations.WaitingLoadsIssue : Prop :=
  (∀ (s s1 : State) (u : Cur) (S d a pa : Nat) (va : Word) (e : Option Xlat), s.cur = some u → s.feature 0 = true → d % 2 = 0 →
    ¬(d = 30 ∧ (s.ctx u.tile u.ctx).mapped = true) →
    Says.readable (s.ctx u.tile u.ctx) s.cyc a va → Says.writable (s.ctx u.tile u.ctx) d → Says.writable (s.ctx u.tile u.ctx) (d + 1) →
    Says.resolves s u va 8 true false false s1 pa e → s1.portFull u.tile u.ctx true = false →
    (∀ lag, ∃ s' r, exec (.ldaW S d a lag) s = .next s' ∧ Says.sent s1 s' u .ldaW pa 8 d r ∧
      r.lag = (if (match e with | some x => x.stamp | none => false) then lag else 511) ∧ r.iter = (s.ctx u.tile u.ctx).iter ∧
      Says.Becomes s' { s1 with reqs := s'.reqs, nextId := s'.nextId } u.tile u.ctx (s1.tile u.tile)
        { Says.awaiting (Says.awaiting (s.ctx u.tile u.ctx) d) (d + 1) with
          busy := true, park := 0, readyAt := s.cyc + 4 * (1 + S)
          latch := some { insn := u.insn, pc := (s.ctx u.tile u.ctx).pc, next := (s.ctx u.tile u.ctx).latch.bind (·.next)
                          timer := (match (s.ctx u.tile u.ctx).latch with | some l => l.timer | none => 0) } }) ∧
    (∃ s' r, exec (.ldaN S d a) s = .next s' ∧ Says.sent s1 s' u .ldaN pa 8 d r ∧ r.iter = (s.ctx u.tile u.ctx).iter ∧
      Says.Becomes s' { s1 with reqs := s'.reqs, nextId := s'.nextId } u.tile u.ctx (s1.tile u.tile)
        (Says.retire (Says.awaiting (Says.awaiting (s.ctx u.tile u.ctx) d) (d + 1)) s.cyc S ((s.ctx u.tile u.ctx).pc + 4)))) ∧
  (∀ (s s1 : State) (u : Cur) (S d a b cond pa : Nat) (va vb : Word) (e : Option Xlat) (i : Instr) (k : ReqKind), s.cur = some u →
    ((i = .waitw S d a b cond ∧ k = .waitw) ∨ (i = .waitc S d a b cond ∧ k = .waitc)) →
    Says.sources (s.ctx u.tile u.ctx) s.cyc [a, b] [va, vb] → Says.writable (s.ctx u.tile u.ctx) d →
    Says.resolves s u va 8 true false false s1 pa e → s1.portHolds u.tile u.ctx true = false → (∀ q ∈ s.reqs, q.tile = u.tile → q.stage ≠ .port) →
    ∃ s' r f, exec i s = .next s' ∧ s'.reqs = s.reqs ++ [r] ∧ r.id = s.nextId ∧ s'.nextId = s.nextId + 2 ∧ r.tile = u.tile ∧ r.ctx = u.ctx ∧
      r.gen = (s.ctx u.tile u.ctx).gen ∧ r.kind = k ∧ r.pa = pa ∧ r.n = 8 ∧ r.dst = d ∧ r.op = cond ∧ r.cmp = vb.toNat ∧ r.stage = .flight ∧
      f ∈ (s'.ctx u.tile u.ctx).fences ∧ f.id = s.nextId + 1 ∧ f.kind = .acq ∧ f.loads = true ∧
      (s'.ctx u.tile u.ctx).pc = (s.ctx u.tile u.ctx).onward ∧ (s'.ctx u.tile u.ctx).latch = none ∧ (s'.ctx u.tile u.ctx).park = 0 ∧
      (s'.ctx u.tile u.ctx).readyAt = s.cyc + 4 * (1 + S) ∧ (s'.ctx u.tile u.ctx).x = (Says.awaiting (s.ctx u.tile u.ctx) d).x ∧
      (∀ c, c ≠ u.ctx → s'.ctx u.tile c = s.ctx u.tile c) ∧ (∀ t, t ≠ u.tile → s'.tile t = s.tile t) ∧ ∀ q, s'.peek q = s.peek q)

/-- R348, R350, R356: STC to a scratchpad or outside every commutative range is an ordinary store of 8 bytes; in a range it goes into the tile's partial for the line, and nothing else of
memory changes; one that a hold of the port keeps waits there, its context going on. An atomic or ELECT whose operands and address allow it, its word in no host or peer line it may not reach, leaves its destination pending and sends the access with its operands; the
context goes on.
It states that these complete: STC, AMOADD_D, AMOMAX_D, AMOMIN_D, AMOSWP_D, AMOCAS_D, AMOAND_D, AMOOR_D, AMOXOR_D, AMOADD_W, AMOMAX_W, AMOMIN_W, AMOSWP_W, AMOCAS_W, AMOAND_W, AMOOR_W, AMOXOR_W, AMOFADD, AMOFMAX, ELECT. -/
def Obligations.AtomicsAndCombinesIssue : Prop :=
  (∀ (s s1 : State) (u : Cur) (S a b pa : Nat) (va vb : Word) (e : Option Xlat), s.cur = some u → s.feature 1 = true →
    Says.sources (s.ctx u.tile u.ctx) s.cyc [a, b] [va, vb] → Says.resolves s u va 8 true true true s1 pa e → s1.sbHas u.tile (pa / 64) = false →
    s1.portFull u.tile u.ctx false = false →
    ((e = none ∨ ∃ x, e = some x ∧ (x.shu = true ∨ s1.rangeOf (s1.partOf u.tile) (x.pva pa) = none)) → s1.sbCount u.tile < 32 →
      ∃ s' r, exec (.stc S a b) s = .next s' ∧ Says.sent s s' u .store pa 8 0 r ∧ r.data = vb.toNat ∧ r.iter = (s.ctx u.tile u.ctx).iter ∧ Says.wentOn s s' u S ∧
        ∀ q, s'.peek q = s.peek q) ∧
    (∀ x fmt op, e = some x → x.shu = false → s1.rangeOf (s1.partOf u.tile) (x.pva pa) = some (fmt, op) → s1.rejectsAt u.tile pa 8 false = false →
      (s1.portHolds u.tile u.ctx false = false →
        ∃ s' q, exec (.stc S a b) s = .next s' ∧ Tbl.find? (s'.tile u.tile).parts (pa / 64) = some q ∧
          q.els = ((stcEls fmt pa vb.toNat).foldl (fun q e => q.add e.1 e.2)
            (Tbl.getD (s1.tile u.tile).parts (pa / 64) { fmt := fmt, op := op, pva := x.pva pa })).els ∧
          s'.reqs = s.reqs ∧ Says.wentOn s s' u S ∧ ∀ p, s'.peek p = s.peek p) ∧
      (s1.portHolds u.tile u.ctx false = true →
        ∃ s' r, exec (.stc S a b) s = .next s' ∧ Says.sent s s' u .stc pa 8 0 r ∧ r.stage = .port ∧ r.data = vb.toNat ∧ Says.wentOn s s' u S ∧
          (s'.tile u.tile).parts = (s.tile u.tile).parts ∧ ∀ p, s'.peek p = s.peek p))) ∧
  (∀ (s s1 : State) (u : Cur) (pa : Nat) (va : Word) (e : Option Xlat), s.cur = some u → s1.portFull u.tile u.ctx false = false →
    (∀ (i : Instr) (S d a b op n : Nat) (vb vd : Word), Says.amoForm i = some (S, d, a, b, op, n) →
      Says.sources (s.ctx u.tile u.ctx) s.cyc [a, b] [va, vb] → (op = 4 → Says.readable (s.ctx u.tile u.ctx) s.cyc d vd) →
      Says.writable (s.ctx u.tile u.ctx) d → Says.resolves s u va n true true true s1 pa e → (isHost pa = true → op = 0 ∨ op = 3 ∨ op = 4) →
      ∃ s' r, exec i s = .next s' ∧ Says.sent s1 s' u .amo pa n d r ∧ r.op = op ∧ r.data = vb.toNat % 2 ^ (8 * n) ∧
        (op = 4 → r.cmp = vd.toNat % 2 ^ (8 * n)) ∧ r.iter = (s.ctx u.tile u.ctx).iter ∧
        Says.Becomes s' { s1 with reqs := s'.reqs, nextId := s'.nextId } u.tile u.ctx (s1.tile u.tile)
          (Says.retire (Says.awaiting (s.ctx u.tile u.ctx) d) s.cyc S ((s.ctx u.tile u.ctx).pc + 4))) ∧
    (∀ S d a : Nat, Says.readable (s.ctx u.tile u.ctx) s.cyc a va → Says.writable (s.ctx u.tile u.ctx) d →
      Says.resolves s u va 8 true true true s1 pa e → isHost pa = false →
      ∃ s' r, exec (.elect S d a) s = .next s' ∧ Says.sent s1 s' u .elect pa 8 d r ∧ r.iter = (s.ctx u.tile u.ctx).iter ∧
        Says.Becomes s' { s1 with reqs := s'.reqs, nextId := s'.nextId } u.tile u.ctx (s1.tile u.tile)
          (Says.retire (Says.awaiting (s.ctx u.tile u.ctx) d) s.cyc S ((s.ctx u.tile u.ctx).pc + 4))))

/-- R182, R190 to R193, R352, R353: FENCE.S of thread scope does nothing; the fences of tile scope and the acquires hold every later access while an earlier one they wait
for is out; REL and FENCE.S of a wider scope close the current release round, open the next, and hold later stores, FENCE.S later loads too, the hold of system scope marked so. WBR and INVR of no bytes, or of a scratchpad range, complete and
change nothing; over partition memory, with the rights over the whole range, their lines lie in no L1 afterwards, and no register changes.
It states that these complete: FENCE_S, REL, ACQ, WBR, INVR. -/
def Obligations.OrderingInstructions : Prop :=
  (∀ (s : State) (u : Cur) (S : Nat), s.cur = some u →
    Says.completes (.fenceS S 0) s u (Says.retire (s.ctx u.tile u.ctx) s.cyc S ((s.ctx u.tile u.ctx).pc + 4)) ∧
    (∃ s', exec (.fenceS S 1) s = .next s' ∧ Says.wentOn s s' u S ∧
      (s.loadsOut u.tile u.ctx s.nextId = true → ∃ f ∈ (s'.ctx u.tile u.ctx).fences, f.id = s.nextId ∧ f.loads = true)) ∧
    (∀ scope, ∃ s', exec (.acq S scope) s = .next s' ∧ Says.wentOn s s' u S ∧
      (s.loadsOut u.tile u.ctx s.nextId = true → ∃ f ∈ (s'.ctx u.tile u.ctx).fences, f.id = s.nextId ∧ f.loads = true) ∧
      (Says.quiet s u → (s'.ctx u.tile u.ctx).fences = [])) ∧
    ((s.ctx u.tile u.ctx).relRnd < 4 →
      ∀ i, (i = .rel S ∨ ∃ scope, 2 ≤ scope ∧ i = .fenceS S scope) →
        ∃ s', exec i s = .next s' ∧ Says.wentOn s s' u S ∧
          (s'.ctx u.tile u.ctx).relRnd = ((s.ctx u.tile u.ctx).relRnd + 1) % 4 ∧
          (s'.ctx u.tile u.ctx).closed.getD (s.ctx u.tile u.ctx).relRnd false = true ∧
          ∃ f ∈ (s'.ctx u.tile u.ctx).fences, f.id = s.nextId ∧ f.kind = .query ∧ f.round = (s.ctx u.tile u.ctx).relRnd ∧ (f.loads = true ↔ i ≠ .rel S) ∧ (f.sys = true ↔ i = .fenceS S 5))) ∧
  (∀ (s : State) (u : Cur) (S a b : Nat) (va vb : Word) (i : Instr) (keep : Bool), s.cur = some u → i = (if keep then .wbr S a b else .invr S a b) →
    Says.sources (s.ctx u.tile u.ctx) s.cyc [a, b] [va, vb] →
    ((vb = 0 ∨ ∃ d off, s.segCheck u.tile (s.ctx u.tile u.ctx).seg va.toNat vb.toNat keep (!keep) false = .ok (.spad d off)) →
      Says.completes i s u (Says.retire (s.ctx u.tile u.ctx) s.cyc S ((s.ctx u.tile u.ctx).pc + 4))) ∧
    (∀ pva, vb ≠ 0 → s.segCheck u.tile (s.ctx u.tile u.ctx).seg va.toNat vb.toNat keep (!keep) false = .ok (.mem pva) →
      s.portHolds u.tile u.ctx false = false → s.storesOut u.tile u.ctx s.nextId = false →
      (∀ w ∈ s.barWait, ¬(w.2.2.1 = u.tile ∧ w.2.2.2 = u.ctx)) →
      (∀ l ∈ lineRange pva vb.toNat, ∀ e, s.rangePage u.tile l = some e → if keep then e.r = true else e.w = true ∧ e.mig = false) →
      ∃ s', exec i s = .next s' ∧ Says.wentOn s s' u S ∧
        ∀ l ∈ lineRange pva vb.toNat, ∀ e, s.rangePage u.tile l = some e → e.shu = false → isHost (e.pa l) = false → isSpad (e.pa l) = false →
          ∀ t, Tbl.ordered (s.tile t).l1 = true → Tbl.find? (s'.tile t).l1 (e.pa l / 64) = none))

/-- R354, R355: FEMPTY of a register that is not pending makes it open and clears its poison; FEST reports a register's state without waiting and takes no
flit.
It states that these complete: FEMPTY, FEST. -/
def Obligations.FullEmptyInstructions : Prop :=
  ∀ (s : State) (u : Cur) (S : Nat), s.cur = some u →
    (∀ d, d ≠ 0 → d < 32 → Says.writable (s.ctx u.tile u.ctx) d →
      ∃ x, Says.completes (.fempty S d) s u (Says.retire x s.cyc S ((s.ctx u.tile u.ctx).pc + 4)) ∧
        (x.reg d).st = .open ∧ (x.reg d).poison = false ∧ (∀ r, r ≠ d → x.reg r = (s.ctx u.tile u.ctx).reg r) ∧ { x with x := (s.ctx u.tile u.ctx).x } = s.ctx u.tile u.ctx) ∧
    (∀ d n, Says.writable (s.ctx u.tile u.ctx) d → Says.plain (s.ctx u.tile u.ctx) n →
      Says.completes (.fest S d n) s u (Says.retire (Says.written (s.ctx u.tile u.ctx) s.cyc d
        (if n = 0 then 0 else match ((s.ctx u.tile u.ctx).reg n).st with
          | .full => if ((s.ctx u.tile u.ctx).reg n).poison then 4 else 0 | .pending => 1 | .open => 2) 2) s.cyc S ((s.ctx u.tile u.ctx).pc + 4))) ∧
    (∀ d, Says.writable (s.ctx u.tile u.ctx) d → (s.ctx u.tile u.ctx).mapped = true →
      Says.completes (.fest S d 31) s u (Says.retire (Says.written (s.ctx u.tile u.ctx) s.cyc d
        (match (s.ctx u.tile u.ctx).rxq with
          | [] => 2 | f :: l => BitVec.ofNat 64 ((if f.poison then 4 else 0) + 16 * (l.length + 1))) 2) s.cyc S ((s.ctx u.tile u.ctx).pc + 4)) ∧
      Says.completes (.fest S d 30) s u (Says.retire (Says.written (s.ctx u.tile u.ctx) s.cyc d
        (if (s.ctx u.tile u.ctx).txPend.isSome = true ∨ ((s.ctx u.tile u.ctx).reg 30).st = .pending then 1 else 0) 2) s.cyc S ((s.ctx u.tile u.ctx).pc + 4)))

/-- R227, R228, R359, R360: BARINIT sets PENDING and RELOAD of the object and clears the rest; BARRIVE, its earlier accesses performed, takes one from PENDING; when
PENDING and both byte counts are 0 the same update raises GEN and reloads PENDING. BARWAIT completes when the generation differs from the one supplied. Bytes outside the object's 16 are as before. SEMW takes a
unit when there is one and nobody waits; SEMP gives one when nobody waits, grants the context that has waited longest, its count as before, when somebody does, and traps ILLEGAL when the
count is 2^32 − 1.
It states that these complete: BARINIT, BARRIVE, BARWAIT, SEMW, SEMP. -/
def Obligations.BarriersAndSemaphores : Prop :=
  (∀ (s : State) (u : Cur) (S a : Nat) (va : Word), s.cur = some u → Says.quiet s u → Says.noWaitv s →
    (∀ (b l : Nat) (vb : Word), Says.sources (s.ctx u.tile u.ctx) s.cyc [a, b] [va, vb] → vb.toNat < 65536 → Says.objectAt s u va true l →
      ∃ s', exec (.barinit S a b) s = .next s' ∧ Says.wentOn s s' u S ∧
        s'.barrier l = (if vb = 0 then { gen := 1 } else { pending := vb.toNat, reload := vb.toNat }) ∧ ∀ q, q < 64 * l ∨ 64 * l + 16 ≤ q → s'.peek q = s.peek q) ∧
    (∀ l, Says.readable (s.ctx u.tile u.ctx) s.cyc a va → Says.objectAt s u va true l → (s.barrier l).pending ≠ 0 →
      ∃ s', exec (.barrive S a) s = .next s' ∧ Says.wentOn s s' u S ∧
        s'.barrier l = (if (s.barrier l).pending = 1 ∧ (s.barrier l).inb = 0 ∧ (s.barrier l).outb = 0
          then { s.barrier l with gen := ((s.barrier l).gen + 1) % 16, pending := (s.barrier l).reload } else { s.barrier l with pending := (s.barrier l).pending - 1 }) ∧
        ∀ q, q < 64 * l ∨ 64 * l + 16 ≤ q → s'.peek q = s.peek q) ∧
    (∀ (b l : Nat) (vb : Word), Says.sources (s.ctx u.tile u.ctx) s.cyc [a, b] [va, vb] → vb.toNat < 16 → Says.objectAt s u va false l → (s.barrier l).gen ≠ vb.toNat →
      ∃ s', exec (.barwait S a b) s = .next s' ∧ Says.wentOn s s' u S ∧ ∀ q, s'.peek q = s.peek q)) ∧
  (∀ (s : State) (u : Cur) (S n : Nat), s.cur = some u → n < 8 →
    ((∀ w ∈ (s.tile u.tile).semWait, w.1 ≠ n) → 0 < (s.tile u.tile).sem.getD n 0 →
      ∃ s', exec (.semw S n) s = .next s' ∧ Says.wentOn s s' u S ∧ (s'.tile u.tile).sem = (s.tile u.tile).sem.set n ((s.tile u.tile).sem.getD n 0 - 1) ∧
        ∀ q, s'.peek q = s.peek q) ∧
    (Says.quiet s u → (s.tile u.tile).sem.getD n 0 = 2 ^ 32 - 1 → Says.traps (.semp S n) s u causeIllegal 0) ∧
    (Says.quiet s u → (s.tile u.tile).sem.getD n 0 ≠ 2 ^ 32 - 1 → ∀ c l, (s.tile u.tile).semWait.find? (fun w => decide (w.1 = n)) = some (n, c) → c ≠ u.ctx →
      (s.ctx u.tile c).state = .slotted → (s.ctx u.tile c).latch = some l → l.next = none →
      ∃ s', exec (.semp S n) s = .next s' ∧ Says.wentOn s s' u S ∧ (s'.tile u.tile).sem = (s.tile u.tile).sem ∧
        (s'.tile u.tile).semWait = (s.tile u.tile).semWait.erase (n, c) ∧ (s'.ctx u.tile c).park = 0 ∧ (s'.ctx u.tile c).pc = l.pc + 4) ∧
    (Says.quiet s u → (∀ w ∈ (s.tile u.tile).semWait, w.1 ≠ n) → (s.tile u.tile).sem.getD n 0 ≠ 2 ^ 32 - 1 →
      Says.completesTile (.semp S n) s u { s.tile u.tile with sem := (s.tile u.tile).sem.set n ((s.tile u.tile).sem.getD n 0 + 1) }
        (Says.retire (s.ctx u.tile u.ctx) s.cyc S ((s.ctx u.tile u.ctx).pc + 4))))

/-! ## Contexts, system registers and traps (R254 to R259, R378 to R393) -/

/-- R108, R363, R378 to R380, R391, R392: SRD of a register of the table, the crown's five by the crown alone, and RDCYC write its value, zero-extended, with latency 2; an SRD of FFL when nothing
earlier of the context can still raise a flag. SWR of a context's own register writes a value without reserved bits and traps ILLEGAL on any other, which leaves the register as it was.
An SWR of the crown to half a rotation table waits for the next cycle that is 0 mod 32, its entry 15 or 31 reading 15, when the table then holds every slot from 0 to 14, and traps ILLEGAL otherwise; the table
takes effect at its time; an SWR of TEPC writes a 4-byte aligned address. QCFG, or an SWR to QMAP, with no write of x30 awaiting acceptance and no read of x31 pending, writes QMAP; where that changes the mapping, x30
and x31 are full and hold 0; a reserved bit traps QUEUE. QDEST, or an SWR to it, writes any value.
It states that these complete: QCFG, QDEST, RDCYC, SRD, SWR, ROTATION_TABLE_APPLY. -/
def Obligations.SystemRegisters : Prop :=
  (∀ (s : State) (u : Cur) (S d : Nat), s.cur = some u → Says.writable (s.ctx u.tile u.ctx) d →
    (∀ r, r < 20 → (Says.crowns r = true → u.ctx = 0) → (r = 2 → s.fflWaits u.tile u.ctx = false) →
      Says.completes (.srd S d r) s u
        (Says.retire (Says.written (s.ctx u.tile u.ctx) s.cyc d (Says.sysValue s u r) 2) s.cyc S ((s.ctx u.tile u.ctx).pc + 4))) ∧
    Says.completes (.rdcyc S d) s u
      (Says.retire (Says.written (s.ctx u.tile u.ctx) s.cyc d (BitVec.ofNat 64 (s.ref6 / 6)) 2) s.cyc S ((s.ctx u.tile u.ctx).pc + 4))) ∧
  (∀ (s : State) (u : Cur) (S a r : Nat) (v : Word), s.cur = some u → Says.readable (s.ctx u.tile u.ctx) s.cyc a v → r ∈ [0, 1, 2, 3, 5, 8, 11, 15] →
    match Says.sysWrite (s.ctx u.tile u.ctx) s.cyc r v with
    | some x => Says.completes (.swr S a r) s u (Says.retire x s.cyc S (x.pc + 4))
    | none => Says.traps (.swr S a r) s u causeIllegal 0) ∧
  ((∀ (s : State) (u : Cur) (S a : Nat) (v : Word), s.cur = some u → u.ctx = 0 → Says.readable (s.ctx u.tile u.ctx) s.cyc a v →
    (∀ (hi : Bool) (l h : Word), (l, h) = Says.rotAfter (s.tile u.tile) hi v →
      let i := Instr.swr S a (if hi then 14 else 13)
      ((∀ n < 15, ∃ e < 32, Says.rotEntry l h e = n) → Says.completesTile i s u
        { s.tile u.tile with rotNext := some (l, h), rotAt := (s.cyc / 32 + 1) * 32 }
        (Says.retire (s.ctx u.tile u.ctx) s.cyc S ((s.ctx u.tile u.ctx).pc + 4))) ∧
      ((∃ n < 15, ∀ e < 32, Says.rotEntry l h e ≠ n) → Says.traps i s u causeIllegal 0)) ∧
    (v.toNat % 4 = 0 → Says.completesTile (.swr S a 16) s u { s.tile u.tile with tepc := v }
      (Says.retire (s.ctx u.tile u.ctx) s.cyc S ((s.ctx u.tile u.ctx).pc + 4))) ∧
    (v.toNat % 4 ≠ 0 → Says.traps (.swr S a 16) s u causeIllegal 0)) ∧
  (∀ (s : State) (t c : Nat) (l h : Word), (s.tile t).rotNext = some (l, h) → (s.tile t).rotAt ≤ s.cyc →
    ∃ s', exec (.rotationTableApply t) s = .next s' ∧ Says.Becomes s' s t c { s.tile t with rotLo := l, rotHi := h, rotNext := none } (s.ctx t c))) ∧
  (∀ (s : State) (u : Cur) (S a : Nat) (v : Word), s.cur = some u → Says.readable (s.ctx u.tile u.ctx) s.cyc a v →
    (s.ctx u.tile u.ctx).txPend = none → ((s.ctx u.tile u.ctx).reg 30).st ≠ .pending →
    (∀ i ∈ [Instr.qcfg S a, .swr S a 6], ((s.ctx u.tile u.ctx).mapped = false → ((s.ctx u.tile u.ctx).reg 31).st ≠ .pending) →
      (v.toNat < 2 → decide (v.toNat = 1) = (s.ctx u.tile u.ctx).mapped →
        Says.completes i s u (Says.retire { s.ctx u.tile u.ctx with qmap := v } s.cyc S ((s.ctx u.tile u.ctx).pc + 4))) ∧
      (v.toNat < 2 → decide (v.toNat = 1) ≠ (s.ctx u.tile u.ctx).mapped →
        Says.completes i s u (Says.retire (({ s.ctx u.tile u.ctx with qmap := v }.setReg 30 { dirty := true }).setReg 31 { dirty := true }) s.cyc S
          ((s.ctx u.tile u.ctx).pc + 4))) ∧
      (2 ≤ v.toNat → Says.traps i s u causeQueue 0)) ∧
    (∀ i ∈ [Instr.qdest S a, .swr S a 7],
      Says.completes i s u (Says.retire { s.ctx u.tile u.ctx with qdest := v } s.cyc S ((s.ctx u.tile u.ctx).pc + 4))))

/-- R291, R378, R381, R383, R389, R390: what traps whatever the operands hold: a word that is no instruction, the numbers that the table does not assign and
writes of read-only registers trap ILLEGAL; the crown's registers and the crown's instructions trap PRIV in any other context.
It states that these complete: ILLEGAL_INSTRUCTION. -/
def Obligations.IllegalAndPrivileged : Prop :=
  ∀ (s : State) (u : Cur), s.cur = some u →
    (∀ w : W32, Says.traps (.illegalInstruction w) s u causeIllegal 0) ∧
    (∀ S d r, 20 ≤ r → Says.traps (.srd S d r) s u causeIllegal 0 ∧ Says.traps (.swr S d r) s u causeIllegal 0) ∧
    (∀ S a r, r ∈ [4, 9, 10, 12] → Says.traps (.swr S a r) s u causeIllegal 0) ∧
    (∀ S a r, u.ctx = 0 → r ∈ [17, 18, 19] → Says.traps (.swr S a r) s u causeIllegal 0) ∧
    (u.ctx ≠ 0 → ∀ S d a b : Nat,
      (∀ r, Says.crowns r = true → r < 20 → Says.traps (.srd S d r) s u causePriv 0) ∧
      (∀ r ∈ [13, 14, 16, 17, 18, 19], Says.traps (.swr S a r) s u causePriv 0) ∧
      (∀ i ∈ [Instr.spawn S d a b, .reap S d a, .tret S a, .segld S a b], Says.traps i s u causePriv 0) ∧
      (s.feature 8 = true → Says.traps (.spawnDie S d a) s u causePriv 0)) ∧
    (∀ S d a : Nat, s.feature 8 = false → Says.traps (.spawnDie S d a) s u causeIllegal 0)

/-- R387: ITERSET sets ITER to the low 32 bits of its source; ITERINC adds 1 to it modulo 2^32 and writes it, zero-extended. Accesses issued before them are
as they were, their stamps among them; and the examples' words decode to them.
It states that these complete: ITERSET, ITERINC. -/
def Obligations.IterationInstructions : Prop :=
  (∀ (s : State) (u : Cur) (S : Nat), s.cur = some u →
    (∀ (a : Nat) (v : Word), Says.readable (s.ctx u.tile u.ctx) s.cyc a v →
      Says.completes (.iterset S a) s u
        (Says.retire { s.ctx u.tile u.ctx with iter := BitVec.ofNat 32 (v.toNat % 2 ^ 32) } s.cyc S ((s.ctx u.tile u.ctx).pc + 4))) ∧
    (∀ d, Says.writable (s.ctx u.tile u.ctx) d →
      let n := ((s.ctx u.tile u.ctx).iter.toNat + 1) % 2 ^ 32
      Says.completes (.iterinc S d) s u
        (Says.retire (Says.written { s.ctx u.tile u.ctx with iter := BitVec.ofNat 32 n } s.cyc d (BitVec.ofNat 64 n) 2) s.cyc S
          ((s.ctx u.tile u.ctx).pc + 4)))) ∧
  decodeWord 0x0C02C07B = .ok (.iterset 0 5) ∧ decodeWord 0x0E0042FB = .ok (.iterinc 0 5)

/-- R381, R382, R390: the crown's SPAWN of a number that is not Free writes −1; of a Free number it starts that context at the entry, with what it takes from the crown and the
rest at its initial value, and writes generation and number. SPAWN at die scope sends its record's address to the command processor, with its own earlier stores performed, and leaves its destination pending until the
answer lands. SEGLD loads the image it reads, aligned, not poisoned and without a reserved bit, into a segment of a context.
It states that these complete: SPAWN, SPAWN_DIE, SEGLD. -/
def Obligations.ContextsStart : Prop :=
  (∀ (s : State) (u : Cur) (S d a b n : Nat) (entry w : Word), s.cur = some u → u.ctx = 0 → Says.sources (s.ctx u.tile 0) s.cyc [a, b] [entry, w] →
    Says.writable (s.ctx u.tile 0) d → w.toNat < 128 → n = w.toNat % 64 → n ≠ 0 → n < s.ctxN u.tile → entry.toNat % 4 = 0 →
    s.portHolds u.tile 0 false = false → s.tileDone u.tile 0 = true →
    ((s.ctx u.tile n).state ≠ .free →
      Says.completes (.spawn S d a b) s u
        (Says.retire (Says.written (s.ctx u.tile 0) s.cyc d (BitVec.allOnes 64) 2) s.cyc S ((s.ctx u.tile 0).pc + 4))) ∧
    ((s.ctx u.tile n).state = .free →
      ∃ s', exec (.spawn S d a b) s = .next s' ∧
        let g := ((s.ctx u.tile n).gen + 1) % 256
        let x := s.ctx u.tile 0
        let y := s'.ctx u.tile n
        s'.ctx u.tile 0 = Says.retire (Says.written x s.cyc d (BitVec.ofNat 64 (g * 256 + n)) 2) s.cyc S (x.pc + 4) ∧
        y.gen = g ∧ y.pc = entry ∧ y.slot = (s.tile u.tile).placeFor n ∧ y.state = (if y.slot.isSome then .slotted else .cached) ∧
        (∀ r < 32, y.reg r = { val := if 10 ≤ r ∧ r ≤ 14 then (x.reg r).seen s.cyc else 0, poison := decide (10 ≤ r ∧ r ≤ 14) && (x.reg r).poison
                               dirty := decide (10 ≤ r ∧ r ≤ 14) }) ∧
        y.seg = x.seg ∧ y.iter = x.iter ∧ y.rnd = x.rnd ∧ y.slim = x.slim ∧ y.schk = x.schk ∧ y.rtmap = x.rtmap ∧
        y.ffl = 0 ∧ y.qmap = 0 ∧ y.qdest = 0 ∧ y.orph = 0 ∧ y.vl = 1 ∧ y.role = (if w.toNat < 64 then 0 else 1) ∧
        y.ptr = Fixed.fill 8 0 ∧ y.str = Fixed.fill 8 {} ∧ y.relRnd = 0 ∧ y.latch = none ∧ y.park = 0 ∧
        (∀ k, k ≠ 0 → k ≠ n → s'.ctx u.tile k = s.ctx u.tile k) ∧ (∀ k, k ≠ u.tile → s'.tile k = s.tile k) ∧ ∀ pa, s'.peek pa = s.peek pa)) ∧
  (∀ (s : State) (u : Cur) (S d a b : Nat) (va vb : Word), s.cur = some u → u.ctx = 0 →
    (s.feature 8 = true → Says.readable (s.ctx u.tile 0) s.cyc a va → Says.writable (s.ctx u.tile 0) d → s.portHolds u.tile 0 false = false →
      s.storesOut u.tile 0 s.nextId = false →
      ∃ s' r, exec (.spawnDie S d a) s = .next s' ∧ (s'.ctx u.tile 0).pc = (s.ctx u.tile 0).pc + 4 ∧ (s'.ctx u.tile 0).latch = none ∧
        (d ≠ 0 → d < 32 → ((s'.ctx u.tile 0).reg d).st = .pending) ∧ r ∈ s'.reqs ∧ r.tile = u.tile ∧ r.ctx = 0 ∧ r.stage = .reply ∧ r.dst = d ∧
        r.val = BitVec.ofInt 64 ((s.gatherTile u.tile).acceptDependent u.tile va.toNat).2) ∧
    (∀ (s1 : State) (v : Nat), Says.sources (s.ctx u.tile 0) s.cyc [a, b] [va, vb] → va.toNat < 512 → (s.ctx u.tile (va.toNat / 8)).state ≠ .free →
      vb.toNat % 16 = 0 → s.loadBlock u.tile 0 vb.toNat 2 = .bytes s1 v false → (Seg.ofNat v).rsvd = false →
      ∃ s', exec (.segld S a b) s = .next s' ∧
        (s'.ctx u.tile (va.toNat / 8)).seg = (s1.ctx u.tile (va.toNat / 8)).seg.set (va.toNat % 8) ⟨BitVec.ofNat 64 v, BitVec.ofNat 64 (v / 2 ^ 64)⟩ ∧
        (s'.ctx u.tile 0).pc = (s1.ctx u.tile 0).pc + 4 ∧ (∀ k, (s'.ctx u.tile k).x = (s1.ctx u.tile k).x) ∧ ∀ pa, s'.peek pa = s1.peek pa))

/-- R383, R232: the crown's REAP of a number in range never waits: of a Halted context it frees the number, empties its receive queue and keeps its generation,
and writes 0; of a Free number it writes 2, and of any other 1, with no other effect; another context traps PRIV. A flit that finds the number Free or of another generation is
orphaned; and the example's word decodes to it.
It states that these complete: REAP. -/
def Obligations.ReapFrees : Prop :=
  (∀ (s : State) (u : Cur) (S d a : Nat) (v : Word), s.cur = some u → u.ctx = 0 → Says.readable (s.ctx u.tile 0) s.cyc a v → Says.writable (s.ctx u.tile 0) d →
    (v = 0 ∨ 64 ≤ v.toNat ∨ s.ctxN u.tile ≤ v.toNat → Says.traps (.reap S d a) s u causeIllegal 0) ∧
    (v ≠ 0 → v.toNat < 64 → v.toNat < s.ctxN u.tile →
      ((s.ctx u.tile v.toNat).state = .halted →
        ∃ s', exec (.reap S d a) s = .next s' ∧
          s'.ctx u.tile 0 = Says.retire (Says.written (s.ctx u.tile 0) s.cyc d 0 2) s.cyc S ((s.ctx u.tile 0).pc + 4) ∧
          s'.ctx u.tile v.toNat = { s.ctx u.tile v.toNat with state := .free, rxq := [] } ∧
          (∀ k, k ≠ 0 → k ≠ v.toNat → s'.ctx u.tile k = s.ctx u.tile k) ∧ (∀ k, k ≠ u.tile → s'.tile k = s.tile k) ∧ ∀ pa, s'.peek pa = s.peek pa) ∧
      ((s.ctx u.tile v.toNat).state ≠ .halted →
        Says.completes (.reap S d a) s u
          (Says.retire (Says.written (s.ctx u.tile 0) s.cyc d (if (s.ctx u.tile v.toNat).state = .free then 2 else 1) 2) s.cyc S
            ((s.ctx u.tile 0).pc + 4))))) ∧
  (∀ (s : State) (u : Cur) (S d a : Nat), s.cur = some u → u.ctx ≠ 0 → Says.traps (.reap S d a) s u causePriv 0) ∧
  (∀ (s : State) (m : FlitMsg) (t : Nat), s.flits.find? (fun x => decide (x.id = m.id)) = some m → s.flitMoves m = true → s.flitTile m = some t →
    ((s.ctx t m.dstCtx).state = .free ∨ (s.ctx t m.dstCtx).gen ≠ m.f.gen) →
    ∃ s', exec (if m.f.fill then .registerFill m.id else .flitArrive m.id) s = .next s' ∧
      (∀ x ∈ s'.flits, x.id = m.id → x.notice = true) ∧ ∀ pa, s'.peek pa = s.peek pa) ∧
  decodeWord 0x0403C4FB = .ok (.reap 0 9 7)

/-- R384 to R386: YIELD makes a slotted context other than crown and cuff swap-eligible when a cached context is ready, and has no other effect; HALT with nothing
of its context left to land halts it, its accumulators free and its slot given up; CKPT keeps its operand, and stops the context when a migration
waits; a CKPT value that is not 4-byte aligned traps MISALIGN.
It states that these complete: YIELD, HALT, CKPT. -/
def Obligations.YieldHaltCkpt : Prop :=
  ∀ (s : State) (u : Cur) (S : Nat), s.cur = some u →
    ((u.ctx = 0 ∨ u.ctx = 15 ∨ (s.ctx u.tile u.ctx).state ≠ .slotted ∨ (s.tile u.tile).bestCached s.cyc = none) →
      Says.completes (.yield S) s u (Says.retire (s.ctx u.tile u.ctx) s.cyc S ((s.ctx u.tile u.ctx).pc + 4))) ∧
    (u.ctx ≠ 0 → u.ctx ≠ 15 → (s.ctx u.tile u.ctx).state = .slotted → (s.tile u.tile).bestCached s.cyc ≠ none →
      Says.completes (.yield S) s u (Says.retire { s.ctx u.tile u.ctx with swapNow := true } s.cyc S ((s.ctx u.tile u.ctx).pc + 4))) ∧
    (s.ctxWork u.tile u.ctx = false →
      ∃ s', exec (.halt S) s = .next s' ∧ (s'.ctx u.tile u.ctx).state = .halted ∧ (s'.ctx u.tile u.ctx).slot = none ∧
        (s'.ctx u.tile u.ctx).x = (s.ctx u.tile u.ctx).x ∧ (∀ n, ((s'.tile u.tile).acc.getD n {}).owner ≠ some u.ctx) ∧
        (∀ n, ((s'.tile u.tile).acc.getD n {}).els = ((s.tile u.tile).acc.getD n {}).els) ∧ ∀ pa, s'.peek pa = s.peek pa) ∧
    (∀ (a : Nat) (v : Word), Says.readable (s.ctx u.tile u.ctx) s.cyc a v →
      (v.toNat % 4 = 0 → Says.completes (.ckpt S a) s u
        (Says.retire { s.ctx u.tile u.ctx with lastCkpt := v, ckptStop := (s.ctx u.tile u.ctx).ckptStop || s.ckptWait u.tile } s.cyc S
          ((s.ctx u.tile u.ctx).pc + 4))) ∧
      (v.toNat % 4 ≠ 0 → Says.traps (.ckpt S a) s u causeMisalign v))

/-- R388, R254: TRAP raises USER_TRAP, which is terminal, with the value of its source as the address, which is TADDR of a pending trap and ADDR of a
record; and the example's word decodes to it.
It states that these complete: TRAP. -/
def Obligations.UserTraps : Prop :=
  (∀ (s : State) (u : Cur) (S a : Nat) (v : Word), s.cur = some u → Says.readable (s.ctx u.tile u.ctx) s.cyc a v →
    Says.traps (.trap S a) s u causeUser v) ∧
  (∀ (s : State) (t c : Nat) (i : TrapInfo), (i.vaddr = none → (s.pendOf t c i).taddr = i.addr) ∧ (s.pendOf t c i).addr = i.addr ∧ (s.trapRecOf t c i).addr = i.addr) ∧
  replayable causeUser = false ∧ causeUser = 27 ∧ decodeWord 0x1002C07B = .ok (.trap 0 5)

/-- R258, R268: CROWN_TAKE_TRAP completes: the crown of a tile that is not quiet, slotted, not busy and not in its handler, takes its oldest pending trap, which is the
event's own effect. It goes on at HANDLER, its latch and the waits it was entered in put aside; TEPC is the pc it would have issued next, and TFPC, TADDR and TCAUSE are the
trap's. Nothing else changes.
It states that these complete: CROWN_TAKE_TRAP. -/
def Obligations.CrownEntersHandler : Prop :=
  ∀ (s : State) (t : Nat) (p : PendTrap) (rest : List PendTrap) (l : Launch), (s.tile t).quiet = false → (s.tile t).pend = p :: rest →
    (s.tile t).inH = false → (s.ctx t 0).state = .slotted → (s.ctx t 0).busy = false → s.launchOf t = some l →
    let h := match (s.ctx t 0).latch with | some q => if q.sent then none else some q | none => none
    Says.completesWith (.crownTakeTrap t) s { s with barWait := s.barWait.filter fun w => decide (¬(w.2.2.1 = t ∧ w.2.2.2 = 0)) } ⟨t, 0, 0⟩
      { s.tile t with
        pend := rest, inH := true, inHTrap := some p, held := h, semWait := (s.tile t).semWait.filter fun w => decide (w.2 ≠ 0)
        tepc := (match h with | some q => q.pc | none => (s.ctx t 0).pc), tfpc := p.tfpc, taddr := p.taddr, tcause := p.tcause }
      { s.ctx t 0 with pc := l.r.handler, park := 0, latch := none }

/-- R389, R258, R255, R268, R124: TRET of the crown in its handler completes. With action 0 for a replayable trap of a sibling the crown goes on at TEPC, with the latch
put aside if TEPC is still its pc, and the sibling, where it is still stopped by that trap, goes on; every other context, tile and byte of memory is as before. With action 1, or for a terminal
trap, the launch does not run on, or, while its group is migrating, the trap is kept for the resume. Out of the handler, or with an operand above 1, TRET traps ILLEGAL.
It states that these complete: TRET. -/
def Obligations.HandlerReturns : Prop :=
  ∀ (s : State) (u : Cur) (S a : Nat) (v : Word), s.cur = some u → u.ctx = 0 → Says.readable (s.ctx u.tile 0) s.cyc a v →
    ((s.tile u.tile).inH = false ∨ 2 ≤ v.toNat → Says.traps (.tret S a) s u causeIllegal 0) ∧
    ((s.tile u.tile).inH = true → v.toNat < 2 → ∀ (p : PendTrap) (c : Nat), (s.tile u.tile).inHTrap = some p → c = p.tcause.toNat / 256 % 64 → c ≠ 0 →
      (v = 0 → p.tcause.toNat / 2 ^ 24 % 2 = 1 →
        ∃ t, exec (.tret S a) s = .next t ∧ t = { s with tiles := t.tiles } ∧
          { t.tile u.tile with ctxs := [] } = { s.tile u.tile with inH := false, inHTrap := none, held := none, ctxs := [] } ∧
          t.ctx u.tile 0 = { s.ctx u.tile 0 with
            pc := (s.tile u.tile).tepc, readyAt := s.cyc + 4 * (1 + S)
            latch := match (s.tile u.tile).held with | some l => if l.pc = (s.tile u.tile).tepc then some l else none | none => none } ∧
          t.ctx u.tile c = (if (s.ctx u.tile c).state = .stopped ∧ (s.ctx u.tile c).park = 10
            then Says.replayed (s.ctx u.tile c) s.cyc (s.ckptWait u.tile) else s.ctx u.tile c) ∧
          (∀ k, k ≠ 0 → k ≠ c → t.ctx u.tile k = s.ctx u.tile k) ∧ (∀ k, k ≠ u.tile → t.tile k = s.tile k) ∧ ∀ pa, t.peek pa = s.peek pa) ∧
      (p.tcause.toNat / 2 ^ 24 % 2 = 0 ∨ v = 1 → ∀ (g : GroupRef) (l : Launch), (s.tile u.tile).grp = some g → Tbl.find? s.launches g.launch = some l →
        (s.migrating u.tile = false → ∃ t, exec (.tret S a) s = .next t ∧ ∀ m, Tbl.find? t.launches g.launch = some m → m.st ≠ .running ∧ m.st ≠ .waiting) ∧
        (s.migrating u.tile = true → ∀ x, Tbl.find? l.groups g.idx = some x →
          ∃ t m y r, exec (.tret S a) s = .next t ∧ Tbl.find? t.launches g.launch = some m ∧ m.st = l.st ∧ Tbl.find? m.groups g.idx = some y ∧
            y.ends = x.ends ++ [r] ∧ r.code = p.tcause.toNat % 256 ∧ r.ctx = c ∧ r.pc = p.tfpc ∧ r.addr = p.addr ∧ ∀ pa, t.peek pa = s.peek pa)))

/-! ## Engines, routes and collectives (R219 to R253, R362 to R376) -/

/-- R219, R223, R228, R365, R366: COPY and QFENCE whose target word, die role and pointers are in order, their queue having room, send one command, of what the context
holds at its issue, and the context goes on. A COPY with a barrier counts its bytes on the object at once, which changes in that alone; where the object is poisoned, or its count
would overflow, it traps BARRIER. With 32 commands in the queue or on their way to it the context parks with PARK 11.
It states that these complete: COPY, QFENCE. -/
def Obligations.CopyCommandsLeave : Prop :=
  ∀ (s : State) (u : Cur) (S a b die v : Nat) (w p : Word), s.cur = some u → Says.sources (s.ctx u.tile u.ctx) s.cyc [a, b] [w, p] → w.toNat < 2 ^ 18 →
    s.dieRole u.tile (w.toNat % 4) = some die → s.spadWaits u.tile u.ctx = false → Says.holds s u.tile p.toNat 1 v →
    let room := s.queueHeld (queueKey die (w.toNat / 4 % 16) (w.toNat / 64 % 8)) < 32
    (∀ h sb, w.toNat / 2 ^ 10 = 0 → Says.holds s u.tile (v % 2 ^ 64) 1 h → Says.holds s u.tile (v % 2 ^ 64) (shapeVecs (h / 2 ^ 144 % 256)) sb →
      (w.toNat / 2 ^ 9 = 0 → room →
        ∃ m, Says.commands (.copy S a b) s u S m ∧ Says.commanded s u m die w.toNat v ∧ m.fence = false ∧ m.shape = Shape.ofNat sb ∧ m.bar = none) ∧
      (w.toNat / 2 ^ 9 = 0 → ¬room → (∀ m ∈ s.copyMsgs, m.openTill ≤ s.cyc) →
        ∃ s', exec (.copy S a b) s = .next s' ∧ (s'.ctx u.tile u.ctx).park = 11 ∧ (s'.ctx u.tile u.ctx).pc = (s.ctx u.tile u.ctx).pc ∧
          (s'.ctx u.tile u.ctx).x = (s.ctx u.tile u.ctx).x ∧ s'.copyMsgs = s.copyMsgs ∧ ∀ q, s'.peek q = s.peek q) ∧
      (w.toNat / 2 ^ 9 = 1 → Says.names (v / 2 ^ 64 % 2 ^ 64) 1 →
        let l := spadLine u.tile (pBank (v / 2 ^ 64 % 2 ^ 64)) (pVidx (v / 2 ^ 64 % 2 ^ 64))
        (s.poisoned l = true → Says.traps (.copy S a b) s u causeBarrier 0) ∧
        (s.poisoned l = false → ∀ inward, s.copyInward u.tile (Shape.ofNat sb) (s.ctx u.tile u.ctx).seg = some inward →
          let k := s.copyBytes { s.cmdOf u.tile u.ctx die w.toNat v with shape := Shape.ofNat sb } inward
          let o := s.barrier l
          let n := (if inward then o.inb else o.outb) + k
          (n < 2 ^ 32 → room → 0 < k → u.tile < 4096 → Says.noWaitv s → Says.noBarWait s u → o.inb < 2 ^ 32 → o.outb < 2 ^ 32 →
            ∃ s' m, exec (.copy S a b) s = .next s' ∧ s'.copyMsgs = s.copyMsgs ++ [m] ∧ Says.commanded s u m die w.toNat v ∧ m.fence = false ∧
              m.shape = Shape.ofNat sb ∧ m.bar = some (v / 2 ^ 64 % 2 ^ 64) ∧ m.inward = inward ∧ m.counted = k ∧ Says.wentOn s s' u S ∧
              s'.barrier l = (if inward then { o with inb := n } else { o with outb := n }) ∧
              ∀ q, q < 64 * l ∨ 64 * l + 16 ≤ q → s'.peek q = s.peek q) ∧
          (2 ^ 32 ≤ n → Says.traps (.copy S a b) s u causeBarrier 0)))) ∧
    (w.toNat / 2 ^ 9 % 2 = 0 →
      (room → ∃ m, Says.commands (.qfence S a b) s u S m ∧ Says.commanded s u m die w.toNat v ∧ m.fence = true ∧ m.after = [w.toNat / 2 ^ 10 % 256]) ∧
      (¬room → ∃ s', exec (.qfence S a b) s = .next s' ∧ (s'.ctx u.tile u.ctx).park = 11 ∧ (s'.ctx u.tile u.ctx).pc = (s.ctx u.tile u.ctx).pc ∧
        (s'.ctx u.tile u.ctx).x = (s.ctx u.tile u.ctx).x ∧ s'.copyMsgs = s.copyMsgs ∧ ∀ q, s'.peek q = s.peek q))

/-- R233, R236, R239, R241, R367 to R371: RTOPEN of an entry that is free or closed opens it, in the next generation, with its descriptor, deadline and nothing selected. ROUTE
through an open entry selects the used slots of its route vectors, and hands its rows out with its context waiting, or has completed. RTSTAT reads an entry's state, generation and completed rows. RTTGT with a sound image
registers a free target number in the lowest free registration, and retires one whose ring is empty. RTRET takes the oldest row of a registered target's ring and answers its origin with a result, or with a drop.
It states that these complete: ROUTE, RTOPEN, RTRET, RTRET_DROP, RTSTAT, RTTGT. -/
def Obligations.RouteInstructions : Prop :=
  (∀ (s : State) (u : Cur) (S n a b : Nat), s.cur = some u → s.feature 3 = true → n < 16 → s.spadWaits u.tile u.ctx = false →
    (∀ (w : Word) (d : Nat), Says.readable (s.ctx u.tile u.ctx) s.cyc a w → Says.holds s u.tile ((s.ctx u.tile u.ctx).ptr.getD b 0).toNat 1 d →
      ((s.entry u.tile n).state = 0 ∨ (s.entry u.tile n).state = 4) → w.toNat < 2 ^ 41 → 0 < w.toNat / 2 ^ 32 → w.toNat / 2 ^ 32 ≤ 256 →
      (∀ i < 6, d / 2 ^ (64 * i) % 64 = 0) → d / 2 ^ 384 % 8 = 0 →
      ∃ e : Reasm, Says.completesTile (.rtopen S n a b) s u { s.tile u.tile with reasm := (s.tile u.tile).reasm.set n e }
          (Says.retire (s.ctx u.tile u.ctx) s.cyc S ((s.ctx u.tile u.ctx).pc + 4)) ∧
        e.state = 1 ∧ e.gen = ((s.entry u.tile n).gen + 1) % 256 ∧ e.wvec = w.toNat / 2 ^ 32 ∧ (∀ i < 8, e.word i = d / 2 ^ (64 * i) % 2 ^ 64) ∧
        e.due = (if w.toNat % 2 ^ 32 = 0 ∨ s.migrating u.tile = true then none else some (s.cyc + w.toNat % 2 ^ 32)) ∧ e.expect = 0 ∧ e.ret = 0 ∧ e.drop = 0 ∧ e.tout = 0 ∧ e.sent = 0 ∧
        e.done = 0 ∧ e.iter = (s.ctx u.tile u.ctx).iter ∧ e.owner = u.ctx) ∧
    (∀ (s1 : State) (rv : Nat) (plan : List (Nat × Nat × Nat)) (l : Launch), (s.tile u.tile).route = none → s.fencesBefore u.tile u.ctx s.nextId = false →
      (s.entry u.tile n).state = 1 →
      (s.entry u.tile n).gen < 256 → Says.names ((s.ctx u.tile u.ctx).ptr.getD a 0).toNat (16 * (s.entry u.tile n).wvec) →
      Says.holds s u.tile ((s.ctx u.tile u.ctx).ptr.getD b 0).toNat 8 rv → (∀ r < 16, rv / 2 ^ (256 * r + 32) % 2 ^ 96 = 0) →
      s.readMap u.tile u.ctx (s.ctx u.tile u.ctx).rtmap.toNat (Says.usedSlots rv) = .ok (s1, plan) → s1.launchOf u.tile = some l →
      Says.noBarWait s1 u →
      (∀ p ∈ plan, mapBad l p.2.2 = none ∧ (s.entry u.tile n).word (1 + p.1 % 4) ≠ 0) →
      ∃ s', exec (.route S n a b) s = .next s' ∧ (s'.entry u.tile n).gen = (s1.entry u.tile n).gen ∧ 2 ≤ (s'.entry u.tile n).state ∧
        (∀ i < 64, (s'.entry u.tile n).expect / 2 ^ i % 2 = (if rv / 2 ^ (8 * (32 * (i / 4) + i % 4)) % 256 = 255 then 0 else 1)) ∧
        (s'.ctx u.tile u.ctx).x = (s1.ctx u.tile u.ctx).x ∧
        ((s'.ctx u.tile u.ctx).busy = true ∨ (s'.ctx u.tile u.ctx).pc = (s1.ctx u.tile u.ctx).pc + 4 ∧ (s'.ctx u.tile u.ctx).latch = none))) ∧
  (∀ (s : State) (u : Cur) (S a : Nat) (w : Word), s.cur = some u → s.feature 3 = true →
    (∀ d n, n < 16 → Says.writable (s.ctx u.tile u.ctx) d →
      Says.completes (.rtstat S d n) s u (Says.retire (Says.written (s.ctx u.tile u.ctx) s.cyc d
        (BitVec.ofNat 64 ((s.entry u.tile n).state + 2 ^ 8 * (s.entry u.tile n).gen + 2 ^ 16 * (s.entry u.tile n).done)) 2) s.cyc S
        ((s.ctx u.tile u.ctx).pc + 4))) ∧
    (∀ (s1 : State) (v : Nat), Says.readable (s.ctx u.tile u.ctx) s.cyc a w → w.toNat % 32 = 0 →
      s.loadBlock u.tile u.ctx w.toNat 4 = .bytes s1 v false →
      (∀ i, v / 2 ^ 8 % 2 = 1 → Says.goodTarget v → (∀ j < 8, ((s1.tile u.tile).rttgt.getD j {}).valid = true → ((s1.tile u.tile).rttgt.getD j {}).tgt ≠ v % 256) →
        i < 8 → ((s1.tile u.tile).rttgt.getD i {}).valid = false → (∀ j < i, ((s1.tile u.tile).rttgt.getD j {}).valid = true) →
        ∃ s', exec (.rttgt S a) s = .next s' ∧ Says.wentOn s1 s' u S ∧ (∀ pa, s'.peek pa = s1.peek pa) ∧ s'.rmsgs = s1.rmsgs ∧
          (s'.tile u.tile).rttgt = (s1.tile u.tile).rttgt.set i
            { valid := true, tgt := v % 256, wait := decide (v / 2 ^ 9 % 2 = 1), cap := v / 2 ^ 16 % 2 ^ 16, wmax := v / 2 ^ 32 % 2 ^ 16
              ring := v / 2 ^ 48 % 2 ^ 16, aword := v / 2 ^ 64 % 2 ^ 16 }) ∧
      (∀ i l, v < 256 → (s1.tile u.tile).target? v = some i → s1.launchOf u.tile = some l →
        ((s1.tile u.tile).rttgt.getD i {}).head = ((s1.tile u.tile).rttgt.getD i {}).tail →
        ∃ s', exec (.rttgt S a) s = .next s' ∧ Says.wentOn s1 s' u S ∧ (∀ pa, s'.peek pa = s1.peek pa) ∧ s'.rmsgs = s1.rmsgs ∧
          (s'.tile u.tile).rttgt = (s1.tile u.tile).rttgt.set i {})) ∧
    (∀ (i : Nat) (l : Launch) (drop : Bool) (b h : Nat), Says.readable (s.ctx u.tile u.ctx) s.cyc a w → w.toNat < 255 →
      s.spadWaits u.tile u.ctx = false → (s.tile u.tile).target? w.toNat = some i → s.launchOf u.tile = some l →
      let g := (s.tile u.tile).rttgt.getD i {}
      let p := ((s.ctx u.tile u.ctx).ptr.getD b 0).toNat
      g.head ≠ g.tail → s.poisoned (g.slotPa u.tile g.head / 64) = false → h = s.peekN (g.slotPa u.tile g.head) 16 →
      (drop = false → Says.names p (h / 2 ^ 80 % 2 ^ 16)) →
      ∃ s' m, exec (if drop then .rtretDrop S a else .rtret S a b) s = .next s' ∧ Says.wentOn s s' u S ∧ (∀ pa, s'.peek pa = s.peek pa) ∧
        s'.rmsgs = s.rmsgs ++ [m] ∧ m.kind = (if drop then 2 else 1) ∧ m.group = h / 2 ^ 32 % 2 ^ 12 ∧ m.entry = h / 2 ^ 48 % 16 ∧ m.gen = h / 2 ^ 56 % 256 ∧
        m.rs = h / 2 ^ 64 % 64 ∧ m.data = (if drop then [] else s.vecs u.tile (pBank p) (pVidx p) (h / 2 ^ 80 % 2 ^ 16)) ∧
        (s'.tile u.tile).rttgt = (s.tile u.tile).rttgt.set i { g with head := (g.head + 1) % 2 ^ 32 }))

/-- R247, R249, R372 to R376: in the cuff, CSET of a sound block makes it the group's current one, with STEP 0 and STATE 1; a step whose words and peers are in
order is posted with its chunks under the block's STEP, which then rises; CWAIT completes when no step is left; CLOOP takes one from its counter and goes
on at pc + 4 × imm while it is not 0.
It states that these complete: CSET, CSEND, CRECV, CRRS, CCOPY, CWAIT, CLOOP. -/
def Obligations.CollectiveInstructions : Prop :=
  ∀ (s : State) (u : Cur) (S : Nat), s.cur = some u → u.ctx = 15 → u.tile < 4096 → Says.noBarWait s u →
    (∀ (s1 : State) (a off : Nat) (va : Word) (g : GroupRef), s.feature 16 = true → Says.readable (s.ctx u.tile u.ctx) s.cyc a va → va.toNat % 64 = 0 →
      s.segCheck u.tile (s.ctx u.tile u.ctx).seg va.toNat 128 true true false = .ok (.spad u.tile off) → off % 64 = 0 →
      ((s.ctx u.tile u.ctx).seg.getD (va.toNat / 2 ^ 61) {}).w0.toNat / 2 ^ 60 % 4 = 2 → s.spadWaits u.tile u.ctx = false →
      s.poisoned (spadPa u.tile off / 64) = false → s.poisoned (spadPa u.tile off / 64 + 1) = false → (s.tile u.tile).grp = some g →
      blockBad (Says.block s u.tile (off / 64) 0 128) = false →
      (let lbuf := Says.block s u.tile (off / 64) 0 128 / 2 ^ 128 % 2 ^ 64
       lbuf % 2 ^ 61 + Says.block s u.tile (off / 64) 0 128 / 2 ^ 48 % 256 * (Says.block s u.tile (off / 64) 0 128 / 2 ^ 64 % 2 ^ 32) ≤
        ((s.ctx u.tile u.ctx).seg.getD (lbuf / 2 ^ 61) {}).w1.toNat % 2 ^ 61) →
      s.zeroStop u.tile u.ctx (Says.block s u.tile (off / 64) 0 128 / 2 ^ 256 % 2 ^ 64) (Says.block s u.tile (off / 64) 0 128 / 2 ^ 48 % 256) = none →
      s1 = s.zeroWords u.tile u.ctx (Says.block s u.tile (off / 64) 0 128 / 2 ^ 256 % 2 ^ 64) (Says.block s u.tile (off / 64) 0 128 / 2 ^ 48 % 256) →
      (s1.tile u.tile).grp = some g → Says.noWaitv s1 → Says.noBarWait s1 u →
      ∃ s', exec (.cset S a) s = .next s' ∧ Says.wentOn s1 s' u S ∧ Says.block s' u.tile (off / 64) 0x38 1 = 0 ∧ Says.block s' u.tile (off / 64) 0x39 1 = 1 ∧
        s'.curBlock g.launch g.idx = some ⟨g.launch, g.idx, off / 64, Says.block s u.tile (off / 64) 0 128 % 2 ^ 32⟩) ∧
    (∀ (i : Instr) (kind a b : Nat) (w pw : Word) (g : GroupRef) (l : Launch) (cur : CollCur),
      ((i = .csend S a b ∧ kind = 1) ∨ (i = .crecv S a b ∧ kind = 2) ∨ (i = .crrs S a b ∧ kind = 3) ∨ (i = .ccopy S a b ∧ kind = 4)) →
      Says.sources (s.ctx u.tile u.ctx) s.cyc [a, b] [w, pw] → (s.tile u.tile).grp = some g → s.launchOf u.tile = some l → l.r.nranks ≠ 0 →
      s.curBlock g.launch g.idx = some cur → 64 * cur.blk + 128 ≤ 393216 → s.spadWaits u.tile u.ctx = false → Says.noWaitv s →
      s.poisoned (spadPa u.tile (64 * cur.blk) / 64) = false → s.poisoned (spadPa u.tile (64 * cur.blk) / 64 + 1) = false → Says.block s u.tile cur.blk 0x39 1 = 1 → w.toNat < 2 ^ 29 → pw.toNat < 2 ^ 32 →
      w.toNat % 64 ≤ w.toNat / 64 % 64 → w.toNat / 64 % 64 < Says.block s u.tile cur.blk 6 1 → (s.stepsOf g.launch g.idx).length < 16 →
      (let p := fun h q => Says.peer h l.r.nranks l.r.myrank (fun j => Says.block s u.tile cur.blk (0x28 + 4 * j) 4) q
       (kind = 1 → (∃ q, p (pw.toNat % 65536) q) ∧ pw.toNat / 65536 = 0 ∧ w.toNat / 2 ^ 18 % 2 = 0) ∧
       (kind = 2 → pw = 0 ∧ (w.toNat / 2 ^ 18 % 2 = 1 ∨ w.toNat / 2 ^ 19 = 0)) ∧
       (3 ≤ kind → (∃ q, p (pw.toNat % 65536) q) ∧ (∃ q, p (pw.toNat / 65536) q) ∧ w.toNat / 2 ^ 18 = 0)) →
      ∃ s' x, exec i s = .next s' ∧ Says.wentOn s s' u S ∧ s'.steps = s.steps ++ [x] ∧ x.kind = kind ∧ x.launch = g.launch ∧ x.group = g.idx ∧
        x.num = Says.block s u.tile cur.blk 0x38 1 ∧ Says.block s' u.tile cur.blk 0x38 1 = (x.num + 1) % 256 ∧
        x.todo = (List.range (w.toNat / 64 % 64 + 1 - w.toNat % 64)).map (· + w.toNat % 64) ∧ x.expect = w.toNat / 2 ^ 19 + 1 ∧ x.acks = [] ∧
        (kind ≠ 2 → Says.peer (pw.toNat % 65536) l.r.nranks l.r.myrank (fun j => Says.block s u.tile cur.blk (0x28 + 4 * j) 4) x.peerA)) ∧
    (s.stepsOf (s.groupKey u.tile).1 (s.groupKey u.tile).2 = [] →
      ∃ s', exec (.cwait S) s = .next s' ∧ Says.wentOn s s' u S ∧ ∀ pa, s'.peek pa = s.peek pa) ∧
    (∀ (j : Nat) (imm : BitVec 9) (g : GroupRef) (cur : CollCur), j < 4 → (s.tile u.tile).grp = some g → s.curBlock g.launch g.idx = some cur →
      64 * cur.blk + 128 ≤ 393216 → s.spadWaits u.tile u.ctx = false → Says.noWaitv s → s.poisoned (spadPa u.tile (64 * cur.blk) / 64) = false →
      s.poisoned (spadPa u.tile (64 * cur.blk) / 64 + 1) = false →
      let v := (Says.block s u.tile cur.blk (0x28 + 4 * j) 4 + (2 ^ 32 - 1)) % 2 ^ 32
      ∃ s', exec (.cloop S j imm) s = .next s' ∧ Says.block s' u.tile cur.blk (0x28 + 4 * j) 4 = v ∧ (s'.ctx u.tile 15).x = (s.ctx u.tile 15).x ∧
        (s'.ctx u.tile 15).pc = (s.ctx u.tile 15).pc + (if v = 0 then 4 else 4 * imm.signExtend 64) ∧ (s'.ctx u.tile 15).latch = none ∧
        ∀ pa, (pa < spadPa u.tile (64 * cur.blk + 0x28 + 4 * j) ∨ spadPa u.tile (64 * cur.blk + 0x2C + 4 * j) ≤ pa) → s'.peek pa = s.peek pa)

/-- R127, R230, R294, R363: under QMAP an integer instruction that reads x31 takes the oldest flit of the receive queue, once however often it names it; one
that writes x30, with a QDEST whose roles are bound and no earlier write of it awaiting acceptance, sends its result there in one flit. -/
def Obligations.QueueRegistersUsed : Prop :=
  ∀ (i : Instr) (s : State) (u : Cur) (srcs : List Nat) (d lat : Nat) (f : Word → List Word → Word) (vs : List Word),
    Says.intForm i = some (srcs, d, lat, f) → s.cur = some u → (s.ctx u.tile u.ctx).mapped = true →
    (∀ fl rest, (s.ctx u.tile u.ctx).rxq = fl :: rest → fl.poison = false → 31 ∈ srcs → Says.taking (s.ctx u.tile u.ctx) s.cyc fl srcs vs →
      Says.writable (s.ctx u.tile u.ctx) d →
      Says.completes i s u (Says.retire (Says.written { s.ctx u.tile u.ctx with rxq := rest } s.cyc d (f (s.ctx u.tile u.ctx).pc vs) lat) s.cyc 0
        ((s.ctx u.tile u.ctx).pc + 4))) ∧
    (∀ (g : GroupRef) (dst : Nat), d = 30 → Says.sources (s.ctx u.tile u.ctx) s.cyc srcs vs → (s.ctx u.tile u.ctx).txPend = none →
      ((s.ctx u.tile u.ctx).reg 30).st ≠ .pending → (s.tile u.tile).grp = some g →
      let q := (s.ctx u.tile u.ctx).qdest.toNat
      Says.goodDest (s.ctxN u.tile) q → s.qdestGroup u.tile q = some dst →
      let fl : Flit := { srcTile := u.tile, srcCtx := u.ctx, fill := decide (q / 2 ^ 24 % 2 = 1), freg := q / 2 ^ 25 % 32, gen := q / 2 ^ 32
                         val := f (s.ctx u.tile u.ctx).pc vs }
      ∃ s', exec i s = .next s' ∧ Says.Becomes s'
        { s with flits := s.flits ++ [{ id := s.nextId, launch := g.launch, srcGroup := g.idx, dstGroup := dst, dstCtx := q % 64, f := fl }]
                 nextId := s.nextId + 1 } u.tile u.ctx (s.tile u.tile)
        (Says.retire { s.ctx u.tile u.ctx with txPend := some fl, sentBy := { insn := u.insn, pc := (s.ctx u.tile u.ctx).pc } } s.cyc 0 ((s.ctx u.tile u.ctx).pc + 4)))

/-! ## Events of tiles and engines -/

/-- R126, R308, R311, R329, R336, R337: the oldest divide and the oldest FDIV or FSQRT of a tile, and a reduction that ends in the vector unit, land in their
registers with their flags; one without a scalar result sets the flags that it still holds; a matrix step puts its elements and flags into its accumulator. The unit is
then free.
It states that these complete: DIVIDE_RESULT_LAND, FP_DIVIDE_RESULT_LAND, VECTOR_RESULT_LAND, MATRIX_STEP_LAND. -/
def Obligations.UnitResultsLand : Prop :=
  ∀ (s : State) (t : Nat),
    (∀ (op : UnitOp) (rest : List UnitOp), s.alive t op.ctx op.gen = true → Says.lands s t op.ctx op.dst →
      ((s.tile t).divq = op :: rest →
        ∃ s', exec (.divideResultLand t) s = .next s' ∧ Says.landed s s' t op.ctx op.dst op.val op.flags ∧ (s'.tile t).divq = rest) ∧
      ((s.tile t).fdivq = op :: rest →
        ∃ s', exec (.fpDivideResultLand t) s = .next s' ∧ Says.landed s s' t op.ctx op.dst op.val op.flags ∧ (s'.tile t).fdivq = rest)) ∧
    (∀ r : VRun, (s.tile t).vrun = some r → r.till ≤ s.cyc → s.alive t r.ctx r.gen = true →
      (∀ d w, r.dst = some (d, w) → Says.lands s t r.ctx d →
        ∃ s', exec (.vectorResultLand t) s = .next s' ∧ Says.landed s s' t r.ctx d w r.flags ∧ (s'.tile t).vrun = none) ∧
      (r.dst = none → ∃ s', exec (.vectorResultLand t) s = .next s' ∧ (s'.tile t).vrun = none ∧ (s'.ctx t r.ctx).ffl = (s.ctx t r.ctx).ffl ||| r.flags ∧
        (∀ k, (s'.ctx t k).x = (s.ctx t k).x ∧ (s'.ctx t k).pc = (s.ctx t k).pc) ∧ ∀ pa, s'.peek pa = s.peek pa)) ∧
    (∀ m : MRun, (s.tile t).mrun = some m → m.till ≤ s.cyc → m.acc < 8 → m.drain = [] →
      ∃ s', exec (.matrixStepLand t) s = .next s' ∧ (s'.tile t).mrun = none ∧
        ((s'.tile t).acc.getD m.acc {}).els = m.els.getD ((s.tile t).acc.getD m.acc {}).els ∧
        ((s'.tile t).acc.getD m.acc {}).flags = ((s.tile t).acc.getD m.acc {}).flags ||| m.flags ∧
        ((s'.tile t).acc.getD m.acc {}).owner = ((s.tile t).acc.getD m.acc {}).owner ∧
        (∀ n, n ≠ m.acc → (s'.tile t).acc.getD n {} = (s.tile t).acc.getD n {}) ∧
        (s.alive t m.ctx m.gen = true → (s'.ctx t m.ctx).ffl = (s.ctx t m.ctx).ffl ||| m.ffl) ∧
        (∀ k, (s'.ctx t k).x = (s.ctx t k).x ∧ (s'.ctx t k).pc = (s.ctx t k).pc) ∧ ∀ pa, s'.peek pa = s.peek pa)

/-- R107, R113 to R115, R131, R139, R293, R337: an input stream's unit takes the next vector; an output stream's unit writes its oldest vector at its home, and no other byte; a remote read
whose window has closed reads its vectors; a matrix step issues again once its operands lie in the buffer. A context parked for SWAP_TH cycles becomes swap-eligible; a swap that ends, or a free slot, takes the cached context
that is ready; a swap begins when the leaving context's streams have drained; a cached context's record takes its dirty registers; and a word that is not in the tile's instruction cache comes from its home, or ends in the trap
of its fetch.
It states that these complete: SWAP_THRESHOLD_REACHED, CONTEXT_SWAP, CONTEXT_RECORD_WRITEBACK, STREAM_PREFETCH, STREAM_OUTPUT_DRAIN, REMOTE_READ_CLOSE, MATRIX_OPERAND_FILL, INSTRUCTION_CACHE_FILL. -/
def Obligations.StreamsAndSlots : Prop :=
  (∀ (s : State) (t c : Nat),
    (∀ (r : Nat) (s1 : State) (v : Vec) (p : Nat), r < 8 →
      let st := (s.ctx t c).str.getD r {}
      st.bound = true → st.out = false → st.unit = true → st.ahead.length < 4 → st.pos + st.ahead.length < st.total →
      s.fetchStream t c st (st.pos + st.ahead.length) = .vec s1 v p →
      ∃ s', exec (.streamPrefetch t c r) s = .next s' ∧
        (s'.ctx t c).str.getD r {} = { (s1.ctx t c).str.getD r {} with ahead := st.ahead ++ [{ data := v, poison := decide (p = 1) }] } ∧
        (s'.ctx t c).x = (s1.ctx t c).x ∧ ∀ pa, s'.peek pa = s1.peek pa) ∧
    (∀ (r : Nat) (s1 : State) (v : Vec) (p : Nat), r < 8 →
      let st := (s.ctx t c).str.getD r {}
      st.bound = true → st.out = false → st.unit = true → 4 ≤ st.ahead.length → st.pos + st.ahead.length < st.total →
      s.fetchStream t c st (st.pos + st.ahead.length) = .vec s1 v p → exec (.streamPrefetch t c r) s = .next (s.wakeStream t c)) ∧
    (∀ (r : Nat) (v : StreamVec) (rest : List StreamVec), r < 8 →
      let st := (s.ctx t c).str.getD r {}
      st.out = true → st.unit = true → st.ahead = v :: rest → v.stamped = false → v.pa % 64 = 0 → v.tail = none → MemInv s → Says.noWaitv s → Says.there s v.pa →
      (s.ctx t c).roundShut s.nextId (s.ctx t c).relRnd = false → s.rejectsAt t v.pa 64 v.shu = false →
      (isCxl v.pa = true → s.direct (s.partOf t) v.tenant (v.pa / 64) v.shu = true → (v.shu = true → s.cached (v.pa / 64) = none) ∧ Says.noPartials s) →
      ∃ s', exec (.streamOutputDrain t c r) s = .next s' ∧
        ((s'.ctx t c).str.getD r {}).ahead = rest ∧ ((s'.ctx t c).str.getD r {}).pos = st.pos ∧
        (∀ k < 64, s'.peek (v.pa + k) = BitVec.ofNat 8 (v.data.toNat / 2 ^ (8 * k))) ∧
        ∀ a, a < v.pa ∨ v.pa + 64 ≤ a → isCxl v.pa = false ∨ isCxl a = false → s'.peek a = s.peek a) ∧
    (∀ r : RemoteRead, s.rreads.find? (fun q => decide (q.id = r.id)) = some r → r.closed = false → r.openAt + (if r.users.any (fun u => decide (u.1 / 8 = r.tile / 8)) then 64 else 0) ≤ s.cyc → s.groupOff r.launch r.group = false →
      ∃ s', exec (.remoteReadClose r.id) s = .next s' ∧ s' = { s with rreads := s'.rreads } ∧
        ∀ q ∈ s'.rreads, q.id = r.id → q.closed = true ∧ q.fmt = (s.tile r.tile).bank.getD r.bank 0 ∧ q.data = (List.range r.count).map fun i => s.vec r.tile r.bank (pStep r.first r.stride i)) ∧
    (∀ m : MBuf, (s.tile t).mbuf = some m → m.ctx = c → m.ready = false → (s.tile t).bufHeld = true →
      (∀ q ∈ Says.matSels m.insn.toNat, ∃ o, s.operand t c q (s.tile t).bank.els 0 = .ok o) →
      (s.remoteReady t c ((Says.matSels m.insn.toNat).filter fun q => decide (q < 8)) = true) →
      ((∀ q ∈ Says.matSels m.insn.toNat, q < 8) →
        ∃ s', exec (.matrixOperandFill t) s = .next s' ∧ (s'.tile t).mbuf = some { m with a := [], b := [], ready := true, trap := none } ∧
          s'.ctx t c = { s.ctx t c with readyAt := max (s.ctx t c).readyAt (s.cyc + 1) } ∧ ∀ pa, s'.peek pa = s.peek pa) ∧
      (∀ q o s1 rows, Says.matSels m.insn.toNat = [q] → 8 ≤ q → s.operand t c q (s.tile t).bank.els 0 = .ok o →
        s.readVecs t c o 0 ((256 + o.fmt.e - 1) / o.fmt.e) = .ok (s1, rows) →
        ∃ s', exec (.matrixOperandFill t) s = .next s' ∧
          (s'.tile t).mbuf = some { m with a := rows.map fun y => (y.1, false), b := [], ready := true, trap := none } ∧
          (s'.ctx t c).pc = (s1.ctx t c).pc ∧ (s'.ctx t c).x = (s1.ctx t c).x ∧ ∀ pa, s'.peek pa = s1.peek pa))) ∧
  (∀ (s : State) (t c : Nat),
    ((s.ctx t c).state = .slotted → (s.ctx t c).park ≠ 0 → c ≠ 0 → c ≠ 15 → (s.ctx t c).parkedAt + s.swapTh t ≤ s.cyc →
      ∃ s', exec (.swapThresholdReached t c) s = .next s' ∧ Says.Becomes s' s t c (s.tile t) { s.ctx t c with swapNow := true }) ∧
    (∀ w, (s.tile t).swap = some w → w.till ≤ s.cyc → w.enter = c → (s.ctx t c).state = .cached →
      ∃ s', exec (.contextSwap t) s = .next s' ∧ (s'.tile t).swap = none ∧ (s'.ctx t c).state = .slotted ∧ (s'.ctx t c).slot = some w.slot ∧
        (∀ k, (s'.ctx t k).x = (s.ctx t k).x ∧ (s'.ctx t k).pc = (s.ctx t k).pc ∧ (s'.ctx t k).latch = (s.ctx t k).latch) ∧ ∀ pa, s'.peek pa = s.peek pa) ∧
    (∀ n, (s.tile t).swap = none → (s.tile t).bestCached s.cyc = some c → (s.ctx t c).state = .cached → (s.tile t).quiet = false → 1 ≤ n → n ≤ 14 →
      (s.tile t).slotTaken n = false → (∀ k, 1 ≤ k → k < n → (s.tile t).slotTaken k = true) →
      ∃ s', exec (.contextSwap t) s = .next s' ∧ (s'.ctx t c).state = .slotted ∧ (s'.ctx t c).slot = some n ∧
        (∀ k, (s'.ctx t k).x = (s.ctx t k).x ∧ (s'.ctx t k).pc = (s.ctx t k).pc ∧ (s'.ctx t k).latch = (s.ctx t k).latch) ∧ ∀ pa, s'.peek pa = s.peek pa) ∧
    (∀ d n, (s.tile t).swap = none → (s.tile t).bestCached s.cyc = some c → (s.tile t).quiet = false → (∀ k, 1 ≤ k → k ≤ 14 → (s.tile t).slotTaken k = true) →
      s.leavingCtx t = some (d, n) → d ≠ c → (∀ st ∈ (s.ctx t d).str.els, st.undrained = false) →
      ∃ s', exec (.contextSwap t) s = .next s' ∧ (s'.tile t).swap = some { slot := n, enter := c, till := s.cyc + 32 } ∧ (s'.ctx t d).state = .cached ∧
        (s'.ctx t d).slot = none ∧ (∀ k, (s'.ctx t k).x = (s.ctx t k).x ∧ (s'.ctx t k).pc = (s.ctx t k).pc ∧ (s'.ctx t k).latch = (s.ctx t k).latch) ∧
        ∀ pa, s'.peek pa = s.peek pa) ∧
    ((∀ r < 32, ((s.ctx t c).reg r).dirty = true → ((8 * r, 8, (s.ctx t c).held r s.cyc), ((s.ctx t c).reg r).poison) ∈ (s.ctx t c).dirtyFields s.cyc) ∧
      ∀ fld ∈ (s.ctx t c).others s.cyc, Tbl.find? (s.ctx t c).saved fld.1 ≠ some fld.2.2 → ∃ b, (fld, b) ∈ (s.ctx t c).dirtyFields s.cyc) ∧
    (∀ (g : GroupRef) (l : Launch) (s1 : State) (z : Nat) (q : Bool), (s.tile t).grp = some g → s.launchOf t = some l → (s.ctx t c).state = .cached →
      (s.ctx t c).dirtyFields s.cyc ≠ [] → (s.tile t).quiet = false → s.waitsFor l.part .save g.launch = false →
      s.saveFields l.part (l.r.save + 0x1000 + g.idx * 0x80000 + 0x8000 + c * 0x400) ((s.ctx t c).dirtyFields s.cyc) = .ok s1 z q →
      ∃ s', exec (.contextRecordWriteback t c) s = .next s' ∧ (∀ r, (s'.ctx t c).reg r =
          { (s1.ctx t c).reg r with dirty := ((s1.ctx t c).reg r).dirty && ((s1.ctx t c).reg r).isShort s1.cyc }) ∧
        (s'.ctx t c).pc = (s1.ctx t c).pc ∧ ∀ pa, s'.peek pa = s1.peek pa) ∧
    ((s.ctx t c).fetches = true → (s.tile t).quiet = false → (s.ctx t c).ckptStop = false →
      let trap := fun (s1 : State) (k : Nat) => s1.takeTrap t c { cause := k, pc := (s.ctx t c).pc, addr := (s.ctx t c).pc, fetch := true }
      (∀ k, s.fetch t c = .trap k → exec (.instructionCacheFill t c) s = .next (trap s k)) ∧
      (∀ pa e key, s.fetch t c = .miss pa e key →
        let p := s.partOf t
        let g := (s.tlbFill t e).serve p e.tenant (pa / 64) e.shu
        (s.rejectsAt t pa 4 e.shu = true → exec (.instructionCacheFill t c) s = .next (trap s causePageRights)) ∧
        (s.rejectsAt t pa 4 e.shu = false → g.readBad p e.tenant e.shu (pa / 64) = true → exec (.instructionCacheFill t c) s = .next (trap g causePoison)) ∧
        (s.rejectsAt t pa 4 e.shu = false → g.readBad p e.tenant e.shu (pa / 64) = false → ∃ s', exec (.instructionCacheFill t c) s = .next s' ∧
          Tbl.find? (s'.tile t).icache key = some (BitVec.ofNat 32 (g.readN p e.tenant e.shu pa 4)) ∧
          (∀ k, (s'.ctx t k).x = (g.ctx t k).x ∧ (s'.ctx t k).pc = (g.ctx t k).pc) ∧ ∀ a, s'.peek a = g.peek a))))

/-- R122, R143, R195, R196, R219 to R226: a merge window closes; a command on its way waits for the releases before it and for the resume of its group, and then
enters its queue, a fence with the commands that are there before it; a granule between sides of one format moves its bytes unchanged and no other; a copy whose bytes
have moved leaves its queue, at once or behind its completion word or its fill; and so does a queue fence once what it names has completed.
It states that these complete: COPY_COMMAND_ENQUEUE, COPY_GRANULE, COPY_COMPLETE, QFENCE_RELEASE, COPY_MERGE_CLOSE. -/
def Obligations.CopiesServed : Prop :=
  ∀ (s : State) (die eng q : Nat) (c : CopyCmd),
    let key := queueKey die eng q
    (s.copyMsgs.find? (fun x => decide (x.id = c.id)) = some c → c.openTill ≠ 0 → c.openTill ≤ s.cyc →
      ∃ s', exec (.copyMergeClose c.id) s = .next s' ∧ s' = { s with copyMsgs := s'.copyMsgs } ∧ ∀ x ∈ s'.copyMsgs, x.id = c.id → x.openTill = 0) ∧
    (s.copyMsgs.find? (fun x => decide (x.id = c.id)) = some c → c.lead = none → c.openTill = 0 → s.copyMsgs.filter (fun x => decide (x.entry = c.id)) = [c] →
      (s.groupOff c.key c.group = false → (∃ f ∈ (s.ctx c.tile c.ctx).fences, (f.kind = .query ∨ f.kind = .link) ∧ f.id < c.id) →
        exec (.copyCommandEnqueue c.id) s = .next s) ∧
      (s.groupOff c.key c.group = true → s.copyEnds c = false → exec (.copyCommandEnqueue c.id) s = .next s) ∧
      (s.copyStays c.id c = false →
        ∃ d, exec (.copyCommandEnqueue c.id) s = .next { s with
            copyMsgs := s.copyMsgs.filter (fun x => decide (x.entry ≠ c.id)), queues := Tbl.put s.queues c.queue (Tbl.getD s.queues c.queue [] ++ [d]) } ∧
          (c.fence = false → d = c) ∧
          (c.fence = true → d = { c with after := d.after } ∧
            ∀ n, n ∈ d.after ↔ ∃ i < 8, c.after.headD 0 / 2 ^ i % 2 = 1 ∧ ∃ x ∈ Tbl.getD s.queues (queueKey c.die c.eng i) [], x.id = n))) ∧
    (∀ (sp dp k f : Nat) (es ed : Option Xlat), s.nextQueue die eng = some q → Tbl.getD s.queues key [] = [c] → c.ended = false → s.copyOver c = none → c.done = 0 →
      c.bar = none → c.counted = 0 → c.status = 0 → f < 24 → c.shape.dims = [(k, 0, 0)] → c.widths = [containerOf f, containerOf f] → 0 < c.total → c.total ≤ 64 →
      (s.sideFmt sp c.shape.sfmt).code = f → (s.sideFmt dp c.shape.dfmt).code = f →
      (s.fmtAt c (c.shape.dst.toNat + c.total - 1) c.shape.dfmt true).code = f →
      c.formatBad (s.sideFmt sp c.shape.sfmt) (s.sideFmt dp c.shape.dfmt) sp dp = false →
      s.copyAway c c.shape.src.toNat = false → s.copyAway c c.shape.dst.toNat = false →
      isCxl sp = false → Says.lasting s dp ed → Says.reaches s c c.shape.src.toNat c.total sp false es → Says.reaches s c c.shape.dst.toNat c.total dp true ed →
      Says.reaches (s.engRead c.part es sp c.total).1 c c.shape.dst.toNat c.total dp true ed →
      MemInv s → Says.noWaitv s → Says.noPartials s → s.poisoned (sp / 64) = false → Says.there s dp →
      ∃ s', exec (.copyGranule die eng q) s = .next s' ∧ Tbl.getD s'.queues key [] = [{ c with done := c.total }] ∧
        (∀ i < c.total, s'.peek (dp + i) = s.peek (sp + i)) ∧ ∀ a, a < dp ∨ dp + c.total ≤ a → Says.aside a dp ed → isCxl a = false ∨ es = none → s'.peek a = s.peek a) ∧
    (∀ st, Tbl.getD s.queues key [] = [c] → s.copyOver c = some st → c.fence = false → c.bar = none → c.shape.cfill = false → c.host = none → s.copyHeld c = false →
      (c.cword = 0 → ∃ s', exec (.copyComplete die eng q) s = .next s' ∧ Tbl.getD s'.queues key [] = [] ∧ s'.cwords = s.cwords) ∧
      (c.cword ≠ 0 → c.cword.toNat % 16 = 0 → ∃ s' w, exec (.copyComplete die eng q) s = .next s' ∧ s'.cwords = s.cwords ++ [w] ∧ w.addr = c.cword ∧ w.val = c.cval ∧
        w.status = some st ∧ w.copy = some (key, c.id, st) ∧ w.segs = (if c.shape.space then none else some c.segs) ∧ ∀ x ∈ Tbl.getD s'.queues key [], x.ended = true)) ∧
    (∀ st g, Tbl.getD s.queues key [] = [c] → s.copyOver c = some st → c.fence = false → c.bar = none → c.shape.cfill = true → s.copyHeld c = false →
      s.roleGroup (s.copyTile c) (c.cword.toNat / 2 ^ 11 % 64) = some g →
      ∃ s' m, exec (.copyComplete die eng q) s = .next s' ∧ s'.flits = s.flits ++ [m] ∧ m.copy = some (key, c.id, st) ∧ m.f.fill = true ∧
        m.f.freg = c.cword.toNat % 32 ∧ m.f.val = c.cval ∧ m.dstGroup = g ∧ m.dstCtx = c.cword.toNat / 32 % 64 ∧ ∃ x ∈ Tbl.getD s'.queues key [], x.id = c.id) ∧
    (∀ rest, Tbl.getD s.queues key [] = c :: rest → c.fence = true → c.ended = false → c.after.all s.copyDone = true → c.bar = none → c.host = none → s.copyHeld c = false →
      (c.cword = 0 → ∃ s', exec (.qfenceRelease die eng q) s = .next s' ∧ ∀ x ∈ Tbl.getD s'.queues key [], x.id ≠ c.id) ∧
      (c.cword ≠ 0 → c.cword.toNat % 16 = 0 → ∃ s' w, exec (.qfenceRelease die eng q) s = .next s' ∧ s'.cwords = s.cwords ++ [w] ∧ w.addr = c.cword ∧ w.val = c.cval ∧
        w.status = some (if c.badField then 2 else 0) ∧ w.segs = some c.segs))

/-- R111, R127, R225, R230, R232, R414: a completion word is written, its status before it, or abandoned; a flit lands in the receive queue of the generation it names, or is
refused and sent again after 256 cycles; a fill lands in an open register; the sender of an orphan counts it.
It states that these complete: REGISTER_FILL, COMPLETION_WORD_WRITE, FLIT_ARRIVE, SEND_RETRY, ORPHAN_NOTICE. -/
def Obligations.MessagesDelivered : Prop :=
  ∀ (s : State) (t : Nat),
    (∀ (w : CWord) (pa : Nat) (e : Option Xlat), s.cwords.find? (fun x => decide (x.id = w.id)) = some w → w.abandoned = false →
      let u := s.wordTile w
      (w.segs ≠ none ∨ w.entry ≠ none → s.groupAway (w.part * 65536 + w.launch) w.group = false) →
      (∀ segs, w.segs = some segs → s.farAway u segs w.addr.toNat = false) →
      (s.engAddr w.part u w.segs w.addr.toNat 8 false true true = .ok pa e →
        (w.status = none →
          exec (.completionWordWrite w.id) s = .next ((s.engineWrite w.part e pa 8 w.val.toNat w.iter false).wordDone w) ∧
          (w.copy = none → w.entry = none → w.launchEnd = none → w.host = none → MemInv s → Says.noWaitv s → Says.noPartials s → Says.there s pa → pa % 64 ≤ 56 →
            Says.lasting s pa e →
            ∃ s', exec (.completionWordWrite w.id) s = .next s' ∧ (∀ x ∈ s'.cwords, x.id ≠ w.id) ∧
              (∀ i < 8, s'.peek (pa + i) = BitVec.ofNat 8 (w.val.toNat / 2 ^ (8 * i))) ∧ ∀ a, a < pa ∨ pa + 8 ≤ a → Says.aside a pa e → s'.peek a = s.peek a)) ∧
        (∀ st pb f, w.status = some st → s.engAddr w.part u w.segs (w.addr.toNat + 8) 8 false true true = .ok pb f →
          let s1 := s.engineWrite w.part f pb 8 st w.iter false
          s1.engAddr w.part u w.segs w.addr.toNat 8 false true true = .ok pa e →
          exec (.completionWordWrite w.id) s = .next ((s1.engineWrite w.part e pa 8 w.val.toNat w.iter false).wordDone w))) ∧
      (∀ k, w.status = none → s.engAddr w.part u w.segs w.addr.toNat 8 false true true = .fail k → exec (.completionWordWrite w.id) s =
        .next ((s.pushRec w.part { kind := 3, code := 71, launch := w.launch, group := w.group, addr := w.addr, at_ := s.CYC }).wordDone w))) ∧
    (∀ m : FlitMsg, s.flits.find? (fun x => decide (x.id = m.id)) = some m → m.copy = none → s.flitMoves m = true → s.flitTile m = some t →
      (s.ctx t m.dstCtx).gen = m.f.gen → (s.ctx t m.dstCtx).state ≠ .free → (s.ctx t m.dstCtx).state ≠ .halted →
      (m.f.fill = false → (s.ctx t m.dstCtx).rxq.length < 8 →
        ∃ s', exec (.flitArrive m.id) s = .next s' ∧ (s'.ctx t m.dstCtx).rxq = (s.ctx t m.dstCtx).rxq ++ [m.f] ∧ (∀ x ∈ s'.flits, x.id ≠ m.id) ∧
          (m.engine = false → (s'.ctx m.f.srcTile m.f.srcCtx).txPend = none) ∧ (s'.ctx t m.dstCtx).x = (s.ctx t m.dstCtx).x ∧ ∀ pa, s'.peek pa = s.peek pa) ∧
      (m.f.fill = false → 8 ≤ (s.ctx t m.dstCtx).rxq.length →
        ∃ s', exec (.flitArrive m.id) s = .next s' ∧ (s'.ctx t m.dstCtx).rxq = (s.ctx t m.dstCtx).rxq ∧ (∀ x ∈ s'.flits, x.id = m.id → x.since = some s.cyc) ∧
          ((s.ctx m.f.srcTile m.f.srcCtx).state = .slotted → (s.ctx m.f.srcTile m.f.srcCtx).park = 0 → (s.ctx m.f.srcTile m.f.srcCtx).busy = false →
            (s.ctx m.f.srcTile m.f.srcCtx).latch = none → (s'.ctx m.f.srcTile m.f.srcCtx).park = 11 ∧
            (s'.ctx m.f.srcTile m.f.srcCtx).latch = some { (s.ctx m.f.srcTile m.f.srcCtx).sentBy with sent := true }) ∧
          ∀ pa, s'.peek pa = s.peek pa) ∧
      (m.f.fill = true → ((s.ctx t m.dstCtx).reg m.f.freg).st = .open → Says.lands s t m.dstCtx m.f.freg →
        ∃ s', exec (.registerFill m.id) s = .next s' ∧
          (s'.ctx t m.dstCtx).reg m.f.freg = { val := m.f.val, st := .full, poison := m.f.poison, dirty := true } ∧
          (∀ r, r ≠ m.f.freg → (s'.ctx t m.dstCtx).reg r = (s.ctx t m.dstCtx).reg r) ∧ (∀ x ∈ s'.flits, x.id ≠ m.id) ∧ ∀ pa, s'.peek pa = s.peek pa)) ∧
    (∀ (m : FlitMsg) (key id st : Nat), s.flits.find? (fun x => decide (x.id = m.id)) = some m → m.copy = some (key, id, st) → m.f.fill = true → s.flitMoves m = true →
      s.flitTile m = some t → (s.ctx t m.dstCtx).gen = m.f.gen → (s.ctx t m.dstCtx).state ≠ .free → (s.ctx t m.dstCtx).state ≠ .halted →
      ((s.ctx t m.dstCtx).reg m.f.freg).st = .open → Says.lands s t m.dstCtx m.f.freg → (∀ y ∈ Tbl.getD s.queues key [], y.host = none) →
      ∃ s', exec (.registerFill m.id) s = .next s' ∧ (s'.ctx t m.dstCtx).reg m.f.freg = { val := m.f.val, st := .full, poison := m.f.poison, dirty := true } ∧
        ∀ y ∈ Tbl.getD s'.queues key [], y.id ≠ id) ∧
    (∀ (m : FlitMsg) (n : Nat), m ∈ s.flits → m.since = some n → n + 256 ≤ s.cyc →
      ∃ s', exec (.sendRetry m.f.srcTile m.f.srcCtx) s = .next s' ∧ { m with since := none } ∈ s'.flits ∧ ∀ pa, s'.peek pa = s.peek pa) ∧
    (∀ c l, (s.ctx t c).park = 11 → (s.ctx t c).latch = some l → isCopyWord l.insn = true → (s.ctx t c).parkedAt + 256 ≤ s.cyc →
      ∃ s', exec (.sendRetry t c) s = .next s' ∧ (s'.ctx t c).park = 0 ∧ (s'.ctx t c).latch = some l ∧ (s'.ctx t c).pc = (s.ctx t c).pc ∧
        (s'.ctx t c).x = (s.ctx t c).x) ∧
    (∀ m : FlitMsg, s.flits.find? (fun x => decide (x.id = m.id)) = some m → m.notice = true → s.groupAway m.launch m.srcGroup = false →
      (s.tq (m.launch / 65536)).en = false →
      ∃ s', exec (.orphanNotice m.id) s = .next s' ∧ (∀ x ∈ s'.flits, x.id ≠ m.id) ∧
        (s'.ctx m.f.srcTile m.f.srcCtx).orph = min ((s.ctx m.f.srcTile m.f.srcCtx).orph + 1) 0xFFFFFFFF ∧
        (s'.tq (m.launch / 65536)).lost = min ((s.tq (m.launch / 65536)).lost + 1) 0xFFFFFFFF ∧ ∀ pa, s'.peek pa = s.peek pa)

/-- R234, R239, R240, R242, R244: a row that its ring has room for is written there, header first, and the arrival word rises; one without room is answered with a drop
notice, or held, its context parked, until there is room; a drop notice or a return settles its slot; at its deadline an entry closes, its open slots timed out.
It states that these complete: ROUTE_ROW_ARRIVE, ROUTE_HANDOUT_RESUME, ROUTE_DROP_NOTICE, ROUTE_RETURN_ARRIVE, REASSEMBLY_DEADLINE. -/
def Obligations.RoutesCarry : Prop :=
  ∀ (s : State) (m : RouteMsg), s.rmsgs.find? (fun x => decide (x.id = m.id)) = some m → m.rank = none → m.id < s.nextId →
    (∀ t i, m.kind = 0 → Says.sendable s m → s.rowFate m = .lands t i → t < 4096 → MemInv s → Says.noWaitv s →
      let g := (s.tile t).rttgt.getD i {}
      let base := g.slotPa t g.tail
      let aw := spadPa t (g.aword / 2048 % 4 * 0x20000 + 64 * (g.aword % 2048))
      g.ring / 2048 % 4 < 3 → g.aword / 2048 % 4 < 3 → 1 ≤ g.cap → g.ring % 2048 + g.cap * (1 + g.wmax) ≤ 2048 → m.data.length ≤ g.wmax →
      (aw < base ∨ base + 64 * (1 + m.data.length) ≤ aw) →
      ∃ s', exec (.routeRowArrive m.id) s = .next s' ∧ (∀ k < 16, s'.peek (base + k) = BitVec.ofNat 8 (m.header / 2 ^ (8 * k))) ∧
        (∀ j d, m.data[j]? = some d → ∀ k < 64, s'.peek (base + 64 * (j + 1) + k) = BitVec.ofNat 8 (d.1.toNat / 2 ^ (8 * k))) ∧
        s'.peekN aw 8 = (s.peekN aw 8 + 1) % 2 ^ 64 ∧ ((s'.tile t).rttgt.getD i {}).tail = (g.tail + 1) % 2 ^ 32 ∧ (∀ x ∈ s'.rmsgs, x.id ≠ m.id) ∧
        ∀ a, (a < base ∨ base + 64 * (1 + m.data.length) ≤ a) → (a < aw ∨ aw + 8 ≤ a) → s'.peek a = s.peek a) ∧
    (∀ t slot l, m.kind = 0 → Says.sendable s m → s.rowFate m = .refused t slot → s.launchOf t = some l → m.orank = 0xFFFF →
      ∃ s' n, exec (.routeRowArrive m.id) s = .next s' ∧ n ∈ s'.rmsgs ∧ n.kind = 2 ∧ n.rs = m.rs ∧ n.entry = m.entry ∧ n.gen = m.gen ∧ n.dgroup = m.group ∧
        n.dkey = l.part * 65536 + m.launch ∧ n.rank = none ∧ (∀ x ∈ s'.rmsgs, x.id ≠ m.id) ∧
        (∀ i, slot = some i → i < 8 → ((s'.tile t).rttgt.getD i {}).drops = min (((s.tile t).rttgt.getD i {}).drops + 1) 0xFFFFFFFF) ∧
        ∀ pa, s'.peek pa = s.peek pa) ∧
    (∀ l, m.kind = 0 → Says.sendable s m → s.rowFate m = .unbound l → m.orank = 0xFFFF →
      ∃ s' n, exec (.routeRowArrive m.id) s = .next s' ∧ n ∈ s'.rmsgs ∧ n.kind = 2 ∧ n.rs = m.rs ∧ n.entry = m.entry ∧ n.gen = m.gen ∧ n.dgroup = m.group ∧
        n.dkey = l.part * 65536 + m.launch ∧ n.rank = none ∧ (∀ x ∈ s'.rmsgs, x.id ≠ m.id) ∧ ∀ pa, s'.peek pa = s.peek pa) ∧
    (∀ o u l, s.originTile m = some o → (s.tile o).route = some u → u.waiting = some m.id → (s.ctx o u.ctx).latch = some l → l.pc = u.pc →
      (m.kind = 0 → s.rowFate m = .held → u.held = false →
        ∃ s', exec (.routeRowArrive m.id) s = .next s' ∧ (s'.ctx o u.ctx).park = 12 ∧ (s'.tile o).route = some { u with held := true } ∧
          (s'.ctx o u.ctx).x = (s.ctx o u.ctx).x ∧ ∀ pa, s'.peek pa = s.peek pa) ∧
      (s.rowFate m ≠ .held → u.held = true → (s.ctx o u.ctx).park = 12 →
        ∃ s', exec (.routeHandoutResume o) s = .next s' ∧ (s'.ctx o u.ctx).park = 0 ∧ (s'.ctx o u.ctx).busy = true ∧
          (s'.tile o).route = some { u with held := false } ∧ (s'.ctx o u.ctx).x = (s.ctx o u.ctx).x ∧ ∀ pa, s'.peek pa = s.peek pa)) ∧
    (∀ l t i, Says.homeOf s m.dkey m.dgroup l t → m.entry < 16 → m.rs < 64 → Says.accepting (s.entry t m.entry) m i →
      (∀ d, (s.entry t m.entry).due = some d → s.cyc < d) → s.noticeWaits m = false →
      (s.ctx t (s.entry t m.entry).owner).state ≠ .cached →
      (m.kind = 2 → ∃ s', exec (.routeDropNotice m.id) s = .next s' ∧ (s'.entry t m.entry).drop / 2 ^ i % 2 = 1 ∧ (s'.entry t m.entry).sent / 2 ^ i % 2 = 1 ∧
        (s'.entry t m.entry).gen = m.gen ∧ (∀ x ∈ s'.rmsgs, x.id ≠ m.id) ∧ ∀ k, (s'.ctx t k).x = (s.ctx t k).x) ∧
      (∀ s1, m.kind = 1 →
        Says.rowPut { s with rmsgs := s.rmsgs.filter fun x => decide (x.id ≠ m.id) } t (s.entry t m.entry)
          ((s.entry t m.entry).word (1 + m.rs / 16) + 64 * (s.entry t m.entry).wvec * (m.rs % 16)) (m.data.take (s.entry t m.entry).wvec) = some s1 →
        ∃ s', exec (.routeReturnArrive m.id) s = .next s' ∧ (s'.entry t m.entry).ret / 2 ^ i % 2 = 1 ∧ (s'.entry t m.entry).gen = m.gen ∧
          (∀ x ∈ s'.rmsgs, x.id ≠ m.id) ∧ ∀ k, (s'.ctx t k).x = (s1.ctx t k).x)) ∧
    (∀ t n d, n < 16 → (s.entry t n).due = some d → d ≤ s.cyc → (s.entry t n).closing = false → (s.tile t).quiet = false →
      ((s.entry t n).state = 1 → ∃ s', exec (.reassemblyDeadline t n) s = .next s' ∧ (s'.entry t n).state = 4 ∧ (s'.entry t n).expect = 0 ∧
        (s'.entry t n).due = none ∧ (∀ k, s'.ctx t k = s.ctx t k) ∧ ∀ pa, s'.peek pa = s.peek pa) ∧
      ((s.entry t n).state = 2 ∨ (s.entry t n).state = 3 → ∃ s', exec (.reassemblyDeadline t n) s = .next s' ∧ (s'.entry t n).due = none ∧
        (∀ i < 64, (s.entry t n).expect / 2 ^ i % 2 = 1 → (s.entry t n).ret / 2 ^ i % 2 = 0 → (s.entry t n).drop / 2 ^ i % 2 = 0 →
          (s'.entry t n).tout / 2 ^ i % 2 = 1) ∧
        ((s.entry t n).word 6 = 0 → (s'.entry t n).state = 4) ∧ ∀ k, (s'.ctx t k).x = (s.ctx t k).x))

/-- R248 to R253: a posted CSEND sends its chunk to its peer as a contribution and waits for its acknowledgement; a CRECV whose contribution has arrived writes the chunk,
counts its arrival and completes; a contribution is written in its receive region, recorded once and acknowledged, or is to be tried again while its group is away or the
arrived set is full; an acknowledgement ends a chunk, a failure the step, with STATE 2 in the block and COLLECTIVE pending for the cuff.
It states that these complete: COLLECTIVE_STEP_START, COLLECTIVE_CONTRIBUTION, COLLECTIVE_SEND_ACK. -/
def Obligations.CollectivesRun : Prop :=
  ∀ (s : State),
    (∀ (x : CollStep) (l : Launch) (t c : Nat), s.steps.find? (fun y => decide (y.id = x.id)) = some x → Tbl.find? s.launches x.launch = some l → l.st = .running →
      s.tileHere x.launch x.group = some t → x.failed = false → s.waitsFor l.part .collective x.id = false → s.fencesBefore t 15 x.id = false → x.todo = [c] → s.chunkWaits x c = false →
      let va := x.lbuf.toNat + c * x.chunk
      let ca := x.arr.toNat + 8 * c
      (∀ s1 v poison, x.kind = 1 → s.segRead l.part t (some x.segs) 300 va x.chunk = .ok s1 v poison →
        ∃ s' m q, exec (.collectiveStepStart x.id) s = .next s' ∧ s'.tx = s1.tx ++ [m] ∧ m.contrib = some q ∧ m.dst = (nth l.ranks x.peerA {}).addr ∧
          m.carries = .chunk x.id c ∧ q.cid = x.cid ∧ q.step = x.num ∧ q.chunk = c ∧ q.src = l.r.myrank ∧ q.expect = x.expect ∧ q.op = x.op ∧ q.fmt = x.fmt ∧
          q.poisoned = poison ∧ q.data = (List.range x.chunk).map (fun k => BitVec.ofNat 8 (v / 2 ^ (8 * k))) ∧
          (∃ y ∈ s'.steps, y.id = x.id ∧ y.todo = [] ∧ c ∈ y.acks) ∧ ∀ pa, s'.peek pa = s1.peek pa) ∧
      (∀ q s1 s2 s3 z1 z2 z3 z4 n, x.kind = 2 → x.red = false → x.acks = [] → x.expect = 1 → s.contribs x c = [q] → q.combined = false → q.expect = 1 →
        q.poisoned = false → q.data.length = x.chunk →
        s.segWrite l.part t (some x.segs) x.iter false 300 va x.chunk (bytesNum (q.data.map (·.toNat))) = .ok s1 z1 z2 →
        s1.segRead l.part t (some x.segs) 3 ca 8 = .ok s2 n false → s2.segWrite l.part t (some x.segs) x.iter false 3 ca 8 (n + 1) = .ok s3 z3 z4 →
        ∃ s', exec (.collectiveStepStart x.id) s = .next s' ∧ (∀ y ∈ s'.steps, y.id ≠ x.id) ∧
          (∀ a ∈ s'.arrived, ¬(a.part * 65536 + a.launch = x.launch ∧ a.cid = x.cid ∧ a.step = x.num)) ∧ ∀ pa, s'.peek pa = s3.peek pa)) ∧
    (∀ (c : Contribution) (s1 : State) (e : KeyEntry), Says.checked s c s1 e →
      let q := Says.addressed s c
      (s1.contribFor q (Says.named e) = none → exec (.collectiveContribution c) s = .next (s1.answerContribution q .ack)) ∧
      (∀ k g, s1.contribFor q (Says.named e) = some (k, g) → s1.groupMoves k g = true →
        exec (.collectiveContribution c) s = .next (s1.answerContribution q .nakRetry)) ∧
      (∀ k g, s1.contribFor q (Says.named e) = some (k, g) → s1.groupMoves k g = false →
        ((∃ r ∈ srcsOf c, r ∈ Says.had s1 k c) → exec (.collectiveContribution c) s = .next (s1.answerContribution q .ack)) ∧
        ((∀ r ∈ srcsOf c, r ∉ Says.had s1 k c) → Says.expects s1 k c ((Says.had s1 k c).length + (srcsOf c).length) →
          (65536 < (ranksIn s1.arrived).length + (srcsOf c).length → exec (.collectiveContribution c) s = .next (s1.answerContribution q .nakRetry)) ∧
          ((ranksIn s1.arrived).length + (srcsOf c).length ≤ 65536 →
            ∀ ps, s1.ethAddr q.part (s1.keyTarget q.part e c.off c.data.length) c.data.length true = .ok ps →
            let s2 := s1.ethWrite q.part ps c.data c.poisoned
            exec (.collectiveContribution c) s =
              .next (State.answerContribution { s2 with arrived := s2.arrived ++ [{ q with part := k / 65536, launch := k % 65536 }] } q .ack))))) ∧
    (∀ (c : Contribution) (k : AckKind), Says.sends s (s.answerContribution c k) c.ep c.sender
      { dst := c.sender, answer := some k, contrib := some { c with data := [] }, pdc := c.src }) ∧
    (∀ (x : CollStep) (m : TxMsg) (c t : Nat), s.steps.find? (fun y => decide (y.id = x.id)) = some x → m ∈ s.tx → m.sent = true → m.carries = .chunk x.id c → c ∈ x.acks →
      (x.todo = [] → x.acks = [c] → ∃ s', exec (.collectiveSendAck x.id c true) s = .next s' ∧ (∀ y ∈ s'.steps, y.id ≠ x.id) ∧
        (∀ y ∈ s'.tx, y.carries ≠ .chunk x.id c) ∧ ∀ pa, s'.peek pa = s.peek pa) ∧
      (x.todo ≠ [] ∨ (∃ k ∈ x.acks, k ≠ c) → ∃ s', exec (.collectiveSendAck x.id c true) s = .next s' ∧
        { x with acks := x.acks.filter (· ≠ c) } ∈ s'.steps ∧ (∀ y ∈ s'.tx, y.carries ≠ .chunk x.id c) ∧ ∀ pa, s'.peek pa = s.peek pa) ∧
      (s.tileHere x.launch x.group = some t → t < 4096 → 64 * x.blk + 64 ≤ 393216 → MemInv s → Says.noWaitv s → (s.ctx t 15).state = .slotted →
        (s.ctx t 15).deferred = none →
        ∃ s', exec (.collectiveSendAck x.id c false) s = .next s' ∧ (∀ y ∈ s'.steps, y.id ≠ x.id) ∧ Says.block s' t x.blk 0x39 1 = 2 ∧
          (s'.ctx t 15).deferred = some { cause := 28, pc := x.pc, insn := x.insn } ∧
          ∀ a, a ≠ spadPa t (64 * x.blk + 0x39) → s'.peek a = s.peek a))

/-! ## Boot, power, ports and the host (R11 to R103, R118 to R124, R256 to R266) -/

/-- R24 to R31: from reset of the part on, each stage of boot leads to the phase that its checks call for: the ROM reads the header, then verifies the slot's image; the firmware applies the
configuration and trains the links; recovery fills a buffer in every phase but 5, starts from phase 4, verifies, and may write the slot. In phase 3 the responder answers every request of the table, signing with the alias key what
the spec says it signs, and refuses what it does not support. The layout of a message is the model's presumption (log 21); digests, signatures and the certificate chain are free values (log 5).
It states that these complete: PF_RESET, BOOT_VERIFY_DONE, FIRMWARE_BRINGUP_DONE, RECOVERY_BUFFER_WRITE, RECOVERY_GO, RECOVERY_VERIFY_DONE, SLOT_WRITE_DONE, SPDM_GET_VERSION, SPDM_GET_CAPABILITIES, SPDM_NEGOTIATE_ALGORITHMS, SPDM_GET_DIGESTS, SPDM_GET_CERTIFICATE, SPDM_CHALLENGE, SPDM_GET_MEASUREMENTS, SPDM_UNSUPPORTED_REQUEST. -/
def Obligations.BootAndAttestation : Prop :=
  (∀ s : State,
    (∃ t, exec .pfReset s = .next t ∧ t.boot.slot = s.boot.slot ∧ t.mem = s.mem ∧ t.tiles = [] ∧ t.launches = [] ∧ t.feats = 0 ∧
      (imgField s.boot.slot 0 4 = 0x4A564657 ∧ imgField s.boot.slot 4 4 = 1 → t.boot.phase = 1 ∧ t.boot.fail = 0) ∧
      (imgField s.boot.slot 0 4 ≠ 0x4A564657 ∨ imgField s.boot.slot 4 4 ≠ 1 → t.boot.phase = 4 ∧ t.boot.fail = 1)) ∧
    (s.boot.phase = 1 →
      exec .bootVerifyDone s = .next (if verifyFail s.boot.slot 0x1000000 = 0 then
          Says.phased s { s.boot with image := s.boot.slot, secVer := imgField s.boot.slot 0xC 2 } 2
        else Says.phased s { s.boot with fail := verifyFail s.boot.slot 0x1000000 } 4)) ∧
    (∀ ok : Bool, s.boot.phase = 2 →
      exec (.firmwareBringupDone ok) s = .next (if configOk s.boot.image = false then Says.phased s { s.boot with fail := 4 } 4
        else if ok = false then Says.phased s { s.boot with fail := 5 } 6
        else Says.phased s { s.boot with
          tileHarv := cfgField s.boot.image 0x48 512, sliceHarv := cfgField s.boot.image 0x248 64, retireCe := cfgField s.boot.image 0x294 2
          ethLanes := (List.range 8).map fun i => cfgField s.boot.image (0x288 + i) 1
          storBif := (List.range 4).map fun i => cfgField s.boot.image (0x290 + i) 1, offer := cfgField s.boot.image 0x298 32 &&& implemented } 3)) ∧
    (∀ (off : Nat) (data : List Byte), s.boot.phase ≠ 5 → ∃ rcv, exec (.recoveryBufferWrite off data) s = .next { s with boot := { s.boot with rcv := rcv } } ∧
      (∀ i < data.length, off + i < 0x1000000 → Tbl.getD rcv (off + i) 0 = data.getD i 0) ∧
      ∀ a, a < off ∨ off + data.length ≤ a → Tbl.getD rcv a 0 = Tbl.getD s.boot.rcv a 0) ∧
    (∀ v : Word, exec (.recoveryGo v) s = .next (if s.boot.phase = 4 ∧ v.toNat % 2 = 1 then
        Says.phased s { s.boot with rcvLen := v.toNat / 2 ^ 32, commit := decide (v.toNat / 2 % 2 = 1) } 5
      else { s with boot := { s.boot with rcvLen := v.toNat / 2 ^ 32 } })) ∧
    (s.boot.phase = 5 →
      exec .recoveryVerifyDone s = .next (if headerFail s.boot.rcv ≠ 0 then Says.phased s { s.boot with fail := 1 } 4
        else if verifyFail s.boot.rcv s.boot.rcvLen ≠ 0 then Says.phased s { s.boot with fail := verifyFail s.boot.rcv s.boot.rcvLen } 4
        else Says.phased s { s.boot with writing := s.boot.commit, image := s.boot.rcv, secVer := imgField s.boot.rcv 0xC 2 } 2)) ∧
    (∀ ok : Bool, s.boot.writing = true →
      exec (.slotWriteDone ok) s = .next { s with boot := if ok then { s.boot with writing := false, slot := s.boot.image }
                                                          else { s.boot with writing := false, slot := [], fail := 6 } })) ∧
  (∀ s : State, s.boot.phase = 3 →
    let b := s.boot
    let s1 := { s with uses := s.uses + 1 }
    let key := Config.aliasKey (imgDigest b.image)
    let certs := Config.romKey 3 ++ Config.certBody key ++ Config.ed448Sign (Config.romKey 2) (Config.certBody key)
    let chain := natBytes (68 + certs.length) 2 ++ [0, 0] ++ Config.sha3 (Config.romKey 3) ++ certs
    let nonce := natBytes (Config.nonce s.uses).toNat 32
    let sign := fun (context : String) (m : List Byte) => Config.ed448Sign key (spdmPrefix context ++ Config.sha3 m)
    let records := Says.measBlock s 1 ++ (Says.measBlock s 2 ++ (Says.measBlock s 3 ++ (Says.measBlock s 4 ++ [])))
    let version := [0x10, 0x04, 0, 0, 0, 1, 0, 0x13]
    exec .spdmGetVersion s = .next (Says.answered s { b with transcript := [0x10, 0x84, 0, 0] ++ version, certs := [], meas := [] } version) ∧
    (let body := natBytes (Config.requester s.uses).toNat 16
      let m := [0x13, 0x61, 0, 0] ++ natBytes (256 * Config.spdmSize 0) 2 ++ [0, 0] ++ [0x16, 0, 0, 0] ++
        natBytes (Config.spdmSize 1) 4 ++ natBytes (Config.spdmSize 2) 4
      exec .spdmGetCapabilities s = .next (Says.answered s1 { b with transcript := b.transcript ++ ([0x13, 0xE1, 0, 0] ++ body ++ m), meas := [] } m)) ∧
    (∀ (k : Nat) (body : List Byte),
      let meas := spdmField body 2 1 % 2
      let m := [0x13, 0x63, 0, 0] ++ [36, 0] ++ natBytes meas 1 ++ [0] ++ natBytes meas 4 ++ [0, 8, 0, 0] ++ [0x20, 0, 0, 0] ++ natBytes 0 16
      let offered := spdmField body 4 4 / 2 ^ 11 % 2 = 1 ∧ spdmField body 8 4 / 2 ^ 5 % 2 = 1
      (offered → exec (.spdmNegotiateAlgorithms k body) s =
        .next (Says.answered s { b with transcript := b.transcript ++ ([0x13, 0xE3, BitVec.ofNat 8 k, 0] ++ body ++ m), meas := [] } m)) ∧
      (¬offered → exec (.spdmNegotiateAlgorithms k body) s = .next (Says.turnedAway s 1 0))) ∧
    exec .spdmGetDigests s = .next (Says.answered s { b with certs := [0x13, 0x81, 0, 0] ++ ([0x13, 0x01, 1, 1] ++ Config.sha3 chain), meas := [] }
      ([0x13, 0x01, 1, 1] ++ Config.sha3 chain)) ∧
    (∀ slot off len, let part := (chain.drop off).take len
      let m := [0x13, 0x02, 0, 0] ++ natBytes part.length 2 ++ natBytes (chain.length - off - part.length) 2 ++ part
      exec (.spdmGetCertificate slot off len) s = .next (if slot ≠ 0 ∨ chain.length ≤ off then Says.turnedAway s 1 0
        else Says.answered s { b with certs := b.certs ++ [0x13, 0x82, 0, 0] ++ natBytes off 2 ++ natBytes len 2 ++ m, meas := [] } m)) ∧
    (∀ (slot sum : Nat) (body : List Byte),
      let m := [0x13, 0x03, 0, 1] ++ Config.sha3 chain ++ nonce ++ (if sum = 0 then [] else Config.sha3 records) ++ [0, 0] ++ spdmPart body 32 8
      (slot = 0 → sum = 0 ∨ sum = 1 ∨ sum = 0xFF → exec (.spdmChallenge slot ⟨sum, body⟩) s = .next (Says.answered s1 { b with certs := [], meas := [] }
        (m ++ sign "responder-challenge_auth signing" (b.transcript ++ b.certs ++ [0x13, 0x83, 0, BitVec.ofNat 8 sum] ++ body ++ m)))) ∧
      (slot ≠ 0 ∨ (sum ≠ 0 ∧ sum ≠ 1 ∧ sum ≠ 0xFF) → exec (.spdmChallenge slot ⟨sum, body⟩) s = .next (Says.turnedAway s 1 0))) ∧
    (∀ (attr k n : Nat) (rs body : List Byte),
      let m := [0x13, 0x60, if k = 0 then 4 else 0, 0] ++ natBytes n 1 ++ natBytes rs.length 3 ++ rs ++ nonce ++ [0, 0] ++
        spdmPart body (if attr % 2 = 1 then 33 else 0) 8
      let l := b.meas ++ [0x13, 0xE0, BitVec.ofNat 8 attr, BitVec.ofNat 8 k] ++ body ++ m
      ((k = 0 ∧ n = 0 ∧ rs = []) ∨ (1 ≤ k ∧ k ≤ 4 ∧ n = 1 ∧ rs = Says.measBlock s k ++ []) ∨ (k = 0xFF ∧ n = 4 ∧ rs = records) →
        (attr % 2 = 1 → spdmField body 32 1 % 16 = 0 → exec (.spdmGetMeasurements ⟨attr, k, body⟩) s =
          .next (Says.answered s1 { b with meas := [] } (m ++ sign "responder-measurements signing" (b.transcript ++ l)))) ∧
        (attr % 2 = 0 → exec (.spdmGetMeasurements ⟨attr, k, body⟩) s = .next (Says.answered s1 { b with meas := l } m))) ∧
      ((4 < k ∧ k ≠ 0xFF) ∨ (attr % 2 = 1 ∧ spdmField body 32 1 % 16 ≠ 0) → exec (.spdmGetMeasurements ⟨attr, k, body⟩) s = .next (Says.turnedAway s 1 0))) ∧
    (∀ code, exec (.spdmUnsupportedRequest code) s = .next (Says.turnedAway s 7 (BitVec.ofNat 8 code))))

/-- R18, R20, R21, R22: a window of the power manager leads to the clock setting of the first row that applies, 115 °C to shutdown and 105 °C to 0.7 GHz, from
which ten cool windows return; a clock change ends at its setting; a cluster is gated and ungated by its requests. The power of a window is no ground to leave 0.7
GHz (log 14).
It states that these complete: POWER_WINDOW, THERMAL_RECOVERY, CLOCK_CHANGE_COMPLETE, CLUSTER_POWER_GATE, CLUSTER_UNGATE, CLUSTER_GATE_COMPLETE. -/
def Obligations.PowerManaged : Prop :=
  ∀ s : State,
    (∀ tj watts, s.power.shut = false →
      (tj < 105 → exec (.powerWindow tj watts) s =
        .next { s with power := { Says.windowed s.power tj watts with target := Says.setting s.power watts } }) ∧
      (105 ≤ tj → tj < 115 → ∃ t, exec (.powerWindow tj watts) s = .next t ∧ t.power = { Says.windowed s.power tj watts with target := 2, thermEv := true }) ∧
      (105 ≤ tj → tj < 115 → (∀ p < 64, (s.part p).enabled = false) → exec (.powerWindow tj watts) s =
        .next { s with power := { Says.windowed s.power tj watts with target := 2, thermEv := true }, msix := s.msix ++ if s.power.thermEv then [] else [(0, 1)] }) ∧
      (115 ≤ tj → (∀ p < 64, (s.part p).enabled = false) → exec (.powerWindow tj watts) s =
        .next { s with power := { Says.windowed s.power tj watts with shut := true } }) ∧
      (115 ≤ tj → ∃ t, exec (.powerWindow tj watts) s = .next t ∧ t.power = { Says.windowed s.power tj watts with shut := true })) ∧
    (s.power.target = 2 → 10 ≤ s.power.coolWin → exec .thermalRecovery s = .next { s with power := { s.power with coolWin := 0, target := 0 } }) ∧
    exec .clockChangeComplete s = .next { s with power := { s.power with clk := s.power.target } } ∧
    (∀ n, n < 512 → s.gate = none → bit s.boot.sliceHarv n = false →
      (bit s.gated n = false → s.vaultMapped n = false →
        exec (.clusterPowerGate (BitVec.ofNat 64 (2 ^ 63 + 2 ^ 62 + n))) s = .next (State.setPf { s with gate := some (n, true) } 0xA608 1)) ∧
      (bit s.gated n = false → s.vaultMapped n = true →
        exec (.clusterPowerGate (BitVec.ofNat 64 (2 ^ 63 + 2 ^ 62 + n))) s = .next (s.setPf 0xA608 2)) ∧
      (bit s.gated n = true → exec (.clusterUngate (BitVec.ofNat 64 (2 ^ 63 + n))) s = .next (State.setPf { s with gate := some (n, false) } 0xA608 1))) ∧
    (∀ n, s.gate = some (n, false) → bit s.gated n = true →
      exec .clusterGateComplete s = .next (State.setPf { s with gate := none, gated := s.gated - 2 ^ n } 0xA608 0)) ∧
    (∀ n, s.gate = some (n, true) → s.clusterUsed n = false → s.clusterCounts n = false →
      ∃ t, exec .clusterGateComplete s = .next t ∧ t.gate = none ∧
        if s.vaultMapped n then t.gated = s.gated ∧ t.pfr 0xA608 = 2 else bit t.gated n = true ∧ t.pfr 0xA608 = 0)

/-- R55, R58, R61, R62: a sound MRT entry is enabled and an unsound one refused; disabling makes it busy and then off, its lines in no L1 cache; the ranges of a CXL link that goes down are
OFFLINE. A driver queue takes entries of the command set and discards what it cannot take; a completion enters its ring; the namespace table takes an entry while its VALID is clear. R171 to R173, R183, R202, R264, R266: a TSET
range that loses no set takes effect at once, any other after its lines have been written back; a slice counts its correctable errors, and its record is cleared while no partition holds it; a commutative range register holds what is
written; a stamp-set request sets the stamps of its lines and ends; an uncorrectable error poisons its line; a header error halts the partition that its packet names.
It states that these complete: MRT_ENABLE, MRT_DISABLE, MRT_DISABLE_COMPLETE, CXL_LINK_DOWN, DRIVER_QUEUE_SUBMIT, DRIVER_QUEUE_COMPLETION, DQ_CTL_WRITE, DQ_CLEAR_DISCARDS, DQ_CQ_HEAD_WRITE, NAMESPACE_ENTRY_WRITE, STAMP_SET_REQUEST, TSET_WRITE, TSET_RANGE_SWITCH, CORRECTABLE_ERROR, SLICE_STAT_CLEAR, COMMUTATIVE_RANGE_WRITE, UNCORRECTABLE_ERROR, NOC_HEADER_ERROR, STAMP_SET_COMPLETE. -/
def Obligations.PortsAndSlicesManaged : Prop :=
  (∀ s : State,
    (∀ e < 64, s.mrtOn e = false →
      exec (.mrtEnable e) s = .next (if s.mrtGood e then s.setMrt e true false false ((s.mrtPorts e).any (bit s.cxlDown))
        else s.setMrt e false false true (s.mrtOffline e))) ∧
    (∀ e < 64, bit (s.pfr (0x4018 + 32 * e)).toNat 0 = true → exec (.mrtDisable e) s = .next (s.setMrt e false true false (s.mrtOffline e))) ∧
    (∀ e < 64, bit (s.pfr (0x4018 + 32 * e)).toNat 1 = true → ∃ t, exec (.mrtDisableComplete e) s = .next t ∧ t.mrtOn e = false ∧
      ∀ k l, s.mrtBase e ≤ 64 * l → 64 * l < s.mrtBase e + s.mrtSize e → Tbl.find? (t.tile k).l1 l = none) ∧
    (∀ p < 8, bit s.cxlDown p = false → ∃ t, exec (.cxlLinkDown p) s = .next t ∧ t.cxlDown = s.cxlDown + 2 ^ p ∧
      (∀ k < 64, s.mrtOn k = true → p ∈ s.mrtPorts k → t.mrtOffline k = true) ∧ ∀ k l, t.offline (64 * l) = true → Tbl.find? (t.tile k).l1 l = none) ∧
    (∀ (ssd q : Nat) (al : Bool) (data : List Byte),
      ((s.dq ssd q).en = false ∨ al = false ∨ data.length ≠ 64 ∨ 1024 ≤ (s.dq ssd q).subs.length → exec (.driverQueueSubmit ssd q al data) s =
        .next (s.updDq ssd q fun d => { d with discards := sat16 d.discards })) ∧
      ((s.dq ssd q).en = true → al = true → data.length = 64 → (s.dq ssd q).subs.length < 1024 →
        ((data.getD 0 0).toNat ∈ [0, 1, 2, 9] → exec (.driverQueueSubmit ssd q al data) s =
          .next (s.updDq ssd q fun d => { d with subs := d.subs ++ [toVec (bytesNum (data.map (·.toNat)))] })) ∧
        ((data.getD 0 0).toNat ∉ [0, 1, 2, 9] → (s.dq ssd q).off = false → Says.obeyed (s.dq ssd q) → Says.roomy s ssd q →
          ∃ t, exec (.driverQueueSubmit ssd q al data) s = .next t ∧ t.dq ssd q = Says.ringStep (s.dq ssd q) (s.dq ssd q).subs))) ∧
    (∀ (ssd q idx status : Nat) (data : List Host.Cell) (e : Vec), s.ssdThere ssd = true → (s.dq ssd q).subs[idx]? = some e → (s.dq ssd q).off = false →
      Says.obeyed (s.dq ssd q) → Says.roomy s ssd q → status ≠ 0 →
      ∃ t, exec (.driverQueueCompletion ssd q idx status data) s = .next t ∧ t.dq ssd q = Says.ringStep (s.dq ssd q) ((s.dq ssd q).subs.eraseIdx idx)) ∧
    (∀ (ssd q : Nat) (v : Word), (s.dq ssd q).comps = [] → Says.obeyed (s.dq ssd q) → v.toNat % 2 = 1 → exec (.dqCtlWrite ssd q v) s =
      .next (s.updDq ssd q fun d => { d with irq := decide (v.toNat / 2 % 2 = 1), discards := if v.toNat / 4 % 2 = 1 then 0 else d.discards, en := true, off := false })) ∧
    (∀ ssd q : Nat, exec (.dqClearDiscards ssd q) s = .next (s.updDq ssd q fun d => { d with discards := 0 })) ∧
    (∀ (ssd q : Nat) (v : Word), (s.dq ssd q).comps = [] → (s.dq ssd q).off = false → Says.obeyed (s.dq ssd q) →
      exec (.dqCqHeadWrite ssd q v) s = .next ((s.setPf (dqOff ssd q + 0x48) (BitVec.ofNat 64 (v.toNat % 1024))).updDq ssd q id)) ∧
    (∀ (k : Nat) (v : BitVec 128),
      (bit (s.pfr (0x5000 + 16 * k)).toNat 0 = false → ∃ t, exec (.namespaceEntryWrite k v) s = .next t ∧ t.nsEnt k = v.toNat / 2 ^ 18 * 2 ^ 18 + v.toNat % 2 ∧
        t.mem = s.mem) ∧
      (bit (s.pfr (0x5000 + 16 * k)).toNat 0 = true → ∃ t, exec (.namespaceEntryWrite k v) s = .next t ∧ t.nsEnt k = s.nsEnt k - 1 + v.toNat % 2 ∧ t.mem = s.mem))) ∧
  (∀ s : State,
    (∀ (p m : Nat) (v : Word), bit (s.pfr (0x24000 + 128 * p + 8 * m)).toNat 31 = false →
      (bit (s.pfr (0x24000 + 128 * p + 8 * m)).toNat 8 = false →
        exec (.tsetWrite p m v) s = .next (s.setPf (0x24000 + 128 * p + 8 * m) (BitVec.ofNat 64 (tsetMask v.toNat)))) ∧
      (bit (s.pfr (0x24000 + 128 * p + 8 * m)).toNat 8 = true → bit v.toNat 8 = false →
        ∃ t, exec (.tsetWrite p m v) s = .next t ∧ t.tset = s.tset ++ [(p, m, BitVec.ofNat 64 (tsetMask v.toNat))] ∧
          t.pfr (0x24000 + 128 * p + 8 * m) = BitVec.ofNat 64 ((s.pfr (0x24000 + 128 * p + 8 * m)).toNat + 2 ^ 31))) ∧
    (∀ (p m : Nat) (v : Word), s.tset.find? (fun (x : Nat × Nat × Word) => decide (x.1 = p) && decide (x.2.1 = m)) = some (p, m, v) →
      ∃ t, exec (.tsetRangeSwitch p m) s = .next t ∧ t.pfr (0x24000 + 128 * p + 8 * m) = v ∧ ∀ x ∈ t.tset, ¬(x.1 = p ∧ x.2.1 = m)) ∧
    (∀ n, min ((s.slice n).count + 1) 0xFFFF ≠ s.boot.retireCe →
      exec (.correctableError n) s = .next (s.updSlice n fun x => { x with count := min (x.count + 1) 0xFFFF })) ∧
    (∀ n, min ((s.slice n).count + 1) 0xFFFF = s.boot.retireCe → s.activeHolder n = none → ∃ t, exec (.correctableError n) s = .next t ∧ (t.slice n).ret = true) ∧
    (∀ n p, min ((s.slice n).count + 1) 0xFFFF = s.boot.retireCe → s.activeHolder n = some p → (s.slice n).ret = false → (s.part p).members = [n] →
      ∃ t, exec (.correctableError n) s = .next t ∧ (t.slice n).ret = false ∧ (t.slice n).last = true ∧ t.parts = s.parts) ∧
    (∀ n, s.activeHolder n = none → exec (.sliceStatClear n) s = .next { s with slices := Tbl.erase s.slices n }) ∧
    (∀ (p k : Nat) (v : BitVec 128), s.feature 1 = true → ∃ t, exec (.commutativeRangeWrite p k v) s = .next t ∧
      t.pfr (0x20000 + 256 * p + 16 * k) = BitVec.ofNat 64 (v.toNat / 2 ^ 6 % 2 ^ 46 * 64 + v.toNat / 4 % 16 * 4 + v.toNat % 2) ∧
      t.pfr (0x20008 + 256 * p + 16 * k) = BitVec.ofNat 64 (v.toNat / 2 ^ 70 % 2 ^ 46 * 64)) ∧
    (∀ (v : Word) (p l n : Nat), s.stset = false → v.toNat / 2 ^ 63 = 1 → v.toNat / 2 ^ 49 % 2 ^ 14 = 0 → s.pfr 0xB800 = BitVec.ofNat 64 (64 * l) →
      64 * l < 0x100000000 → n = v.toNat / 2 ^ 32 % 2 ^ 17 + 1 → (s.holder (l / 0x20000)) = some p → 64 * l % 0x800000 + 64 * n ≤ s.vault p * 0x200000 →
      ∃ t, exec (.stampSetRequest v) s = .next t ∧ t.stset = true ∧ t.pfr 0xB810 = 1 ∧ (∀ pa, t.peek pa = s.peek pa) ∧
        (∀ k, l ≤ k → k < l + n → Tbl.getD t.mem.stamps k 0 = BitVec.ofNat 32 v.toNat) ∧
        (∀ k, k < l ∨ l + n ≤ k → Tbl.getD t.mem.stamps k 0 = Tbl.getD s.mem.stamps k 0)) ∧
    (s.stset = true → exec .stampSetComplete s = .next (State.setPf { s with stset := false } 0xB810 0)) ∧
    (∀ l, l < 2 ^ 46 → s.memKey (64 * l) ≠ none → ∃ t, exec (.uncorrectableError (.line l)) s = .next t ∧ t.poisoned l = true ∧ t.tiles = s.tiles ∧
      (∀ k, s.memKey (64 * k) ≠ s.memKey (64 * l) → t.poisoned k = s.poisoned k) ∧ ∀ pa, t.peek pa = s.peek pa) ∧
    (∀ k n l, Tbl.find? (s.tile k).l1 n = some l → ∃ t, exec (.uncorrectableError (.l1 k n)) s = .next t ∧ Tbl.find? (t.tile k).l1 n = some { l with poison := true } ∧
      t.mem = s.mem ∧ (∀ m, m ≠ n → Tbl.find? (t.tile k).l1 m = Tbl.find? (s.tile k).l1 m) ∧ ∀ j, j ≠ k → t.tile j = s.tile j) ∧
    (∀ id, exec (.uncorrectableError (.flit id)) s =
      .next { s with flits := s.flits.map fun m => if m.id = id then { m with f := { m.f with poison := true } } else m }) ∧
    (∀ r id named, (∀ q < 64, (s.part q).enabled = false) → exec (.nocHeaderError r ⟨named, .flit id⟩) s = .next { s with flits := s.flits.filter fun m => decide (m.id ≠ id) }) ∧
    (∀ r p lost, (∀ q < 64, ((s.part q).enabled = true ∧ s.partHas q r = true) ↔ q = p) → p < 64 →
      ∃ t, exec (.nocHeaderError r ⟨true, lost⟩) s = .next t ∧ (t.part p).halted = true))

/-- R8, R68 to R72, R84, R86: features are accepted once; a partition is enabled with a fresh record or refused, and disabled by a halt; a register without
an event of its own takes the writable bits of a write; a write of CQ_HEAD makes room; function level reset clears what belongs to the VF; window B reads and writes a
line's bytes at their home, or answers all ones with WB_FAULT.
It states that these complete: COMMAND_WINDOW_WRITE, CQ_HEAD_WRITE, FEATURE_ACCEPT, PARTITION_ENABLE, PARTITION_DISABLE, FUNCTION_LEVEL_RESET, WINDOW_B_READ, WINDOW_B_WRITE, REGISTER_WRITE. -/
def Obligations.HostPortWrites : Prop :=
  ∀ s : State,
    (∀ v : BitVec 256, s.boot.phase = 3 → s.boot.accepted = false →
      exec (.featureAccept v) s = .next { s with feats := s.boot.offer &&& v.toNat, boot := { s.boot with accepted := true } }) ∧
    (∀ p < 64, bit (s.pfr (0x8040 + 128 * p)).toNat 0 = false → exec (.partitionEnable p) s = .next (
      if s.enableBad p then s.setPf (0x8040 + 128 * p) (BitVec.ofNat 64 ((s.pfr (0x8040 + 128 * p)).toNat / 4 % 8 * 4 + 2))
      else
        let b := s.setPf (0x8040 + 128 * p) (BitVec.ofNat 64 ((s.pfr (0x8040 + 128 * p)).toNat / 4 % 8 * 4 + 1))
        let old := b.mem.stamps.filter fun q => !(isVault (64 * q.1) && b.owns p (64 * q.1) 64)
        State.updPart { b with mem := { b.mem with stamps := old } } p fun q => { enabled := true, nextNum := q.nextNum, homes := b.homeList p })) ∧
    (∀ p < 64, bit (s.pfr (0x8040 + 128 * p)).toNat 0 = true →
      ∃ t, exec (.partitionDisable p) s = .next t ∧ (t.part p).enabled = false ∧ (t.part p).halted = true) ∧
    (∀ off v : Nat, off % 8 = 0 → off ≠ 0x40 → off ≠ 8 → (0x6000 ≤ off ∧ off < 0x6800 → off % 32 ≠ 8) → s.pfLocked off = false → pfMask off ≠ 0 → v < 2 ^ 64 →
      exec (.registerWrite 0 off 8 v) s =
        .next (s.setPf off (BitVec.ofNat 64 (((s.pfr off).toNat &&& (2 ^ 64 - 1 - pfMask off)) ||| (v &&& pfMask off))))) ∧
    (∀ vf v, s.boot.phase = 3 → Tbl.getD s.rings vf [] = [] → exec (.cqHeadWrite vf v) s = .next (s.setVf vf 0x58 (BitVec.ofNat 64 (v.toNat % 2 ^ 32)))) ∧
    (∀ vf, s.boot.phase = 3 → 1 ≤ vf → vf ≤ 64 → ∃ t, exec (.functionLevelReset vf) s = .next t ∧ (t.part (vf - 1)).halted = true ∧ (∀ w < 16, t.window vf w = {}) ∧
      (∀ h < 65536, t.handle (vf - 1) h = {}) ∧ (∀ a ∈ t.armed, a.part ≠ vf - 1) ∧ t.vfReg vf 0x40 = 0 ∧ t.vfReg vf 0x48 = 6 ∧ t.vfReg vf 0x50 = 0 ∧
      t.vfReg vf 0x58 = 0) ∧
    (∀ vf off len : Nat, s.boot.phase = 3 → 0 < len → off % 64 + len ≤ 64 → off + len ≤ 2 ^ 34 →
      (∀ pa e, s.wbAddr vf (s.wbPva vf off) false = some (pa, e) →
        let g := s.engRead (vf - 1) (some e) pa len
        exec (.windowBRead vf off len) s = .next { g.1 with reads := g.1.reads ++ [natBytes g.2.1 len] } ∧
        (Says.noPartials s → isCxl (64 * (pa / 64)) = false → g.2.1 = s.peekN pa len)) ∧
      (s.wbAddr vf (s.wbPva vf off) false = none → (s.tq (vf - 1)).en = false →
        ∃ t, exec (.windowBRead vf off len) s = .next t ∧ t.reads = s.reads ++ [List.replicate len 0xFF] ∧ t.vfReg vf 0 = s.vfReg vf 0 ||| 4 ∧
          (t.tq (vf - 1)).lost = min ((s.tq (vf - 1)).lost + 1) 0xFFFFFFFF)) ∧
    (∀ (vf off : Nat) (data : List Byte), s.boot.phase = 3 → 0 < data.length → off % 64 + data.length ≤ 64 → off + data.length ≤ 2 ^ 34 →
      (∀ pa e, s.wbAddr vf (s.wbPva vf off) true = some (pa, e) →
        exec (.windowBWrite vf off data) s = .next (s.engineWrite (vf - 1) (some e) pa data.length (bytesNum (data.map (·.toNat))) 0 false)) ∧
      (s.wbAddr vf (s.wbPva vf off) true = none → (s.tq (vf - 1)).en = false →
        ∃ t, exec (.windowBWrite vf off data) s = .next t ∧ t.vfReg vf 0 = s.vfReg vf 0 ||| 4 ∧ ∀ pa, t.peek pa = s.peek pa)) ∧
    (∀ p t, p < 64 → bit (s.pfr (0x8040 + 128 * p)).toNat 0 = false → s.enableBad p = false →
      exec (.partitionEnable p) s = .next t → ∀ q ∈ t.mem.stamps, isVault (64 * q.1) = true → s.owns p (64 * q.1) 64 = false) ∧
    (s.boot.phase ≠ 3 → ∀ vf w off (data : List Byte), 1 ≤ vf → exec (.commandWindowWrite vf w off data) s = .next s ∧ exec (.windowBWrite vf off data) s = .next s)

/-- R73 to R86: a window takes whole packets or discards a write whole and counts it; a command starts when the one before it has completed and what it waits for
has, and completes with its status; its record goes to the VF's ring; an aborted window's waiting commands are gone.
It states that these complete: COMMAND_WINDOW_WRITE, WINDOW_DISCARDS_CLEAR, LAUNCH, ARM, HOST_COPY, HANDLE_REGISTER, HANDLE_RETIRE, HANDLE_RETIRE_COMPLETE, SIGNAL, WAITV, WAITV_TIMEOUT, BAD_OP_COMMAND, WINDOW_ABORT. -/
def Obligations.CommandsRun : Prop :=
  ∀ (s : State) (vf w : Nat), s.boot.phase = 3 → 1 ≤ vf → vf ≤ 64 → w < 16 →
    (∀ (off : Nat) (data : List Byte), off < 0xFC0 → 0 < data.length →
      (off % 64 = 0 → data.length = 64 → 1 ≤ (s.window vf w).free →
        exec (.commandWindowWrite vf w off data) s = .next (s.acceptCmd vf w (toVec (bytesNum (data.map (·.toNat)))))) ∧
      (off % 64 ≠ 0 ∨ data.length % 64 ≠ 0 ∨ 0xFC0 < off + data.length ∨ (s.window vf w).free < data.length / 64 →
        exec (.commandWindowWrite vf w off data) s = .next (s.updWindow vf w fun x => { x with discards := min (x.discards + 1) 0xFFFF }))) ∧
    exec (.windowDiscardsClear vf w) s = .next (s.updWindow vf w fun x => { x with discards := 0 }) ∧
    (∀ (c : Cmd) (rest : List Cmd), Says.heads s vf w c rest →
      let b := Says.begun s vf w c rest
      let p := vf - 1
      (s.depsOpen c.deps = false → (c.op = 0 ∨ 6 < c.op) → exec (.badOpCommand vf w) s = .next (b.completeCmd vf w 1 0)) ∧
      (∀ r hs rs, c.op = 1 → s.depsOpen c.deps = false → c.rec_ = .ok r hs rs → s.chooseTiles p r (fun _ => true) ≠ none →
        ∃ t num l, exec (.launch vf w) s = .next t ∧ Tbl.find? t.launches (p * 65536 + num) = some l ∧ l.st = .waiting ∧ l.r = r ∧ l.num = num ∧
          l.handles = hs ∧ l.cmd = some (vf, w) ∧ (t.window vf w).run = some { cmd := c, start := s.CYC, launch := num }) ∧
      (∀ st, c.op = 1 → s.depsOpen c.deps = false → c.rec_ = .bad st → exec (.launch vf w) s = .next (b.completeCmd vf w st 0)) ∧
      (c.op = 2 → s.depsOpen c.deps = false → s.feature 7 = true → s.epPart (c.fld 0x28 2) = some p →
        let is := fun (a : Armed) => decide (a.part = p) && decide (a.ep = c.fld 0x28 2) && decide (a.tag = BitVec.ofNat 64 (c.fld 0x10 8))
        (c.fld 0x24 4 = 0 → (∀ a ∈ s.armed, is a = true → a.inflight = 0) →
          exec (.arm vf w) s = .next (State.completeCmd { b with armed := s.armed.filter fun a => !is a } vf w 0 0)) ∧
        (∀ r hs rs, c.fld 0x24 4 ≠ 0 → c.rec_ = .ok r hs rs → s.armed.filter (fun a => decide (a.part = p)) = [] →
          ∃ a : Armed, exec (.arm vf w) s = .next (State.completeCmd { b with armed := s.armed ++ [a], nextId := s.nextId + 1 } vf w 0 0) ∧
            a.part = p ∧ a.ep = c.fld 0x28 2 ∧ a.tag = BitVec.ofNat 64 (c.fld 0x10 8) ∧ a.buf = BitVec.ofNat 64 (c.fld 0x18 8) ∧ a.len = c.fld 0x20 4 ∧
            a.count = c.fld 0x24 4 ∧ a.r = r ∧ a.inflight = 0)) ∧
      (∀ die eng s1 v, c.op = 3 → s.depsOpen c.deps = false → (c.fld 0x20 1 = 0xFF ∨ c.fld 0x20 1 = die) →
        s.queueHeld (queueKey die eng (c.fld 0x21 1)) < 32 → b.shapeRead p (c.fld 0x08 8) = .ok s1 v false →
        (Shape.ofNat v).space = true →
        ∃ (t : State) (m : CopyCmd), exec (.hostCopy vf w die eng) s = .next t ∧
          Tbl.getD t.queues (queueKey die eng (c.fld 0x21 1)) [] = Tbl.getD s1.queues (queueKey die eng (c.fld 0x21 1)) [] ++ [m] ∧
          m.shape = Shape.ofNat v ∧ m.host = some (vf, w, c.uid) ∧ m.cword = BitVec.ofNat 64 (c.fld 0x10 8) ∧ m.cval = BitVec.ofNat 64 (c.fld 0x18 8)) ∧
      (c.op = 4 → c.fld 0x08 1 = 1 → s.depsOpen c.deps = false → (s.handle p (c.fld 0x0C 4)).reg = false → s.handleCount p < 4096 →
        exec (.handleRegister vf w) s = .next ((b.updHandle p (c.fld 0x0C 4) fun h => { h with
          reg := true, kind := c.fld 0x09 1, base := BitVec.ofNat 64 (c.fld 0x10 8), len := BitVec.ofNat 64 (c.fld 0x18 8) }).completeCmd vf w 0 0)) ∧
      (c.op = 4 → c.fld 0x08 1 = 2 → (s.handle p (c.fld 0x0C 4)).reg = true →
        exec (.handleRetire vf w) s = .next (if s.depsOpen c.deps then b
          else (b.updHandle p (c.fld 0x0C 4) fun h => { h with reg := false }).completeCmd vf w 0 0)) ∧
      (c.op = 5 → s.depsOpen c.deps = false → c.fld 0x18 1 = 1 → c.fld 0x08 8 + c.fld 0x19 1 ≤ 2 ^ 51 → b.waitsFor p .signal c.uid = false →
        let t := b.applyWrite p 0 (2 ^ 51 + c.fld 0x08 8) (c.fld 0x19 1) (c.fld 0x10 8 % 2 ^ (8 * c.fld 0x19 1)) none false false
        exec (.signal vf w true) s = .next (State.completeCmd (if c.fld 0x1A 1 = 0 then t else t.raise vf (c.fld 0x1A 1)) vf w 0 0)) ∧
      (∀ pa e, c.op = 6 → s.depsOpen c.deps = false → b.waitsFor p .signal c.uid = false →
        b.engAddr p 0 none (c.fld 0x08 8) 8 true false false = .ok pa (some e) →
        let g := b.engRead p (some e) pa 8
        let t := g.1.updWindow vf w fun x => { x with run := x.run.map fun r => { r with pa := some pa, tenant := e.tenant, shu := e.shu } }
        exec (.waitv vf w) s = .next (if waitHolds false (c.fld 0x20 1) (g.2.1 &&& c.fld 0x18 8) (c.fld 0x10 8) then t.completeCmd vf w 0 0 else t))) ∧
    (∀ r, (s.window vf w).run = some r → r.finished = false →
      (r.cmd.op = 4 → r.cmd.fld 0x08 1 = 2 → s.depsOpen r.cmd.deps = false →
        exec (.handleRetireComplete vf w) s =
          .next ((s.updHandle (vf - 1) (r.cmd.fld 0x0C 4) fun h => { h with reg := false }).completeCmd vf w 0 0)) ∧
      (r.cmd.op = 6 → r.cmd.fld 0x24 4 ≠ 0 → r.start + 1400 * r.cmd.fld 0x24 4 ≤ s.CYC →
        exec (.waitvTimeout vf w) s = .next (s.completeCmd vf w 11 0)) ∧
      (∀ st d tail head n, MemInv s → d < 2 ^ 64 → s.CYC < 2 ^ 64 → r.start ≤ s.CYC → Tbl.getD s.rings vf [] = [] → (s.vfReg vf 0x48).toNat / 2 ^ 8 % 2 = 1 →
        n = 2 ^ ((s.vfReg vf 0x48).toNat % 32) → r.cmd.flags / 2 % 2 = 0 → tail = (s.vfReg vf 0x50).toNat → head = (s.vfReg vf 0x58).toNat → head ≤ tail →
        tail - head < n → tail + 1 < 2 ^ 32 → (s.vfReg vf 0x40).toNat + 32 * n ≤ 2 ^ 51 →
        let t := s.completeCmd vf w st d
        (t.window vf w).run = none ∧ t.vfReg vf 0x50 = BitVec.ofNat 64 (tail + 1) ∧
        ∀ k < 32, t.peek (2 ^ 51 + (s.vfReg vf 0x40).toNat + 32 * (tail % n) + k) = BitVec.ofNat 8
          (Says.record r.cmd.seq w r.cmd.op st d (min (r.start - r.cmd.at_) 0xFFFFFFFF) (s.CYC - r.start) (tail / n) / 2 ^ (8 * k)))) ∧
    (∀ v : Word, ∃ t, exec (.windowAbort vf v) s = .next t ∧ ∀ k < 16, v.toNat / 2 ^ k % 2 = 1 → (t.window vf k).q = []) ∧
    (∀ x : Cmd, x.op = 0 ∨ 6 < x.op → x.retires = false → s.depsOpen x.deps = false → (s.window vf w).run = none → (s.window vf w).q = [x] → x.doom = 9 ∨ x.doom = 13 →
      (s.part (vf - 1)).halted = false → s.ready (vf - 1) = true →
      exec (.badOpCommand vf w) s = .next ((Says.begun s vf w x []).completeCmd vf w x.doom 0))

/-- R94 to R98, R101: the next launch of a live partition is placed on the tiles chosen, each group's crown in slot 0 at ENTRY with its arguments and nothing else on its
tile; a class-0 launch without room displaces a group; a launch that has ended leaves its tiles, after its completion word where it has one.
It states that these complete: LAUNCH_COMPLETE, LAUNCH_PLACEMENT. -/
def Obligations.LaunchesRun : Prop :=
  ∀ s : State,
    (∀ p k l ts, Says.placing s p k l → s.chooseTiles p l.r (s.mayTake l.r.cls) = some ts → ts.Nodup →
      ∃ t, exec (.launchPlacement p) s = .next t ∧
        (∃ m, Tbl.find? t.launches k = some m ∧ m.st = .running ∧ m.r = l.r ∧ ∀ g < ts.length, m.tileOf g = ts[g]?) ∧
        ∀ g j, ts[g]? = some j → ∃ x : Ctx, (t.tile j).grp = some ⟨k, g⟩ ∧ (t.tile j).ctxs = [(0, x)] ∧ x.state = .slotted ∧ x.slot = some 0 ∧
          x.pc = l.r.entry ∧ x.seg = l.r.seg ∧ x.vl = 1 ∧ x.park = 0 ∧ x.latch = none ∧ (x.reg 10).val = l.r.arg0 ∧ (x.reg 11).val = l.r.args ∧
          (x.reg 12).val = BitVec.ofNat 64 l.num ∧ (x.reg 13).val = BitVec.ofNat 64 g ∧ (x.reg 14).val = BitVec.ofNat 64 l.r.myrank ∧
          (∀ n, n < 10 ∨ 14 < n → x.reg n = {}) ∧ (t.tile j).rotLo = 0xFEDCBA9876543210 ∧ (t.tile j).rotHi = 0xFEDCBA9876543210) ∧
    (∀ p k l j g m x, Says.placing s p k l → s.chooseTiles p l.r (s.mayTake l.r.cls) = none → l.r.cls = 0 → s.leaving p = false →
      s.victim p = some (j, g) → s.group? j g = some (m, x) → ∃ t m' y, exec (.launchPlacement p) s = .next t ∧ t.group? j g = some (m', y) ∧
        y = { x with place := .migrating, phase := 1, full := true, since := s.cyc, target := none } ∧
        ∀ k', k' ≠ j → Tbl.find? t.launches k' = Tbl.find? s.launches k') ∧
    (∀ p k l, Says.placing s p k l → s.chooseTiles p l.r (s.mayTake l.r.cls) = none → l.r.cls ≠ 0 →
      exec (.launchPlacement p) s = .next (s.updPart p fun q => { q with chosen := some k })) ∧
    (∀ p n l, Tbl.find? s.launches (p * 65536 + n) = some l → s.launchEnded (p * 65536 + n) l = true → Says.noPartials s →
      (l.r.cword = 0 → ∃ t, exec (.launchComplete p n) s = .next t ∧ (∀ j g, (t.tile j).grp = some g → g.launch ≠ p * 65536 + n) ∧
        (∀ c ∈ t.cwords, c ∈ s.cwords) ∧ l.uid ∉ t.users) ∧
      (l.r.cword ≠ 0 → ∃ t c, exec (.launchComplete p n) s = .next t ∧ t.cwords = s.cwords ++ [c] ∧ c.addr = BitVec.ofNat 64 l.r.cword ∧ c.val = l.r.cval ∧
        c.launchEnd = some (p * 65536 + n) ∧ c.part = p ∧ c.segs = none))

/-- R98, R118 to R124: a migration request that finds a tile starts the wait; it ends at CKPT_LIMIT; the group then stops issuing, leaves its tile when nothing of it is in
flight, is written to its save area, and resumes on the tile chosen with its registers, accumulators and semaphores as they were.
It states that these complete: DISPLACED_GROUP_RESUME, GROUP_MIGRATE_REQUEST, CKPT_LIMIT_EXPIRE, MIGRATION_QUIESCE, MIGRATION_SAVE, MIGRATION_RESTORE. -/
def Obligations.GroupsMigrate : Prop :=
  ∀ (s : State) (p n g : Nat) (l : Launch) (x : GroupSt), s.group? (p * 65536 + n) g = some (l, x) →
    (∀ (v : Word) (ts : List Nat), v.toNat / 2 ^ 63 = 1 → v.toNat / 2 ^ 54 % 2 ^ 8 = 0 → v.toNat / 2 ^ 48 % 2 ^ 6 = p → v.toNat / 2 ^ 32 % 2 ^ 16 = n →
      v.toNat / 2 ^ 12 % 2 ^ 20 = 0 → v.toNat % 2 ^ 12 = g → bit (s.pfr 0xA408).toNat 0 = false → s.feature 9 = true → s.partLive p = true →
      x.place = .running → x.target = none →
      (s.setPf 0xA400 v).chooseTiles p { l.r with tiles := 1, clusters := 1, dies := 1 } (fun t => decide (t ≠ x.tile) && (s.setPf 0xA400 v).mayTake 1 t) = some ts →
      ∃ t m y, exec (.groupMigrateRequest v) s = .next t ∧ t.group? (p * 65536 + n) g = some (m, y) ∧ t.pfr 0xA408 = 1 ∧
        y = { x with place := .migrating, phase := 1, full := bit v.toNat 62, since := s.cyc, target := ts.head? }) ∧
    (x.place = .migrating → x.phase = 1 → x.full = false → x.since + l.r.ckptLimit ≤ s.cyc →
      exec (.ckptLimitExpire p n g) s = .next (s.updGroup (p * 65536 + n) g fun y => { y with full := true })) ∧
    (x.place = .migrating → x.phase = 1 → (x.full = true ∨ (s.tile x.tile).ctxs.all (fun q => q.2.atRest) = true) →
      ∃ t m y, exec (.migrationQuiesce p n g) s = .next t ∧ (t.tile x.tile).quiet = true ∧ t.group? (p * 65536 + n) g = some (m, y) ∧ y.phase = 2 ∧
        y.tile = x.tile ∧ ∀ q ∈ t.barWait, q.2.2.1 ≠ x.tile) ∧
    (∀ lines : Option (List Nat),
      let k := p * 65536 + n
      let s0 := ((s.gatherTile x.tile).releasesDone x.tile).saveCopies k g
      x.place = .migrating → x.phase = 2 → s.quiesced k g x.tile = true → s0.saveSet k g x.tile x.whole = (lines, []) →
      ∃ t m y v, exec (.migrationSave p n g) s = .next t ∧ (t.tile x.tile).grp = none ∧ t.group? k g = some (m, y) ∧ y.phase = 3 ∧ y.slab = some v ∧
        y.whole = lines.isNone ∧ y.out = s0.saveOut k g x.tile l.r.groups lines ∧ v.acc = (s0.tile x.tile).acc ∧ v.sem = (s0.tile x.tile).sem ∧
        ∀ c r, ((v.ctx c).reg r).val = ((s0.ctx x.tile c).reg r).val ∧ (v.ctx c).pc = (s0.ctx x.tile c).pc) ∧
    (∀ (s1 : State) (z : Nat) (q : Bool), x.place = .migrating → x.phase = 3 → s.waitsFor p .save (p * 65536 + n) = false → l.st ≠ .ending →
      s.saveFields p l.r.save (x.out.map fun f => if f.1.1 = 0x1018 + g * 0x80000 then ((f.1.1, f.1.2.1, s.CYC), f.2) else f) = .ok s1 z q →
      ∃ t m y, exec (.migrationSave p n g) s = .next t ∧ t.group? (p * 65536 + n) g = some (m, y) ∧ t.mem = s1.mem ∧
        y = { x with out := [], phase := 4, place := if x.target.isNone then .displaced else .migrating }) ∧
    (∀ (v : Tile) (d z : Nat) (q : Bool) (s1 : State), x.slab = some v → x.target = some d → x.phase = 4 → x.acks = [] → x.ends = [] → (∀ c r, ((v.ctx c).reg r).poison = false) → (s.tile d).grp = none →
      s.waitsFor p .save (p * 65536 + n) = false → s.saveFields p (l.r.save + 0x1000 + g * 0x80000) [((6, 1, 2), false)] = .ok s1 z q →
      ∃ t m y, exec (.migrationRestore p n g) s = .next t ∧ (t.tile d).grp = some ⟨p * 65536 + n, g⟩ ∧ (t.tile d).quiet = false ∧ (t.tile d).acc = v.acc ∧
        (t.tile d).sem = v.sem ∧ (∀ c, (t.ctx d c).x = (v.ctx c).x ∧ (t.ctx d c).pc = (v.ctx c).pc ∧ (t.ctx d c).latch = (v.ctx c).latch) ∧
        t.group? (p * 65536 + n) g = some (m, y) ∧ y.place = .running ∧ y.tile = d) ∧
    (∀ d, x.place = .displaced → x.target = none → l.st ≠ .ending → (∀ q ∈ s.waiting p, q.2.r.cls ≠ 0) → s.resumeTiles (p * 65536 + n) l g x = [(g, d)] →
      exec (.displacedGroupResume p n g) s = .next (s.updGroup (p * 65536 + n) g fun y => { y with target := some d }))

/-- R255 to R262: a trap of a running launch stops its context with its other registers as they were; a replayable one leaves PARK 10 and the instruction
in the latch. Where the launch has a handler, for any context but the crown and any cause but PAGE_ABSENT, it is pended for the crown with its pc, address and
cause; anywhere else its record goes to the trap queue. Pended traps stand in order of occurrence, the lower context first in one cycle. An acknowledgement with
action 0 replays the context of its record and with action 1 ends its launch; a write of TQ_HEAD consumes records; EN lets a waiting replayable record be written;
a deferred trap is taken.
It states that these complete: TRAP_ACK, TQ_HEAD_WRITE, DEFERRED_TRAP, TRAP_QUEUE_ENABLE. -/
def Obligations.TrapsAndTheirQueue : Prop :=
  ((∀ (p : PendTrap) (before after : List PendTrap),
    (∀ q ∈ before, q.at_ = p.at_ → q.tcause.toNat / 256 % 64 ≤ p.tcause.toNat / 256 % 64) →
    (∀ q ∈ after, q.at_ = p.at_ ∧ p.tcause.toNat / 256 % 64 < q.tcause.toNat / 256 % 64) → pendAdd (before ++ after) p = before ++ p :: after) ∧
  ∀ (s : State) (t c : Nat) (i : TrapInfo) (l : Launch), s.launchOf t = some l → l.st = .running →
    let h := i.cause ≠ 4 ∧ c ≠ 0 ∧ l.r.handler ≠ 0 ∧ (s.ctx t 0).state ≠ .halted
    (h → ∃ x, Says.Becomes (s.takeTrap t c i) s t c
        { s.tile t with pend := pendAdd (s.tile t).pend { tfpc := i.pc, taddr := i.vaddr.getD i.addr, at_ := s.cyc, when := s.ref6 / 6
                                                          detail := i.detail, aux := i.aux, addr := i.addr
                                                          tcause := BitVec.ofNat 64 (i.cause + 256 * c + 65536 * (s.ctx t c).gen +
                                                            (if 1 ≤ i.cause ∧ i.cause ≤ 5 then 2 ^ 24 else 0) + 2 ^ 32 * i.insn.toNat) } } x ∧
      Says.stoppedBy (s.ctx t c) x s.cyc i) ∧
    (¬h → 1 ≤ i.cause → i.cause ≤ 5 → (s.tq l.part).en = false →
      Says.stoppedBy (s.ctx t c) ((s.takeTrap t c i).ctx t c) s.cyc i ∧ (s.takeTrap t c i).tile t = { s.tile t with ctxs := ((s.takeTrap t c i).tile t).ctxs } ∧
      ∃ r, ((s.takeTrap t c i).tq l.part).waitRecs = (s.tq l.part).waitRecs ++ [r] ∧ r.kind = 2 ∧ r.code = i.cause ∧ r.launch = l.num ∧ r.ctx = c ∧
        r.tile = t ∧ r.pc = i.pc ∧ r.addr = i.addr ∧ r.insn = i.insn ∧ r.gen = (s.ctx t c).gen)) ∧
  (∀ (s : State) (p : Nat), p < 64 → s.boot.phase = 3 →
    (∀ (v : Word) (i : Nat) (r : TrapRec) (l : Launch) (x : GroupSt), (s.tq p).live.find? (fun e => decide (e.1 % 2 ^ 32 = v.toNat % 2 ^ 32)) = some (i, r) →
      r.who = .ctx → s.group? r.ref r.group = some (l, x) → s.groupMoves r.ref r.group = false → x.slab = none → s.awaitsAck x.tile r = true →
      (v.toNat / 2 ^ 32 % 4 = 0 → exec (.trapAck (p + 1) v) s =
        .next ((s.setTq p { s.tq p with live := Tbl.erase (s.tq p).live i }).replay x.tile r.ctx)) ∧
      (v.toNat / 2 ^ 32 % 4 = 1 → ∃ t, exec (.trapAck (p + 1) v) s = .next t ∧
        ∀ m, Tbl.find? t.launches r.ref = some m → m.st ≠ .running ∧ m.st ≠ .waiting)) ∧
    (∀ v : Word, (s.tq p).waitRecs = [] → (s.tq p).tail < 2 ^ 32 → v.toNat ≤ (s.tq p).tail →
      exec (.tqHeadWrite (p + 1) v) s = .next (s.setTq p { s.tq p with head := v.toNat })) ∧
    ((s.tq p).waitRecs = [] → exec (.trapQueueEnable (p + 1)) s = .next (s.setTq p { s.tq p with en := true })) ∧
    (∀ r rest, (s.tq p).waitRecs = r :: rest → (s.tq p).tail - (s.tq p).head < 4095 →
      ∃ t, exec (.trapQueueEnable (p + 1)) s = .next t ∧ (t.tq p).en = true ∧ (s.tq p).tail < (t.tq p).tail) ∧
    (∀ (t c : Nat) (d : Deferred), (s.ctx t c).deferred = some d → exec (.deferredTrap t c) s =
      .next (s.takeTrap t c { cause := d.cause, pc := d.pc, insn := d.insn, addr := d.addr, detail := 3 })))

/-! ## Paging, Ethernet and the homes (R32 to R66, R165 to R210) -/

/-- R60 to R66, R179: a fault message moves towards its die's pager, or joins the entry of its page; the pager walks the tables, and serves, fails or passes on what waits for the page; a wake frees the
entries and makes its context ready. A storage fault takes a frame and has its page read; when the read ends, the entry that still is the one that faulted is installed and its waiters wake; an error, a timeout or a link that goes
down ends the service; a frame joins its partition's pool, or is refused.
It states that these complete: FREE_FRAME_PUSH, STORAGE_FAULT, STORAGE_READ_COMPLETE, STORAGE_TIMEOUT, SSD_LINK_DOWN, FAULT_MESSAGE, PAGER_WALK, FAULT_WAKE. -/
def Obligations.PagesServed : Prop :=
  (∀ (s : State) (f : PageFault), s.faults.find? (fun (g : PageFault) => decide (g.id = f.id)) = some f →
    (f.stage = 0 → f.rx = 8 → f.ry = 4 → exec (.faultMessage f.id) s = .next (s.setFault { f with stage := 2 })) ∧
    (f.stage = 0 → ¬(f.rx = 8 ∧ f.ry = 4) → Tbl.getD s.combine (routerNum (f.tile / 1024) f.rx f.ry) [] = [] →
      ∃ t e, exec (.faultMessage f.id) s = .next t ∧ t.faults = (s.setFault { f with rx := (towardsPager f.rx f.ry).1, ry := (towardsPager f.rx f.ry).2 }).faults ∧
        Tbl.getD t.combine (routerNum (f.tile / 1024) f.rx f.ry) [] = [e] ∧ e.asid = f.asid ∧ (e.page, e.sub) = s.faultKey f ∧
        e.ports = [arrivalPort (routerOf f.tile).1 (routerOf f.tile).2 f.rx f.ry]) ∧
    (∀ e, f.stage = 0 → ¬(f.rx = 8 ∧ f.ry = 4) → e ∈ Tbl.getD s.combine (routerNum (f.tile / 1024) f.rx f.ry) [] → e.asid = f.asid →
      (e.page, e.sub) = s.faultKey f → ∃ t, exec (.faultMessage f.id) s = .next t ∧ t.faults = (s.setFault { f with stage := 1 }).faults) ∧
    (let h := (s.holdAsid f.tile f.asid).asidOf f.tile f.asid
     let en := (s.partAsid f.part).2
     let s1 := Says.walks (s.holdAsid f.tile f.asid) h f en
     let die := f.tile / 1024
     f.stage = 2 → (s.faults.filter fun g => decide (4 ≤ g.stage) && decide (g.stage < 7) && decide (g.who = .ctx) && decide (g.tile / 1024 = die)).length < 256 →
     (∀ e, s1.walk h f.part f.pva en = .page e → (f.rw = true → e.mig = false) →
        (∀ g ∈ s1.waitersOf f, (g.rd = true → e.r = true) ∧ (g.wr = true → e.w = true) ∧ (g.xq = true → e.x = true)) →
        exec (.pagerWalk f.id) s = .next ((s1.tlb2Fill die e).setFault { f with stage := 6 }) ∧ (die, e) ∈ (s1.tlb2Fill die e).tlb2 ∧
        ((s1.tlb2Fill die e).tlb2.filter fun q => decide (q.1 = die)).length ≤ 32768) ∧
     (∀ e, s1.walk h f.part f.pva en = .page e → f.rw = true → e.mig = true →
        exec (.pagerWalk f.id) s = .next (s1.setFault { f with stage := 4 })) ∧
     (∀ lba ns shu r w x, s1.walk h f.part f.pva en = .storage lba ns shu r w x →
        exec (.pagerWalk f.id) s = .next (s1.setFault { f with stage := 5 })) ∧
     (∀ d, s1.walk h f.part f.pva en = .absent d → s.groupMoves f.launch f.group = false →
        ∃ t, exec (.pagerWalk f.id) s = .next t ∧ ∀ g ∈ t.faults, g.id ≠ f.id)) ∧
    (f.stage = 7 → s.groupMoves f.launch f.group = true → exec (.faultWake f.id) s = .next s) ∧
    (∀ t, f.stage = 6 → f.who = .ctx → s.waitersOf f = [f] → s.groupMoves f.launch f.group = false → s.whereIs f = some t → s.alive t f.ctx f.gen = true → (s.ctx t f.ctx).park = 9 →
      ∃ s', exec (.faultWake f.id) s = .next s' ∧ (s'.ctx t f.ctx).park = 0 ∧ (s'.ctx t f.ctx).latch = (s.ctx t f.ctx).latch ∧
        (s'.ctx t f.ctx).x = (s.ctx t f.ctx).x ∧ (∀ g ∈ s'.faults, g.id ≠ f.id) ∧ ∀ pa, s'.peek pa = s.peek pa)) ∧
  (∀ s : State,
    (∀ (f : PageFault) (lba ns ssd fr : Nat) (rest : List Nat) (shu r w x : Bool), s.faults.find? (fun (g : PageFault) => decide (g.id = f.id)) = some f →
      f.stage = 5 → s.pageWait = [] → (∀ y ∈ s.pages, (y.part = f.part → y.frame.isSome = true ∧ y.pva ≠ f.pva / 0x200000) ∧ ∀ g ∈ y.faults, g.id ≠ f.id) → s.pages.length < 4096 →
      (Says.walks (s.engUse f.asid) (s.engAsid f.asid) f true).walk (s.engAsid f.asid) f.part f.pva true = .storage lba ns shu r w x → s.nsSsd f.part ns lba = some ssd → (s.pool f.part).frames = fr :: rest →
      ∃ t y, exec (.storageFault f.id) s = .next t ∧ y ∈ t.pages ∧ y.frame = some fr ∧ y.ssd = ssd ∧ y.part = f.part ∧ y.asid = f.asid ∧
        y.pva = f.pva / 0x200000 ∧ y.faults = [f] ∧ (t.pool f.part).frames = rest) ∧
    (∀ (y : PageSvc) (fr : Nat), s.pages.find? (fun (z : PageSvc) => decide (z.id = y.id)) = some y → y.frame = some fr → y.reads ≠ [] →
      (∀ data bad, (s.fillFrame fr data bad).peekN (s.leafPa (s.engAsid y.asid) (y.pva * 0x200000)) 8 = y.entry →
        exec (.storageReadComplete y.id true data bad) s = .next ((((s.fillFrame fr data bad).applyWrite y.part (s.engAsid y.asid).tenant
          (s.leafPa (s.engAsid y.asid) (y.pva * 0x200000)) 8 (y.entry % 16 / 2 * 2 + (if bit y.entry 6 then 64 else 0) + 16 + 1 + fr) none false
          false).wakePage y).nextPages y.part)) ∧
      (∀ data bad, exec (.storageReadComplete y.id false data bad) s = .next (s.failPage y)) ∧
      (y.since + (s.pfr 0x6800).toNat % 2 ^ 32 ≤ s.hub → exec (.storageTimeout y.id) s = .next (s.failPage y))) ∧
    (∀ ssd, bit s.ssdDown ssd = false → s.ssdThere ssd = true → (∀ y ∈ s.pages, y.ssd ≠ ssd) →
      ∃ t, exec (.ssdLinkDown ssd) s = .next t ∧ t.ssdDown = s.ssdDown + 2 ^ ssd ∧ (0, 2) ∈ t.msix ∧ t.pages = s.pages) ∧
    (∀ (p : Nat) (v : Word), (∀ y ∈ s.pages, (y.part = p → y.frame.isSome = true) ∧ (y.frame.isSome = true → y.reads ≠ [])) →
      (∀ k, v.toNat < 2 ^ 52 → v.toNat % 0x200000 = 0 → s.mrtOf v.toNat = some k → s.mrtPart k = p → v.toNat + 0x200000 ≤ s.mrtBase k + s.mrtSize k →
        (s.pool p).frames.length < 65536 →
        exec (.freeFramePush p v) s = .next { s with pools := Tbl.put s.pools p { s.pool p with frames := (s.pool p).frames ++ [v.toNat] } }) ∧
      (v.toNat % 0x200000 ≠ 0 ∨ 65536 ≤ (s.pool p).frames.length →
        exec (.freeFramePush p v) s = .next { s with pools := Tbl.put s.pools p { s.pool p with rej := true } })))

/-- R180, R181: a shootdown request in order removes every translation that it covers from the TLBs and the instruction caches and is in progress; a request out of
order is refused; it ends once the stores of earlier epochs are acknowledged, and the writers that it held go on.
It states that these complete: SHOOTDOWN_REQUEST, SHOOTDOWN_COMPLETE. -/
def Obligations.ShootdownsServed : Prop :=
  ∀ s : State,
    (∀ v : Word, s.shoot = none → v.toNat / 2 ^ 63 = 1 → v.toNat / 2 ^ 61 % 2 = 0 → v.toNat / 2 ^ 32 % 2 ^ 16 = 0 → (s.pfr 0xB400).toNat % 0x200000 = 0 →
      (s.pfr 0xB400).toNat < 2 ^ 52 → (v.toNat / 2 ^ 62 % 2 = 1 ∨ v.toNat % 2 ^ 32 ≠ 0) →
      ∃ t x, exec (.shootdownRequest v) s = .next t ∧ t.shoot = some x ∧ x.asid = v.toNat / 2 ^ 48 % 2 ^ 13 ∧ x.all = decide (v.toNat / 2 ^ 62 % 2 = 1) ∧
        x.page = (s.pfr 0xB400).toNat / 0x200000 ∧ x.n = v.toNat % 2 ^ 32 ∧ t.pfr 0xB410 = 1 ∧ (t.pfr 0xB408).toNat = v.toNat - 2 ^ 63 ∧
        (∀ k, ∀ c ∈ (t.tile k).l1, x.covers c.2.asid c.2.pva = false) ∧
        (∀ k, ∀ e ∈ (t.tile k).tlb, x.hits e = false) ∧ (∀ q ∈ t.tlb2, x.hits q.2 = false) ∧
        ∀ k, ∀ e ∈ (t.tile k).icache, x.covers (e.1 / 2 ^ 52) (e.1 % 2 ^ 52) = false) ∧
    (∀ v : Word, s.shoot = none → v.toNat / 2 ^ 63 = 1 →
      (v.toNat / 2 ^ 61 % 2 = 1 ∨ v.toNat / 2 ^ 32 % 2 ^ 16 ≠ 0 ∨ (s.pfr 0xB400).toNat % 0x200000 ≠ 0 ∨ (v.toNat / 2 ^ 62 % 2 = 0 ∧ v.toNat % 2 ^ 32 = 0)) →
      exec (.shootdownRequest v) s = .next ((s.setPf 0xB408 (shootCtl v.toNat)).setPf 0xB410 2)) ∧
    (∀ x, s.shoot = some x → (∀ r ∈ s.reqs, r.id ∈ x.stores → r.stage = .reply) →
      (∀ q ∈ s.tiles, ∀ y ∈ q.2.ctxs, ∀ st ∈ y.2.str.els, ∀ v ∈ st.ahead, v.old = false) →
      exec .shootdownComplete s = .next (State.setPf { s with
        shoot := none
        faults := s.faults.map fun (f : PageFault) => if f.stage = 4 ∧ x.covers f.asid f.pva = true then { f with stage := 6 } else f } 0xB410 0))

/-- R33, R36 to R38, R41, R42, R45 to R51: an endpoint binds where its entry is in order and unbinds; keys and control of a domain are written while they may be; a
message takes a delivery context, leaves as packets and ends with its acknowledgement; the switch relays and combines.
It states that these complete: ENDPOINT_BIND, ENDPOINT_UNBIND, SD_KEY_WRITE, SD_CTL_WRITE, EP_STATUS_CLEAR, KEY_FLUSH, KEY_FLUSH_COMPLETE, PEER_CONFIG_WRITE, NO_ROUTE_CLEAR, PORT_STAT_CLEAR, ETH_LINK_CHANGE, DELIVERY_CONTEXT_ALLOCATE, UET_MESSAGE_SEND, EV_UNUSABLE_EXPIRE, PACKET_RELAY, COMBINE_CONTRIBUTION, COMBINE_TIMEOUT, UET_ACKNOWLEDGEMENT. -/
def Obligations.EthernetManaged : Prop :=
  ∀ s : State,
    (∀ n (fl : Byte), s.epBound n = false → fl.toNat % 2 = 1 → exec (.endpointBind n fl) s = .next (
      if s.epBad n fl.toNat then s.updEp n fun x => { x with cfgErr := true }
      else (s.setEpFlags n fl.toNat).updEp n fun x => { x with cfgErr := false, cache := [], flushing := false })) ∧
    (∀ n, s.epBound n = true → (∀ m ∈ s.tx, m.ep ≠ n) →
      ∃ t, exec (.endpointUnbind n) s = .next t ∧ t.epBound n = false ∧ (∀ m ∈ t.rx, m.ep ≠ n) ∧
        (∀ c ∈ t.pdcs, c.out = false → c.ep ≠ n) ∧ (t.endpoint n).cache = []) ∧
    (∀ p slot key, exec (.sdKeyWrite p slot key) s = .next (s.updDomain p fun d =>
      if slot = 0 then (if d.valid0 then d else { d with key0 := key }) else if d.valid1 then d else { d with key1 := key })) ∧
    (∀ p (v : Word), ∃ t, exec (.sdCtlWrite p v) s = .next t ∧ (t.domain p).valid0 = decide (v.toNat / 2 % 2 = 1) ∧
      (t.domain p).valid1 = decide (v.toNat / 4 % 2 = 1) ∧ (t.domain p).sdi = BitVec.ofNat 32 (v.toNat / 2 ^ 32) ∧ (t.domain p).key0 = (s.domain p).key0 ∧
      (t.domain p).key1 = (s.domain p).key1 ∧
      (t.domain p).tx = (if v.toNat / 2 ^ (1 + v.toNat % 2) % 2 = 1 then decide (v.toNat % 2 = 1) else (s.domain p).tx)) ∧
    (∀ n, exec (.epStatusClear n) s = .next (s.updEp n fun x => { x with authFail := 0, keyFail := 0, tagDrop := 0 })) ∧
    (∀ n, ∃ t, exec (.keyFlush n) s = .next t ∧ (t.endpoint n).cache = [] ∧ (t.endpoint n).flushing = true ∧
      ∀ m ∈ t.rx, m.ep = n → m.done = false → m.old = true) ∧
    (∀ n, (s.endpoint n).flushing = true → (∀ m ∈ s.rx, m.ep = n → m.old = true → m.done = true ∨ m.bad = true) →
      exec (.keyFlushComplete n) s = .next (State.updEp { s with rx := s.rx.map fun m => if m.ep = n ∧ m.old = true then { m with old := false, reread := true } else m } n
        fun x => { x with flushing := false })) ∧
    (∀ k (v : BitVec 128), (k < 8 → ∃ t, exec (.peerConfigWrite k v) s = .next t ∧ t.peerAddr k = v ∧ ∀ j < 8, j ≠ k → t.peerAddr j = s.peerAddr j) ∧
      (8 ≤ k → exec (.peerConfigWrite k v) s = .next (s.setPf 0x48080 (BitVec.ofNat 64 (v.toNat % 256))))) ∧
    exec .noRouteClear s = .next (s.setPf 0x48088 0) ∧
    (∀ k, exec (.portStatClear k) s = .next (s.setPf (0x48100 + 8 * k) 0)) ∧
    (∀ k, bit s.ethDown k = false → exec (.ethLinkChange k false) s = .next { s with ethDown := s.ethDown + 2 ^ k }) ∧
    (∀ k, bit s.ethDown k = true → exec (.ethLinkChange k true) s = .next { s with ethDown := s.ethDown - 2 ^ k }) ∧
    (∀ m : TxMsg, s.txMsg m.id = some m →
      (∀ c, m.pdc = none → s.flowOf m = some c → exec (.deliveryContextAllocate m.id) s = .next (s.setTx { m with pdc := some c.id })) ∧
      (m.pdc = none → s.flowOf m = none → s.pdcs.length < 65536 → (∀ x ∈ s.tx, x.pdc = none → s.flowOf x = none → m.id ≤ x.id) →
        ∃ c : Pdc, exec (.deliveryContextAllocate m.id) s = .next { s.setTx { m with pdc := some c.id } with pdcs := s.pdcs ++ [c], nextId := s.nextId + 1 } ∧
          c.id = s.nextId ∧ c.out = true ∧ c.ep = m.ep ∧ c.peer = m.dst ∧ c.peerNum = m.dstEp ∧ c.mode = m.mode ∧ c.next = 0) ∧
      (∀ c path, m.pdc = some c.id → s.pdcs.find? (fun x => decide (x.id = c.id)) = some c → m.sent = false → path = m.path.getD s.cabling →
        s.epBound m.ep = true → s.feature (modeBit m.mode) = true → s.epSec m.ep = false → s.poisonedRow m = false → m.data.length ≤ 4096 →
        (∀ ev, s.egress path m.dst ev ≠ none) →
        let b := if m.psn.isSome then s else s.setPdc { c with next := c.next + 1 }
        ∃ w, exec (.uetMessageSend m.id) s =
            .next (State.setTx { b with wire := s.wire ++ [w] } { m with sent := true, path := some path, psn := some (m.psn.getD c.next) }) ∧
          s.egress path m.dst w.ev = some w.port ∧ w.dst = m.dst ∧ w.data = m.data ∧ w.msg = m.id ∧ w.poison = m.poison ∧ w.answer = none ∧ w.mode = m.mode ∧
          w.pdc = c.id ∧ w.psn = m.psn.getD c.next ∧ w.src = s.epOwn m.ep ∧ w.ep = m.dstEp ∧ w.key = m.key ∧ w.off = m.off) ∧
      (∀ ev, m.sent = true →
        exec (.uetAcknowledgement m.id .ack ev) s = .next (s.txDone m true) ∧ exec (.uetAcknowledgement m.id .nakAccess ev) s = .next (s.txDone m false) ∧
        exec (.uetAcknowledgement m.id .nakRetry ev) s = .next (s.setTx { m with sent := false }) ∧
        (s.feature 25 = true → exec (.uetAcknowledgement m.id .trimmed ev) s =
          .next { s.setTx { m with sent := false } with evBad := Tbl.put s.evBad (ev % 65536) (s.hub + 16000) }))) ∧
    (∀ ev n, Tbl.find? s.evBad ev = some n → n ≤ s.hub → exec (.evUnusableExpire ev) s = .next { s with evBad := Tbl.erase s.evBad ev }) ∧
    (∀ (p : Packet) dst k, s.ethUp p.port = true → p.relayed = false → s.epOf dst = none → bit s.peerMask p.port = true → s.directPort dst = some k →
      ∃ w, exec (.packetRelay p dst) s = .next { s with wire := s.wire ++ [w] } ∧ w.port = k ∧ w.dst = dst ∧ w.data = p.data ∧ w.msg = p.msg ∧ w.idx = p.idx ∧
        w.src = p.src ∧ w.ep = p.ep ∧ w.mode = p.mode ∧ w.pdc = p.pdc ∧ w.psn = p.psn ∧ w.key = p.key ∧ w.off = p.off ∧ w.icv = p.icv ∧ w.answer = p.answer ∧ w.relayed = true) ∧
    (∀ (p : Packet) dst, p.relayed = true → exec (.packetRelay p dst) s = .next s) ∧
    (∀ (c : Contribution) dst, s.ethUp c.port = true → (s.epOf dst).isSome = true → s.epBound c.ep = true → s.authenticAt c.ep c.sealed c.kid c.icv = false →
      exec (.combineContribution c dst) s = .next (s.authFail c.ep)) ∧
    (∀ (c : Contribution) dst, Says.combinable s c dst →
      (s.combining = [] → (srcsOf c).length < c.expect → ∃ e : CombEntry, exec (.combineContribution c dst) s = .next { s with combining := [e], nextId := s.nextId + 1 } ∧
        e.dst = dst ∧ e.got = [c] ∧ e.pass = false ∧ e.openAt = s.hub ∧ e.is c dst = true) ∧
      (∀ e, s.combining = [e] → e.is c dst = true → e.pass = false → (∀ x ∈ e.got, x.op = c.op ∧ x.fmt = c.fmt ∧ x.expect = c.expect) → e.got.length < 4096 →
        ((∃ r ∈ srcsOf c, r ∈ e.marked) → exec (.combineContribution c dst) s = .next (s.answerContribution c .ack)) ∧
        ((∀ r ∈ srcsOf c, r ∉ e.marked) →
          (e.marked.length + (srcsOf c).length < c.expect → exec (.combineContribution c dst) s = .next { s with combining := [{ e with got := e.got ++ [c] }] }) ∧
          (c.expect ≤ e.marked.length + (srcsOf c).length → exec (.combineContribution c dst) s =
            .next (State.forward { s with combining := [] } (CombEntry.result { e with got := e.got ++ [c] } c) dst))))) ∧
    (∀ e, s.combining.find? (fun (x : CombEntry) => decide (x.id = e.id)) = some e → e.pass = false → e.openAt + 100000 ≤ s.hub →
      exec (.combineTimeout e.id) s = .next (s.passEntry e))

/-- R32, R33, R39 to R44, R52, R53: a packet that the hub takes and whose key allows it does what it asks at the homes of its bytes and is acknowledged: a write or a send
places its bytes, a tagged send those of the buffer that it matches, a read returns them, an atomic its old value; the first packet of a flow takes a delivery context; a
held packet goes on once its page is serviced; a message that is whole adds to its counter. Under ROD a packet is placed in its turn, and one that comes before it is to be
sent again (log 37); so is a row for a group that migrates.
It states that these complete: UET_WRITE_PACKET, UET_READ_PACKET, UET_SEND_PACKET, UET_TAGGED_SEND, UET_ATOMIC_PACKET, ETH_HELD_PLACEMENT, ARRIVAL_COUNTER_ADD. -/
def Obligations.PacketsDelivered : Prop :=
  ∀ (s : State) (p : Packet) (part : Nat), Says.taken s p part →
    (s.flowIn p = none → s.pdcs.length < 65536 → ∀ i ∈ [Instr.uetWritePacket p, .uetSendPacket p, .uetReadPacket p, .uetAtomicPacket p, .uetTaggedSend p],
      exec i s = exec i { s with pdcs := s.pdcs ++ [Says.newFlow s p], nextId := s.nextId + 1 }) ∧
    (∀ (m : RxMsg) (ps : List (Nat × Nat × Option Xlat)), Says.inTurn s p → Says.awaited s p m →
      (p.aop < 16 → m.key.fails p.key 1 p.off p.data.length = false →
        s.ethAddr part (s.keyTarget part m.key p.off p.data.length) p.data.length true = .ok ps →
        exec (.uetWritePacket p) s = .next ((s.ethWrite part ps p.data p.poisoned).packetIn p true)) ∧
      (∀ l, p.aop = 16 → m.key.fails p.key 1 0 0 = false → m.key.typ = 1 → s.keyLaunch part m.key = some l → s.rowAway part m p.off = true →
        exec (.uetWritePacket p) s = .next (s.reply p .nakRetry)) ∧
      (m.kind = 2 → m.armed = none → m.key.fails p.key 1 p.off p.data.length = false →
        s.ethAddr part (s.keyTarget part m.key p.off p.data.length) p.data.length true = .ok ps →
        exec (.uetSendPacket p) s = .next ((s.ethWrite part ps p.data p.poisoned).packetIn p true)) ∧
      (∀ d, m.key.fails p.key 0 p.off p.total = false → s.ethAddr part (s.keyTarget part m.key p.off p.total) p.total false = .ok ps →
        (s.ethRead part ps).2 = (d, false) → d.length ≤ 4096 →
        ∃ t w, exec (.uetReadPacket p) s = .next t ∧ w.msg = p.msg ∧ w.idx = p.idx ∧ w.data = d ∧ w.answer = none ∧ Says.sends s t p.ep p.src w) ∧
      (∀ pa n e old g, s.feature 26 = true → m.key.fails p.key 2 p.off 8 = false → p.aop < 8 →
        s.ethAddr part (s.keyTarget part m.key p.off 8) 8 true = .ok [(pa, n, some e)] → pa % 8 = 0 →
        s.engRead part (some e) pa 8 = (g, old, false) →
        let x := (g.engineWrite part (some e) pa 8 (amoNew p.aop 8 0 old p.operand.toNat p.compare.toNat).1 0 false).packetIn p true
        ∃ t w, exec (.uetAtomicPacket p) s = .next t ∧ t.mem = x.mem ∧ t.rx = x.rx ∧ w.msg = p.msg ∧ w.idx = p.idx ∧ w.data = natBytes old 8 ∧
          Says.sends s t p.ep p.src w)) ∧
    (∀ (m : RxMsg) (c : Pdc), Says.awaited s p m → s.flowIn p = some c → c.mode = .rod → c.next < p.psn →
      exec (.uetWritePacket p) s = .next (s.reply p .nakRetry)) ∧
    (∀ (a : Armed) (m : RxMsg) (s2 : State) (ps : List (Nat × Nat × Option Xlat)), Says.inTurn s p → s.rxMsg p = none → s.feature 7 = true →
      s.armedFor part p.ep p.tag = some a → p.total ≤ a.len → p.off + p.data.length ≤ a.len →
      m = { id := s.nextId, src := p.src, ep := p.ep, pdc := p.pdc, msg := p.msg, kind := 3, count := p.count } →
      s2 = State.setRx { s with
          nextId := s.nextId + 1, rx := s.rx ++ [m]
          armed := s.armed.map fun (x : Armed) => if x.id = a.id then { x with count := x.count - 1, inflight := x.inflight + 1 } else x }
        { m with armed := some a, buf := a.buf.toNat } →
      s2.ethAddr part (.mem (a.buf.toNat + p.off)) p.data.length true = .ok ps →
      exec (.uetTaggedSend p) s = .next ((s2.ethWrite part ps p.data p.poisoned).packetIn p true)) ∧
    (∀ h : HeldPacket, s.heldPackets.find? (fun (x : HeldPacket) => decide (x.id = h.id)) = some h → s.waitsFor h.part .eth h.id = false → h.failed = false → h.op = 0 →
      exec (.ethHeldPlacement h.id) s =
        .next (State.writePacket { s with heldPackets := s.heldPackets.filter fun (x : HeldPacket) => decide (x.id ≠ h.id) } h.p)) ∧
    (∀ (m : RxMsg) (pa : Nat) (e : Xlat), s.rx.find? (fun (x : RxMsg) => decide (x.id = m.id)) = some m → m.done = false → m.bad = false →
      m.count ≤ m.got.length → m.armed = none → m.key.cntMode = 1 → m.key.cntAddr.toNat % 8 = 0 →
      s.engAddr ((s.epPart m.ep).getD 0) 0 none m.key.cntAddr.toNat 8 true true true = .ok pa (some e) →
      let g := (s.setRx { m with done := true }).engRead ((s.epPart m.ep).getD 0) (some e) pa 8
      g.2.2 = false →
      exec (.arrivalCounterAdd m.id) s = .next (g.1.engineWrite ((s.epPart m.ep).getD 0) (some e) pa 8 (g.2.1 + 1) 0 false))

/-- R165, R186, R264, R265: a write applied at its home: the n bytes of one line hold its value, little-endian, and no other byte of memory changes; poisoned data poison the line
and 64 clean bytes clear it. Where the write brings a CXL line into its cache part (R171), the line that leaves for it is written back, which shows in every address
that leads to its bytes (R56). -/
def Obligations.WritesApplied : Prop :=
  ∀ (s : State) (p m pa n v : Nat) (src : Option Nat) (poison : Bool), MemInv s → Says.noWaitv s → 0 < n → pa % 64 + n ≤ 64 → s.offline pa = false →
    s.offline (64 * (pa / 64)) = false →
    (isSpad pa = true → pa % 0x80000 < 0x60000) → (isCxl pa = true → s.direct p m (pa / 64) false = false) → (isCxl pa = false → s.memKey pa ≠ none) →
    let t := s.applyWrite p m pa n v src poison false
    let alone := isCxl pa = false ∨ s.cached (pa / 64) ≠ none
    (∀ i < n, t.peek (pa + i) = BitVec.ofNat 8 (v / 2 ^ (8 * i))) ∧ (∀ a, a < pa ∨ pa + n ≤ a → alone ∨ isCxl a = false → t.peek a = s.peek a) ∧
    (alone → t.poisoned (pa / 64) = (poison || (decide (n ≠ 64) && s.poisoned (pa / 64)))) ∧
    (∀ l, l ≠ pa / 64 → alone ∨ isCxl (64 * l) = false → t.poisoned l = s.poisoned l) ∧ MemInv t

/-- R126, R127, R186 to R191, R194, R201, R204 to R206, R265, R350, R357, R358: a store, a load, an atomic and a partial are performed at the home of their line, in the order of their context; an AtomicOp on a host or peer line that fails writes nothing and poisons its register; a dropped
stamped write is known to its writer; a release ends when the homes' counts add up. A stamped load young enough is answered at its home with the line and its age; an older one waits there, is refused by a full list and tried again,
or, at SLIM, withdrawn, which ends in STALE_TIMEOUT; a wait without a watch is tried again, and one on host memory polled. An answer lands in its destination, which is full with its value and poison; for an LDA.W or a wait the
context's latched instruction completes with it; for a context of another generation it is gone.
It states that these complete: LOAD_RESULT_LAND, HOME_STORE_APPLY, HOME_LOAD, HOME_ATOMIC, STAMPED_WRITE_APPLY, STAMPED_WRITE_ACK, STAMPED_LOAD_AT_HOME, STAMPED_LOAD_RETRY, SLIM_TIMEOUT, STALE_WITHDRAW_ACK, PARTIAL_EVICTION, RELEASE_QUERY, RELEASE_CLEAR_RETURN, WATCH_RETRY, HOST_WATCH_POLL. -/
def Obligations.AccessesPerformed : Prop :=
  (∀ (s : State) (r : Req),
    let p := s.partOf r.tile
    let s1 := Says.left s r
    let g := s1.gatherReq r
    (Says.arrives s r → s1.rejects r = false → r.kind = .store → r.stage = .buffer →
      (r.stamped = false → exec (.homeStoreApply r.id) s =
        .next (((g.dropReq r.id).applyWrite p r.tenant r.pa r.n r.data (some r.tile) r.poison r.shu).settle r.tile r.ctx)) ∧
      (r.stamped = true → (Tbl.getD g.mem.stamps (r.pa / 64) 0).toNat ≤ r.iter.toNat → exec (.stampedWriteApply r.id) s =
        .next ((((g.dropOwn r.tile (r.pa / 64)).applyStamped p r.pa r.n r.data r.iter r.poison).1.dropReq r.id).settle r.tile r.ctx)) ∧
      (r.stamped = true → r.iter.toNat < (Tbl.getD g.mem.stamps (r.pa / 64) 0).toNat → exec (.stampedWriteApply r.id) s =
        .next (((g.dropOwn r.tile (r.pa / 64)).setReq { r with stage := .reply, stale := true }).settle r.tile r.ctx))) ∧
    (s.req? r.id = some r → r.kind = .store → r.stage = .reply → s.alive r.tile r.ctx r.gen = true →
      exec (.stampedWriteAck r.id) s = .next ((s.addFfl r.tile r.ctx 0x40 0).dropReq r.id)) ∧
    (Says.arrives s r → s.rejects r = false → r.kind = .load → r.stage = .flight → (r.pastBuffer = true → s.sbOlder r.tile (r.pa / 64) r.entry = false) →
      let h := s.serveReq r
      let o := if r.pastBuffer then (h.reqN r r.n, false) else h.overlay r.tile r.ctx r.id r.pa (h.reqN r r.n) r.n
      let t := h.setReq { r with stage := .reply, val := r.extend o.1, data := o.1, poison := !o.2 && h.reqBad r }
      exec (.homeLoad r.id) s = .next (if cacheable r.shu r.pa then
        t.fillL1 (t.partOf r.tile) r.tenant r.tile (r.pa / 64) r.pva (if r.stamped then some (Tbl.getD t.mem.stamps (r.pa / 64) 0) else none) else t)) ∧
    (Says.arrives s r → s1.rejects r = false → r.stage = .flight → s.sbOlder r.tile (r.pa / 64) r.entry = false → (s1.serveReq r).reqBad r = false →
      let a := s1.serveReq r
      (r.kind = .amo → r.stamped = false → r.op < 8 →
        let b := if isHost r.pa then { a with uses := a.uses + 1 } else a
        exec (.homeAtomic r.id) s = .next (
          if isHost r.pa = true ∧ (Config.freeWord 2 a.uses).toNat % 2 = 1 then
            b.setReq { r with stage := .reply, poison := true, stale := false, val := Config.freeWord 3 a.uses, flags := 0 }
          else (b.setReq { r with stage := .reply, poison := false, stale := false, val := r.extend (a.reqN r r.n), flags := 0 }).applyWrite p r.tenant r.pa r.n
            (Says.amoNew r.op r.n (a.reqN r r.n) r.data r.cmp) (some r.tile) r.poison r.shu)) ∧
      (r.kind = .elect → r.stamped = false → exec (.homeAtomic r.id) s =
        let old := a.reqN r r.n
        let won := decide (old / 2 ^ 63 % 2 = 0 ∨ old % 2 ^ 32 ≠ r.iter.toNat)
        let t := a.setReq { r with stage := .reply, poison := false, stale := false, val := if won then 1 else 0, flags := 0 }
        .next (if won then t.applyWrite p r.tenant r.pa r.n (2 ^ 63 + r.iter.toNat) (some r.tile) r.poison r.shu else t))) ∧
    (∀ tile line q, Tbl.find? (s.tile tile).parts line = some q → (s.ctx tile q.ctx).roundShut s.nextId (s.ctx tile q.ctx).relRnd = false →
      exec (.partialEviction tile line) s = .next ((s.countWrite tile q.ctx (s.home (s.partOf tile) (64 * line)) (s.ctx tile q.ctx).relRnd).gatherFrom (s.partOf tile)
        ((s.countWrite tile q.ctx (s.home (s.partOf tile) (64 * line)) (s.ctx tile q.ctx).relRnd).tenantOf tile (s.partOf tile)) line (fun t => decide (t = tile)))) ∧
    (∀ tile c f rest, (s.ctx tile c).fences = f :: rest → f.kind = .link → exec (.releaseQuery tile c) s = .next (s.popFence tile c)) ∧
    (∀ tile c f rest, (s.ctx tile c).fences = f :: rest → f.kind = .query → (s.tile tile).parts = [] → s.unitBusy tile c f.id = false →
      (∀ q ∈ s.reqs, q.tile = tile → q.ctx = c → q.id < f.id → q.kind = .store ∧ (q.stage = .reply ∨ q.stage = .flight)) →
      s.countSum tile c f.round + (s.ctx tile c).spill.getD f.round 0 = (s.ctx tile c).issued.getD f.round 0 →
      let t := s.updCtx tile c fun x => { x with clearing := x.clearing.set f.round true }
      (f.sys = false → exec (.releaseQuery tile c) s = .next (t.popFence tile c)) ∧
      (f.sys = true → exec (.releaseQuery tile c) s = .next (t.updCtx tile c fun x => { x with fences := { f with kind := .link, loads := true } :: rest }))) ∧
    (∀ tile c n, n < 4 → (∀ k < n, (s.ctx tile c).clearing.getD k false = false) → (s.ctx tile c).clearing.getD n false = true →
      (∀ f ∈ (s.ctx tile c).fences, f.kind = .query → f.round ≠ n) →
      ∃ t, exec (.releaseClearReturn tile c) s = .next t ∧ (t.ctx tile c).closed.getD n false = false ∧
        (t.ctx tile c).clearing.getD n false = false ∧ (t.ctx tile c).issued.getD n 0 = 0 ∧
        (t.ctx tile c).spill.getD n 0 = 0 ∧ t.countSum tile c n = 0 ∧ ∀ pa, t.peek pa = s.peek pa)) ∧
  (∀ (s : State) (r : Req),
    let h := s.serveReq r
    (Says.arrives s r → s.rejects r = false → r.stage = .flight → s.sbOlder r.tile (r.pa / 64) r.entry = false →
      (r.kind = .ldaN ∨ (r.kind = .ldaW ∧ (r.stamped = false ∨ r.young (Tbl.getD h.mem.stamps (r.pa / 64) 0) = true)) →
        exec (.stampedLoadAtHome r.id) s = .next (h.answerLda r)) ∧
      (r.kind = .ldaW → r.stamped = true → r.young (Tbl.getD h.mem.stamps (r.pa / 64) 0) = false →
        ((h.ctx r.tile r.ctx).slim = 0 → exec (.stampedLoadAtHome r.id) s = .next (h.staleTrap r)) ∧
        ((h.ctx r.tile r.ctx).slim ≠ 0 → h.waitListFull (r.pa / 0x800000) = true → (h.tile r.tile).quiet = false → exec (.stampedLoadAtHome r.id) s =
          .next ((h.setReq { r with stage := .refused, since := h.cyc, spent := 0 }).parkLatched r.tile r.ctx r.pc 8 256)) ∧
        ((h.ctx r.tile r.ctx).slim ≠ 0 → h.waitListFull (r.pa / 0x800000) = false → (h.tile r.tile).quiet = false → exec (.stampedLoadAtHome r.id) s =
          .next ((h.setReq { r with stage := .waiting, since := h.cyc }).parkLatched r.tile r.ctx r.pc 7 0)))) ∧
    (s.ldaAt r.tile r.ctx .refused = some r → r.since + 256 ≤ s.cyc →
      ∃ t, exec (.stampedLoadRetry r.tile r.ctx) s = .next t ∧ (∀ q ∈ t.reqs, q.id ≠ r.id) ∧
        ∀ l, (s.ctx r.tile r.ctx).latch = some l → l.pc = r.pc → (t.ctx r.tile r.ctx).park = 0 ∧ (t.ctx r.tile r.ctx).latch = some { l with timer := 0 }) ∧
    (∀ l, s.ldaAt r.tile r.ctx .refused = none → (s.ctx r.tile r.ctx).latch = some l → (s.ctx r.tile r.ctx).park = 8 → (s.ctx r.tile r.ctx).state ≠ .stopped →
      (s.ctx r.tile r.ctx).parkedAt + l.timer ≤ s.cyc → (s.tile r.tile).quiet = false →
      exec (.stampedLoadRetry r.tile r.ctx) s = .next (s.updCtx r.tile r.ctx fun x => x.wakeRefused s.cyc)) ∧
    (s.ldaAt r.tile r.ctx .waiting = some r → (s.ctx r.tile r.ctx).slim ≠ 0xFFFFFFFF → (s.ctx r.tile r.ctx).slim.toNat ≤ s.slimCount r →
      exec (.slimTimeout r.tile r.ctx) s = .next (s.setReq { r with stage := .withdrawing })) ∧
    (s.ldaAt r.tile r.ctx .withdrawing = some r → exec (.staleWithdrawAck r.tile r.ctx) s = .next (s.staleTrap r)) ∧
    (s.req? r.id = some r → r.kind = .waitw ∨ r.kind = .waitc →
      (r.stage = .refused → r.since + 256 ≤ s.cyc → exec (.watchRetry r.id) s = .next ((h.waitAtHome r).parkWait r)) ∧
      (Says.arrives s r → s.rejects r = false → r.stage = .flight → (r.pastBuffer = true → s.sbOlder r.tile (r.pa / 64) r.entry = false) →
        (s.tile r.tile).quiet = false → (isSpad r.pa = true → (s.tile (spadTile r.pa)).quiet = false) →
        exec (.homeLoad r.id) s = .next (if waitHolds (r.kind = .waitc) r.op (h.reqN r 8) r.cmp then h.waitAtHome r else (h.waitAtHome r).parkWait r)) ∧
      (r.stage = .waiting → isHost r.pa = true → r.since + 1024 ≤ s.cyc → exec (.hostWatchPoll r.id) s = .next (h.waitAtHome r)))) ∧
  (∀ (s : State) (r : Req), s.req? r.id = some r → r.stage = .reply → s.alive r.tile r.ctx r.gen = true → (s.ctx r.tile r.ctx).mapped = false →
    0 < r.dst → r.dst < 31 →
    (r.kind = .load ∨ r.kind = .amo ∨ r.kind = .elect →
      ∃ t, exec (.loadResultLand r.id) s = .next t ∧ (t.ctx r.tile r.ctx).reg r.dst = { val := r.val, st := .full, poison := r.poison, dirty := true } ∧
        (∀ k, k ≠ r.dst → (t.ctx r.tile r.ctx).reg k = (s.ctx r.tile r.ctx).reg k) ∧ (t.ctx r.tile r.ctx).pc = (s.ctx r.tile r.ctx).pc ∧
        (∀ q ∈ t.reqs, q.id ≠ r.id) ∧ (∀ k, k ≠ r.ctx → t.ctx r.tile k = s.ctx r.tile k) ∧ ∀ pa, t.peek pa = s.peek pa) ∧
    (r.kind = .waitw ∨ r.kind = .waitc → (s.ctx r.tile r.ctx).park ≠ 3 → (s.ctx r.tile r.ctx).park ≠ 4 → (s.tile r.tile).inH = false →
      ∃ t, exec (.loadResultLand r.id) s = .next t ∧ ((t.ctx r.tile r.ctx).reg r.dst).val = r.val ∧ (t.ctx r.tile r.ctx).pc = (s.ctx r.tile r.ctx).pc ∧
        (t.ctx r.tile r.ctx).latch = (s.ctx r.tile r.ctx).latch) ∧
    (∀ l, (s.ctx r.tile r.ctx).latch = some l → l.pc = r.pc → (s.ctx r.tile r.ctx).state = .slotted →
      (r.kind = .ldaW → ∃ t, exec (.loadResultLand r.id) s = .next t ∧ ((t.ctx r.tile r.ctx).reg r.dst).val = r.val ∧
        ((t.ctx r.tile r.ctx).reg (r.dst + 1)).val = r.age.signExtend 64 ∧ (t.ctx r.tile r.ctx).pc = l.next.getD (r.pc + 4) ∧ (t.ctx r.tile r.ctx).latch = none ∧
        (t.ctx r.tile r.ctx).park = 0) ∧
      (r.kind = .waitw ∨ r.kind = .waitc → (s.ctx r.tile r.ctx).park = 3 ∨ (s.ctx r.tile r.ctx).park = 4 → ∃ t, exec (.loadResultLand r.id) s = .next t ∧ ((t.ctx r.tile r.ctx).reg r.dst).val = r.val ∧
        (t.ctx r.tile r.ctx).pc = l.next.getD (r.pc + 4) ∧ (t.ctx r.tile r.ctx).latch = none ∧ (t.ctx r.tile r.ctx).park = 0)) ∧
    (∀ c, c ≠ (s.ctx r.tile r.ctx).gen → s.alive r.tile r.ctx c = false))

/-! ## Words, steps, invariants and reset -/

/-- R282 to R293: every instruction of a word, with every operand at every value that its encoding has, encodes to a word of 32 bits that decodes to it, in memory low byte
first, whatever follows. -/
def Obligations.WordsRoundTrip : Prop :=
  ∀ (i : Instr) (w : Nat), i.wf = true → encode i = some w →
    w < 2 ^ 32 ∧ decodeWord w = .ok i ∧ ∀ rest : List Byte, decodeBytes (wordBytes w ++ rest) = .ok (i, rest)

/-- R291: a word that decodes is the encoding of what it decodes to, which is well-formed: no bit of it is ignored, and a word with any other bit set or cleared is another
instruction or none. -/
def Obligations.WordsMeanOneThing : Prop :=
  ∀ (w : Nat) (i : Instr), w < 2 ^ 32 → decodeWord w = .ok i → i.wf = true ∧ encode i = some w

/-- R110, R282 to R293: the words of the rules' own examples decode to the instructions that they stand for, and words with a reserved field set, or of a major opcode that is not assigned, to none. A step whose
turn is an issue runs the instruction that the word decodes to, which is the word in the retry latch or the one that the tile's instruction cache holds for the pc, in the context whose turn it is, or traps as an illegal word; a step
whose turn is an event runs it; and at a tick a cycle passes. The agenda is the model's own (log 1). -/
def Obligations.SpecAndSteps : Prop :=
  (decodeWord 0x00700293 = .ok (.addi 5 0 7) ∧ decodeWord 0x0023055B = .ok (.ldaW 0 10 6 2) ∧ decodeWord 0x0273105B = .ok (.stc 0 6 7) ∧
  decodeWord 0x20A3838B = .ok (.fadd 1 7 7 10) ∧ decodeWord 0x00A1002B = .ok (.vadd 0 0 1 10) ∧ decodeWord 0x601020AB = .ok (.mma 3 2 0 1) ∧
  decodeWord 0x0073245B = .ok (.amoaddD 0 8 6 7) ∧ decodeWord 0x04B5007B = .ok (.copy 0 10 11) ∧ decodeWord 0x001011FB = .ok (.route 0 3 0 1) ∧
  decodeWord 0x0005207B = .ok (.cset 0 10) ∧ decodeWord 0x0012F07B = .ok (.swr 0 5 1) ∧ decodeWord 0x00C3B023 = .ok (.sd 7 12 0) ∧
  ∀ w ∈ [0x0440405B, 0x0400445B, 0x0045405B, 0x6010A0AB, 0x0000000F], ∃ e, decodeWord w = .error e) ∧
  (∀ (s : State) (rest : List Turn),
    (∀ (t c : Nat) (w : W32), s.agenda = .issue t :: rest → t ∉ s.issuedNow → (s.tile t).quiet = false → s.power.shut = false → s.turn t = some c →
      (s.tile t).crownDue c = false → (s.ctx t c).deferred = none → s.flitHeld t c = false → s.nextWord t c = some w →
      let s1 := { s.spendFetch t c with agenda := rest, issuedNow := t :: s.issuedNow, cur := some ⟨t, c, w⟩ }
      let done := mapOut fun (x : State) => { x with cur := none }
      (∀ i, decodeWord w.toNat = .ok i → Machine.step s = done (exec i s1)) ∧
      (∀ e, decodeWord w.toNat = .error e → Machine.step s = done (exec (.illegalInstruction w) s1))) ∧
    (∀ (t c : Nat) (l : Latch), (s.ctx t c).latch = some l → s.nextWord t c = some l.insn) ∧
    (∀ (t c pva : Nat) (w : W32), (s.ctx t c).latch = none → s.segCheck t (s.ctx t c).seg (s.ctx t c).pc.toNat 4 false false true = .ok (.mem pva) →
      Tbl.find? (s.tile t).icache ((s.partAsid (s.partOf t)).1 * 2 ^ 52 + pva) = some w →
      (s.newer t (s.partAsid (s.partOf t)).1 pva w = none → s.nextWord t c = some w) ∧
      (∀ m, s.newer t (s.partAsid (s.partOf t)).1 pva w = some m → s.nextWord t c = some m ∨ s.nextWord t c = some w)) ∧
    (∀ i, s.agenda = .event i :: rest → Machine.step s = if i.wf = true ∧ s.power.shut = false then exec i { s with agenda := rest } else .next { s with agenda := rest }) ∧
    (s.agenda = .tick :: rest → ∃ s', Machine.step s = .next s' ∧ s'.cyc = s.cyc + 1 ∧ s'.issuedNow = [] ∧ s'.tiles = s.tiles ∧ s'.mem = s.mem))

/-- R165 with the model's canonical form of memory (log 2): a step keeps the list of its bytes in strictly rising order of addresses, with no byte of RAM listed that reads as an
unlisted one, and its cached lines and stamps in order. -/
def Obligations.MemoryStaysCanonical : Prop := ∀ s s' : State, Machine.step s = .next s' → MemInv s → MemInv s'

/-- R25, R66, R70, R72, R97, R108, R137: what reset leaves: memory with nothing listed, no tile group, no feature accepted, boot before its first stage; the register maps' reset
values, and the rotation table and bank formats of a tile. -/
def Obligations.ResetState : Prop :=
  MemInv State.reset ∧ State.reset.mem.cells = [] ∧ State.reset.launches = [] ∧ State.reset.feats = 0 ∧ State.reset.boot.phase = 0 ∧ State.reset.agenda = [] ∧
  (∀ t, (State.reset.tile t).grp = none ∧ (State.reset.tile t).ctxs = [] ∧ (State.reset.tile t).rotLo = 0xFEDCBA9876543210 ∧
    (State.reset.tile t).rotHi = 0xFEDCBA9876543210 ∧ ∀ b < 3, (State.reset.tile t).bank.getD b 0 = 0x3F80000000000000) ∧
  (∀ v, State.reset.vfReg v 0x48 = 6 ∧ State.reset.vfReg v 0x50 = 0 ∧ State.reset.vfReg v 0x58 = 0) ∧
  State.reset.pfr 0x6800 = 1000000000 ∧ (∀ p < 64, State.reset.pfr (0xA000 + 8 * p) = 0x010204) ∧
  (∀ p < 64, State.reset.pfr (0x8040 + 128 * p) = 0 ∧ (State.reset.part p).enabled = false)

end
end

