-- ==== Sys2Proof/Laws/Table.lean ====
section
/-!
SUPPORT. Sparse tables and fixed arrays: reading after writing, and the order of the keys.
-/
namespace Sys2Proof

theorem Tbl.find?_put_same {α : Type} (t : Table α) (k : Nat) (v : α) : Tbl.find? (Tbl.put t k v) k = some v := by
  induction t with
  | nil => simp [Tbl.put, Tbl.find?]
  | cons p t ih =>
    obtain ⟨j, w⟩ := p
    unfold Tbl.put
    split
    · simp [Tbl.find?]
    · split
      · simp [Tbl.find?]
      · rename_i h1 h2; simp [Tbl.find?, h1, h2, ih]

theorem Tbl.find?_put_other {α : Type} (t : Table α) {k j : Nat} (v : α) (h : j ≠ k) : Tbl.find? (Tbl.put t k v) j = Tbl.find? t j := by
  induction t with
  | nil => simp [Tbl.put, Tbl.find?, Ne.symm h]
  | cons p t ih =>
    obtain ⟨i, w⟩ := p
    unfold Tbl.put
    split
    · rename_i e; subst e; simp [Tbl.find?, Ne.symm h]
    · split
      · rename_i h1 h2
        by_cases e : j < k
        · have : i ≠ j := by omega
          have : j < i := by omega
          simp [Tbl.find?, Ne.symm h, *]
        · simp [Tbl.find?, Ne.symm h, e]
      · simp only [Tbl.find?, ih]

theorem Tbl.find?_put {α : Type} (t : Table α) (k j : Nat) (v : α) : Tbl.find? (Tbl.put t k v) j = if j = k then some v else Tbl.find? t j := by
  split
  · rename_i e; rw [e, Tbl.find?_put_same]
  · rename_i e; exact Tbl.find?_put_other t v e

@[simp] theorem Tbl.getD_put_same {α : Type} (t : Table α) (k : Nat) (v d : α) : Tbl.getD (Tbl.put t k v) k d = v := by
  simp [Tbl.getD, Tbl.find?_put_same]

theorem Tbl.getD_put_other {α : Type} (t : Table α) {k j : Nat} (v d : α) (h : j ≠ k) : Tbl.getD (Tbl.put t k v) j d = Tbl.getD t j d := by
  simp [Tbl.getD, Tbl.find?_put_other t v h]

theorem Tbl.getD_put {α : Type} (t : Table α) (k j : Nat) (v d : α) : Tbl.getD (Tbl.put t k v) j d = if j = k then v else Tbl.getD t j d := by
  split
  · rename_i e; rw [e, Tbl.getD_put_same]
  · rename_i e; exact Tbl.getD_put_other t v d e

/-- Every key of an ordered table is above a bound. -/
theorem Tbl.find?_below {α : Type} {t : Table α} {j k : Nat} {v : α} (h : Tbl.ordered ((j, v) :: t) = true) (hk : k ≤ j) : Tbl.find? t k = none := by
  cases t with
  | nil => rfl
  | cons p t =>
    obtain ⟨i, w⟩ := p
    simp only [Tbl.ordered, Bool.and_eq_true, decide_eq_true_eq] at h
    have : i ≠ k := by omega
    have : k < i := by omega
    simp [Tbl.find?, *]

theorem Tbl.ordered_tail {α : Type} {t : Table α} {p : Nat × α} (h : Tbl.ordered (p :: t) = true) : Tbl.ordered t = true := by
  cases t with
  | nil => rfl
  | cons q t => obtain ⟨j, v⟩ := p; obtain ⟨k, w⟩ := q; simp only [Tbl.ordered, Bool.and_eq_true] at h; exact h.2

theorem Tbl.ordered_cons {α : Type} {j k : Nat} {v w : α} {t : Table α} : Tbl.ordered ((j, v) :: (k, w) :: t) = true ↔ j < k ∧ Tbl.ordered ((k, w) :: t) = true := by
  simp [Tbl.ordered]

theorem Tbl.ordered_head {α : Type} {j : Nat} {v w : α} {t : Table α} (h : Tbl.ordered ((j, v) :: t) = true) : Tbl.ordered ((j, w) :: t) = true := by
  cases t with
  | nil => rfl
  | cons q t => obtain ⟨k, x⟩ := q; rw [Tbl.ordered_cons] at h ⊢; exact h

theorem Tbl.ordered_put_aux {α : Type} (t : Table α) (k : Nat) (v : α) (h : Tbl.ordered t = true) :
    Tbl.ordered (Tbl.put t k v) = true ∧ ∀ j w, j < k → Tbl.ordered ((j, w) :: t) = true → Tbl.ordered ((j, w) :: Tbl.put t k v) = true := by
  induction t with
  | nil =>
    refine ⟨rfl, fun j w hj _ => ?_⟩
    show Tbl.ordered ((j, w) :: [(k, v)]) = true
    rw [Tbl.ordered_cons]; exact ⟨hj, rfl⟩
  | cons p t ih =>
    obtain ⟨i, x⟩ := p
    have ih := ih (Tbl.ordered_tail h)
    unfold Tbl.put
    split
    · rename_i e; subst e
      refine ⟨Tbl.ordered_head h, fun j w hj _ => ?_⟩
      rw [Tbl.ordered_cons]; exact ⟨hj, Tbl.ordered_head h⟩
    · split
      · rename_i h1 h2
        refine ⟨by rw [Tbl.ordered_cons]; exact ⟨h2, h⟩, fun j w hj _ => ?_⟩
        rw [Tbl.ordered_cons, Tbl.ordered_cons]; exact ⟨hj, h2, h⟩
      · rename_i h1 h2
        have lt : i < k := by omega
        have a := ih.2 i x lt h
        refine ⟨a, fun j w _ hh => ?_⟩
        rw [Tbl.ordered_cons] at hh ⊢
        exact ⟨hh.1, a⟩

/-- Writing an entry keeps the keys in order. -/
theorem Tbl.ordered_put {α : Type} {t : Table α} (k : Nat) (v : α) (h : Tbl.ordered t = true) : Tbl.ordered (Tbl.put t k v) = true :=
  (Tbl.ordered_put_aux t k v h).1

theorem Tbl.ordered_erase_aux {α : Type} (t : Table α) (k : Nat) (h : Tbl.ordered t = true) :
    Tbl.ordered (Tbl.erase t k) = true ∧ ∀ j w, Tbl.ordered ((j, w) :: t) = true → Tbl.ordered ((j, w) :: Tbl.erase t k) = true := by
  induction t with
  | nil => exact ⟨rfl, fun _ _ h => h⟩
  | cons p t ih =>
    obtain ⟨i, x⟩ := p
    have ih := ih (Tbl.ordered_tail h)
    unfold Tbl.erase
    split
    · refine ⟨Tbl.ordered_tail h, fun j w hh => ?_⟩
      cases t with
      | nil => rfl
      | cons q t =>
        obtain ⟨l, y⟩ := q
        rw [Tbl.ordered_cons, Tbl.ordered_cons] at hh
        rw [Tbl.ordered_cons]
        exact ⟨by omega, hh.2.2⟩
    · split
      · exact ⟨h, fun _ _ hh => hh⟩
      · have a := ih.2 i x h
        refine ⟨a, fun j w hh => ?_⟩
        rw [Tbl.ordered_cons] at hh ⊢
        exact ⟨hh.1, a⟩

/-- Taking an entry out keeps the keys in order. -/
theorem Tbl.ordered_erase {α : Type} {t : Table α} (k : Nat) (h : Tbl.ordered t = true) : Tbl.ordered (Tbl.erase t k) = true :=
  (Tbl.ordered_erase_aux t k h).1

theorem Tbl.find?_erase_other {α : Type} (t : Table α) {k j : Nat} (h : j ≠ k) (ho : Tbl.ordered t = true) : Tbl.find? (Tbl.erase t k) j = Tbl.find? t j := by
  induction t with
  | nil => rfl
  | cons p t ih =>
    obtain ⟨i, x⟩ := p
    have ih := ih (Tbl.ordered_tail ho)
    unfold Tbl.erase
    split
    · rename_i e; subst e
      by_cases hj : j < i
      · rw [Tbl.find?_below ho (by omega)]; simp [Tbl.find?, Ne.symm h, hj]
      · simp [Tbl.find?, Ne.symm h, hj]
    · split
      · rfl
      · simp only [Tbl.find?, ih]

theorem Tbl.find?_erase_same {α : Type} (t : Table α) (k : Nat) (ho : Tbl.ordered t = true) : Tbl.find? (Tbl.erase t k) k = none := by
  induction t with
  | nil => rfl
  | cons p t ih =>
    obtain ⟨i, x⟩ := p
    have ih := ih (Tbl.ordered_tail ho)
    unfold Tbl.erase
    split
    · rename_i e; subst e; exact Tbl.find?_below ho (Nat.le_refl _)
    · split
      · rename_i h1 h2; simp [Tbl.find?, h1, h2]
      · rename_i h1 h2; simp [Tbl.find?, h1, h2, ih]

/-! ## Fixed arrays -/

@[simp] theorem Fixed.getD_set_same {α : Type} {n : Nat} (f : Fixed α n) (i : Nat) (v d : α) (h : i < n) : (f.set i v).getD i d = v := by
  have : i < f.els.length := by rw [f.len]; exact h
  simp [Fixed.getD, Fixed.set, List.getD, this]

theorem Fixed.getD_set_other {α : Type} {n : Nat} (f : Fixed α n) {i j : Nat} (v d : α) (h : j ≠ i) : (f.set i v).getD j d = f.getD j d := by
  simp [Fixed.getD, Fixed.set, List.getD, List.getElem?_set_ne (Ne.symm h)]

end Sys2Proof
end

