-- ==== Sys2Proof/Laws/State.lean ====
section
/-!
SUPPORT. What each update of the state leaves: one lemma per field per update, and what the places read after an update.
-/
namespace Sys2Proof.Machine

/-! ## setTile -/

@[simp] theorem State.setTile_cyc (s : State) (t : Nat) (v : Tile) : (s.setTile t v).cyc = s.cyc := rfl
@[simp] theorem State.setTile_agenda (s : State) (t : Nat) (v : Tile) : (s.setTile t v).agenda = s.agenda := rfl
@[simp] theorem State.setTile_issuedNow (s : State) (t : Nat) (v : Tile) : (s.setTile t v).issuedNow = s.issuedNow := rfl
@[simp] theorem State.setTile_cur (s : State) (t : Nat) (v : Tile) : (s.setTile t v).cur = s.cur := rfl
@[simp] theorem State.setTile_nextId (s : State) (t : Nat) (v : Tile) : (s.setTile t v).nextId = s.nextId := rfl
@[simp] theorem State.setTile_uses (s : State) (t : Nat) (v : Tile) : (s.setTile t v).uses = s.uses := rfl
@[simp] theorem State.setTile_pf (s : State) (t : Nat) (v : Tile) : (s.setTile t v).pf = s.pf := rfl
@[simp] theorem State.setTile_vfr (s : State) (t : Nat) (v : Tile) : (s.setTile t v).vfr = s.vfr := rfl
@[simp] theorem State.setTile_mem (s : State) (t : Nat) (v : Tile) : (s.setTile t v).mem = s.mem := rfl
@[simp] theorem State.setTile_reqs (s : State) (t : Nat) (v : Tile) : (s.setTile t v).reqs = s.reqs := rfl
@[simp] theorem State.setTile_counts (s : State) (t : Nat) (v : Tile) : (s.setTile t v).counts = s.counts := rfl
@[simp] theorem State.setTile_tlb2 (s : State) (t : Nat) (v : Tile) : (s.setTile t v).tlb2 = s.tlb2 := rfl
@[simp] theorem State.setTile_faults (s : State) (t : Nat) (v : Tile) : (s.setTile t v).faults = s.faults := rfl
@[simp] theorem State.setTile_combine (s : State) (t : Nat) (v : Tile) : (s.setTile t v).combine = s.combine := rfl
@[simp] theorem State.setTile_launches (s : State) (t : Nat) (v : Tile) : (s.setTile t v).launches = s.launches := rfl
@[simp] theorem State.setTile_trapqs (s : State) (t : Nat) (v : Tile) : (s.setTile t v).trapqs = s.trapqs := rfl
@[simp] theorem State.setTile_copyMsgs (s : State) (t : Nat) (v : Tile) : (s.setTile t v).copyMsgs = s.copyMsgs := rfl
@[simp] theorem State.setTile_queues (s : State) (t : Nat) (v : Tile) : (s.setTile t v).queues = s.queues := rfl
@[simp] theorem State.setTile_cwords (s : State) (t : Nat) (v : Tile) : (s.setTile t v).cwords = s.cwords := rfl
@[simp] theorem State.setTile_flits (s : State) (t : Nat) (v : Tile) : (s.setTile t v).flits = s.flits := rfl
@[simp] theorem State.setTile_rmsgs (s : State) (t : Nat) (v : Tile) : (s.setTile t v).rmsgs = s.rmsgs := rfl
@[simp] theorem State.setTile_rreads (s : State) (t : Nat) (v : Tile) : (s.setTile t v).rreads = s.rreads := rfl
@[simp] theorem State.setTile_steps (s : State) (t : Nat) (v : Tile) : (s.setTile t v).steps = s.steps := rfl
@[simp] theorem State.setTile_collCur (s : State) (t : Nat) (v : Tile) : (s.setTile t v).collCur = s.collCur := rfl
@[simp] theorem State.setTile_arrived (s : State) (t : Nat) (v : Tile) : (s.setTile t v).arrived = s.arrived := rfl
@[simp] theorem State.setTile_ref6 (s : State) (t : Nat) (v : Tile) : (s.setTile t v).ref6 = s.ref6 := rfl
@[simp] theorem State.setTile_feats (s : State) (t : Nat) (v : Tile) : (s.setTile t v).feats = s.feats := rfl
@[simp] theorem State.setTile_parts (s : State) (t : Nat) (v : Tile) : (s.setTile t v).parts = s.parts := rfl
@[simp] theorem State.setTile_barWait (s : State) (t : Nat) (v : Tile) : (s.setTile t v).barWait = s.barWait := rfl
@[simp] theorem State.setTile_boot (s : State) (t : Nat) (v : Tile) : (s.setTile t v).boot = s.boot := rfl
@[simp] theorem State.setTile_power (s : State) (t : Nat) (v : Tile) : (s.setTile t v).power = s.power := rfl
@[simp] theorem State.setTile_msix (s : State) (t : Nat) (v : Tile) : (s.setTile t v).msix = s.msix := rfl
@[simp] theorem State.setTile_gated (s : State) (t : Nat) (v : Tile) : (s.setTile t v).gated = s.gated := rfl
@[simp] theorem State.setTile_gate (s : State) (t : Nat) (v : Tile) : (s.setTile t v).gate = s.gate := rfl
@[simp] theorem State.setTile_endpoints (s : State) (t : Nat) (v : Tile) : (s.setTile t v).endpoints = s.endpoints := rfl
@[simp] theorem State.setTile_domains (s : State) (t : Nat) (v : Tile) : (s.setTile t v).domains = s.domains := rfl
@[simp] theorem State.setTile_rx (s : State) (t : Nat) (v : Tile) : (s.setTile t v).rx = s.rx := rfl
@[simp] theorem State.setTile_tx (s : State) (t : Nat) (v : Tile) : (s.setTile t v).tx = s.tx := rfl
@[simp] theorem State.setTile_wire (s : State) (t : Nat) (v : Tile) : (s.setTile t v).wire = s.wire := rfl
@[simp] theorem State.setTile_pdcs (s : State) (t : Nat) (v : Tile) : (s.setTile t v).pdcs = s.pdcs := rfl
@[simp] theorem State.setTile_heldPackets (s : State) (t : Nat) (v : Tile) : (s.setTile t v).heldPackets = s.heldPackets := rfl
@[simp] theorem State.setTile_combining (s : State) (t : Nat) (v : Tile) : (s.setTile t v).combining = s.combining := rfl
@[simp] theorem State.setTile_evBad (s : State) (t : Nat) (v : Tile) : (s.setTile t v).evBad = s.evBad := rfl
@[simp] theorem State.setTile_ethDown (s : State) (t : Nat) (v : Tile) : (s.setTile t v).ethDown = s.ethDown := rfl
@[simp] theorem State.setTile_cxlDown (s : State) (t : Nat) (v : Tile) : (s.setTile t v).cxlDown = s.cxlDown := rfl
@[simp] theorem State.setTile_driverQs (s : State) (t : Nat) (v : Tile) : (s.setTile t v).driverQs = s.driverQs := rfl
@[simp] theorem State.setTile_pages (s : State) (t : Nat) (v : Tile) : (s.setTile t v).pages = s.pages := rfl
@[simp] theorem State.setTile_pageWait (s : State) (t : Nat) (v : Tile) : (s.setTile t v).pageWait = s.pageWait := rfl
@[simp] theorem State.setTile_pools (s : State) (t : Nat) (v : Tile) : (s.setTile t v).pools = s.pools := rfl
@[simp] theorem State.setTile_engAsids (s : State) (t : Nat) (v : Tile) : (s.setTile t v).engAsids = s.engAsids := rfl
@[simp] theorem State.setTile_ssdDown (s : State) (t : Nat) (v : Tile) : (s.setTile t v).ssdDown = s.ssdDown := rfl
@[simp] theorem State.setTile_windows (s : State) (t : Nat) (v : Tile) : (s.setTile t v).windows = s.windows := rfl
@[simp] theorem State.setTile_rings (s : State) (t : Nat) (v : Tile) : (s.setTile t v).rings = s.rings := rfl
@[simp] theorem State.setTile_handles (s : State) (t : Nat) (v : Tile) : (s.setTile t v).handles = s.handles := rfl
@[simp] theorem State.setTile_users (s : State) (t : Nat) (v : Tile) : (s.setTile t v).users = s.users := rfl
@[simp] theorem State.setTile_armed (s : State) (t : Nat) (v : Tile) : (s.setTile t v).armed = s.armed := rfl
@[simp] theorem State.setTile_shoot (s : State) (t : Nat) (v : Tile) : (s.setTile t v).shoot = s.shoot := rfl
@[simp] theorem State.setTile_stset (s : State) (t : Nat) (v : Tile) : (s.setTile t v).stset = s.stset := rfl
@[simp] theorem State.setTile_tset (s : State) (t : Nat) (v : Tile) : (s.setTile t v).tset = s.tset := rfl
@[simp] theorem State.setTile_slices (s : State) (t : Nat) (v : Tile) : (s.setTile t v).slices = s.slices := rfl
@[simp] theorem State.setTile_engLast (s : State) (t : Nat) (v : Tile) : (s.setTile t v).engLast = s.engLast := rfl
@[simp] theorem State.setTile_savedCopies (s : State) (t : Nat) (v : Tile) : (s.setTile t v).savedCopies = s.savedCopies := rfl
@[simp] theorem State.setTile_reads (s : State) (t : Nat) (v : Tile) : (s.setTile t v).reads = s.reads := rfl

/-! ## updTile -/

@[simp] theorem State.updTile_cyc (s : State) (t : Nat) (f : Tile → Tile) : (s.updTile t f).cyc = s.cyc := rfl
@[simp] theorem State.updTile_agenda (s : State) (t : Nat) (f : Tile → Tile) : (s.updTile t f).agenda = s.agenda := rfl
@[simp] theorem State.updTile_issuedNow (s : State) (t : Nat) (f : Tile → Tile) : (s.updTile t f).issuedNow = s.issuedNow := rfl
@[simp] theorem State.updTile_cur (s : State) (t : Nat) (f : Tile → Tile) : (s.updTile t f).cur = s.cur := rfl
@[simp] theorem State.updTile_nextId (s : State) (t : Nat) (f : Tile → Tile) : (s.updTile t f).nextId = s.nextId := rfl
@[simp] theorem State.updTile_uses (s : State) (t : Nat) (f : Tile → Tile) : (s.updTile t f).uses = s.uses := rfl
@[simp] theorem State.updTile_pf (s : State) (t : Nat) (f : Tile → Tile) : (s.updTile t f).pf = s.pf := rfl
@[simp] theorem State.updTile_vfr (s : State) (t : Nat) (f : Tile → Tile) : (s.updTile t f).vfr = s.vfr := rfl
@[simp] theorem State.updTile_mem (s : State) (t : Nat) (f : Tile → Tile) : (s.updTile t f).mem = s.mem := rfl
@[simp] theorem State.updTile_reqs (s : State) (t : Nat) (f : Tile → Tile) : (s.updTile t f).reqs = s.reqs := rfl
@[simp] theorem State.updTile_counts (s : State) (t : Nat) (f : Tile → Tile) : (s.updTile t f).counts = s.counts := rfl
@[simp] theorem State.updTile_tlb2 (s : State) (t : Nat) (f : Tile → Tile) : (s.updTile t f).tlb2 = s.tlb2 := rfl
@[simp] theorem State.updTile_faults (s : State) (t : Nat) (f : Tile → Tile) : (s.updTile t f).faults = s.faults := rfl
@[simp] theorem State.updTile_combine (s : State) (t : Nat) (f : Tile → Tile) : (s.updTile t f).combine = s.combine := rfl
@[simp] theorem State.updTile_launches (s : State) (t : Nat) (f : Tile → Tile) : (s.updTile t f).launches = s.launches := rfl
@[simp] theorem State.updTile_trapqs (s : State) (t : Nat) (f : Tile → Tile) : (s.updTile t f).trapqs = s.trapqs := rfl
@[simp] theorem State.updTile_copyMsgs (s : State) (t : Nat) (f : Tile → Tile) : (s.updTile t f).copyMsgs = s.copyMsgs := rfl
@[simp] theorem State.updTile_queues (s : State) (t : Nat) (f : Tile → Tile) : (s.updTile t f).queues = s.queues := rfl
@[simp] theorem State.updTile_cwords (s : State) (t : Nat) (f : Tile → Tile) : (s.updTile t f).cwords = s.cwords := rfl
@[simp] theorem State.updTile_flits (s : State) (t : Nat) (f : Tile → Tile) : (s.updTile t f).flits = s.flits := rfl
@[simp] theorem State.updTile_rmsgs (s : State) (t : Nat) (f : Tile → Tile) : (s.updTile t f).rmsgs = s.rmsgs := rfl
@[simp] theorem State.updTile_rreads (s : State) (t : Nat) (f : Tile → Tile) : (s.updTile t f).rreads = s.rreads := rfl
@[simp] theorem State.updTile_steps (s : State) (t : Nat) (f : Tile → Tile) : (s.updTile t f).steps = s.steps := rfl
@[simp] theorem State.updTile_collCur (s : State) (t : Nat) (f : Tile → Tile) : (s.updTile t f).collCur = s.collCur := rfl
@[simp] theorem State.updTile_arrived (s : State) (t : Nat) (f : Tile → Tile) : (s.updTile t f).arrived = s.arrived := rfl
@[simp] theorem State.updTile_ref6 (s : State) (t : Nat) (f : Tile → Tile) : (s.updTile t f).ref6 = s.ref6 := rfl
@[simp] theorem State.updTile_feats (s : State) (t : Nat) (f : Tile → Tile) : (s.updTile t f).feats = s.feats := rfl
@[simp] theorem State.updTile_parts (s : State) (t : Nat) (f : Tile → Tile) : (s.updTile t f).parts = s.parts := rfl
@[simp] theorem State.updTile_barWait (s : State) (t : Nat) (f : Tile → Tile) : (s.updTile t f).barWait = s.barWait := rfl
@[simp] theorem State.updTile_boot (s : State) (t : Nat) (f : Tile → Tile) : (s.updTile t f).boot = s.boot := rfl
@[simp] theorem State.updTile_power (s : State) (t : Nat) (f : Tile → Tile) : (s.updTile t f).power = s.power := rfl
@[simp] theorem State.updTile_msix (s : State) (t : Nat) (f : Tile → Tile) : (s.updTile t f).msix = s.msix := rfl
@[simp] theorem State.updTile_gated (s : State) (t : Nat) (f : Tile → Tile) : (s.updTile t f).gated = s.gated := rfl
@[simp] theorem State.updTile_gate (s : State) (t : Nat) (f : Tile → Tile) : (s.updTile t f).gate = s.gate := rfl
@[simp] theorem State.updTile_endpoints (s : State) (t : Nat) (f : Tile → Tile) : (s.updTile t f).endpoints = s.endpoints := rfl
@[simp] theorem State.updTile_domains (s : State) (t : Nat) (f : Tile → Tile) : (s.updTile t f).domains = s.domains := rfl
@[simp] theorem State.updTile_rx (s : State) (t : Nat) (f : Tile → Tile) : (s.updTile t f).rx = s.rx := rfl
@[simp] theorem State.updTile_tx (s : State) (t : Nat) (f : Tile → Tile) : (s.updTile t f).tx = s.tx := rfl
@[simp] theorem State.updTile_wire (s : State) (t : Nat) (f : Tile → Tile) : (s.updTile t f).wire = s.wire := rfl
@[simp] theorem State.updTile_pdcs (s : State) (t : Nat) (f : Tile → Tile) : (s.updTile t f).pdcs = s.pdcs := rfl
@[simp] theorem State.updTile_heldPackets (s : State) (t : Nat) (f : Tile → Tile) : (s.updTile t f).heldPackets = s.heldPackets := rfl
@[simp] theorem State.updTile_combining (s : State) (t : Nat) (f : Tile → Tile) : (s.updTile t f).combining = s.combining := rfl
@[simp] theorem State.updTile_evBad (s : State) (t : Nat) (f : Tile → Tile) : (s.updTile t f).evBad = s.evBad := rfl
@[simp] theorem State.updTile_ethDown (s : State) (t : Nat) (f : Tile → Tile) : (s.updTile t f).ethDown = s.ethDown := rfl
@[simp] theorem State.updTile_cxlDown (s : State) (t : Nat) (f : Tile → Tile) : (s.updTile t f).cxlDown = s.cxlDown := rfl
@[simp] theorem State.updTile_driverQs (s : State) (t : Nat) (f : Tile → Tile) : (s.updTile t f).driverQs = s.driverQs := rfl
@[simp] theorem State.updTile_pages (s : State) (t : Nat) (f : Tile → Tile) : (s.updTile t f).pages = s.pages := rfl
@[simp] theorem State.updTile_pageWait (s : State) (t : Nat) (f : Tile → Tile) : (s.updTile t f).pageWait = s.pageWait := rfl
@[simp] theorem State.updTile_pools (s : State) (t : Nat) (f : Tile → Tile) : (s.updTile t f).pools = s.pools := rfl
@[simp] theorem State.updTile_engAsids (s : State) (t : Nat) (f : Tile → Tile) : (s.updTile t f).engAsids = s.engAsids := rfl
@[simp] theorem State.updTile_ssdDown (s : State) (t : Nat) (f : Tile → Tile) : (s.updTile t f).ssdDown = s.ssdDown := rfl
@[simp] theorem State.updTile_windows (s : State) (t : Nat) (f : Tile → Tile) : (s.updTile t f).windows = s.windows := rfl
@[simp] theorem State.updTile_rings (s : State) (t : Nat) (f : Tile → Tile) : (s.updTile t f).rings = s.rings := rfl
@[simp] theorem State.updTile_handles (s : State) (t : Nat) (f : Tile → Tile) : (s.updTile t f).handles = s.handles := rfl
@[simp] theorem State.updTile_users (s : State) (t : Nat) (f : Tile → Tile) : (s.updTile t f).users = s.users := rfl
@[simp] theorem State.updTile_armed (s : State) (t : Nat) (f : Tile → Tile) : (s.updTile t f).armed = s.armed := rfl
@[simp] theorem State.updTile_shoot (s : State) (t : Nat) (f : Tile → Tile) : (s.updTile t f).shoot = s.shoot := rfl
@[simp] theorem State.updTile_stset (s : State) (t : Nat) (f : Tile → Tile) : (s.updTile t f).stset = s.stset := rfl
@[simp] theorem State.updTile_tset (s : State) (t : Nat) (f : Tile → Tile) : (s.updTile t f).tset = s.tset := rfl
@[simp] theorem State.updTile_slices (s : State) (t : Nat) (f : Tile → Tile) : (s.updTile t f).slices = s.slices := rfl
@[simp] theorem State.updTile_engLast (s : State) (t : Nat) (f : Tile → Tile) : (s.updTile t f).engLast = s.engLast := rfl
@[simp] theorem State.updTile_savedCopies (s : State) (t : Nat) (f : Tile → Tile) : (s.updTile t f).savedCopies = s.savedCopies := rfl
@[simp] theorem State.updTile_reads (s : State) (t : Nat) (f : Tile → Tile) : (s.updTile t f).reads = s.reads := rfl

/-! ## updCtx -/

@[simp] theorem State.updCtx_cyc (s : State) (t c : Nat) (f : Ctx → Ctx) : (s.updCtx t c f).cyc = s.cyc := rfl
@[simp] theorem State.updCtx_agenda (s : State) (t c : Nat) (f : Ctx → Ctx) : (s.updCtx t c f).agenda = s.agenda := rfl
@[simp] theorem State.updCtx_issuedNow (s : State) (t c : Nat) (f : Ctx → Ctx) : (s.updCtx t c f).issuedNow = s.issuedNow := rfl
@[simp] theorem State.updCtx_cur (s : State) (t c : Nat) (f : Ctx → Ctx) : (s.updCtx t c f).cur = s.cur := rfl
@[simp] theorem State.updCtx_nextId (s : State) (t c : Nat) (f : Ctx → Ctx) : (s.updCtx t c f).nextId = s.nextId := rfl
@[simp] theorem State.updCtx_uses (s : State) (t c : Nat) (f : Ctx → Ctx) : (s.updCtx t c f).uses = s.uses := rfl
@[simp] theorem State.updCtx_pf (s : State) (t c : Nat) (f : Ctx → Ctx) : (s.updCtx t c f).pf = s.pf := rfl
@[simp] theorem State.updCtx_vfr (s : State) (t c : Nat) (f : Ctx → Ctx) : (s.updCtx t c f).vfr = s.vfr := rfl
@[simp] theorem State.updCtx_mem (s : State) (t c : Nat) (f : Ctx → Ctx) : (s.updCtx t c f).mem = s.mem := rfl
@[simp] theorem State.updCtx_reqs (s : State) (t c : Nat) (f : Ctx → Ctx) : (s.updCtx t c f).reqs = s.reqs := rfl
@[simp] theorem State.updCtx_counts (s : State) (t c : Nat) (f : Ctx → Ctx) : (s.updCtx t c f).counts = s.counts := rfl
@[simp] theorem State.updCtx_tlb2 (s : State) (t c : Nat) (f : Ctx → Ctx) : (s.updCtx t c f).tlb2 = s.tlb2 := rfl
@[simp] theorem State.updCtx_faults (s : State) (t c : Nat) (f : Ctx → Ctx) : (s.updCtx t c f).faults = s.faults := rfl
@[simp] theorem State.updCtx_combine (s : State) (t c : Nat) (f : Ctx → Ctx) : (s.updCtx t c f).combine = s.combine := rfl
@[simp] theorem State.updCtx_launches (s : State) (t c : Nat) (f : Ctx → Ctx) : (s.updCtx t c f).launches = s.launches := rfl
@[simp] theorem State.updCtx_trapqs (s : State) (t c : Nat) (f : Ctx → Ctx) : (s.updCtx t c f).trapqs = s.trapqs := rfl
@[simp] theorem State.updCtx_copyMsgs (s : State) (t c : Nat) (f : Ctx → Ctx) : (s.updCtx t c f).copyMsgs = s.copyMsgs := rfl
@[simp] theorem State.updCtx_queues (s : State) (t c : Nat) (f : Ctx → Ctx) : (s.updCtx t c f).queues = s.queues := rfl
@[simp] theorem State.updCtx_cwords (s : State) (t c : Nat) (f : Ctx → Ctx) : (s.updCtx t c f).cwords = s.cwords := rfl
@[simp] theorem State.updCtx_flits (s : State) (t c : Nat) (f : Ctx → Ctx) : (s.updCtx t c f).flits = s.flits := rfl
@[simp] theorem State.updCtx_rmsgs (s : State) (t c : Nat) (f : Ctx → Ctx) : (s.updCtx t c f).rmsgs = s.rmsgs := rfl
@[simp] theorem State.updCtx_rreads (s : State) (t c : Nat) (f : Ctx → Ctx) : (s.updCtx t c f).rreads = s.rreads := rfl
@[simp] theorem State.updCtx_steps (s : State) (t c : Nat) (f : Ctx → Ctx) : (s.updCtx t c f).steps = s.steps := rfl
@[simp] theorem State.updCtx_collCur (s : State) (t c : Nat) (f : Ctx → Ctx) : (s.updCtx t c f).collCur = s.collCur := rfl
@[simp] theorem State.updCtx_arrived (s : State) (t c : Nat) (f : Ctx → Ctx) : (s.updCtx t c f).arrived = s.arrived := rfl
@[simp] theorem State.updCtx_ref6 (s : State) (t c : Nat) (f : Ctx → Ctx) : (s.updCtx t c f).ref6 = s.ref6 := rfl
@[simp] theorem State.updCtx_feats (s : State) (t c : Nat) (f : Ctx → Ctx) : (s.updCtx t c f).feats = s.feats := rfl
@[simp] theorem State.updCtx_parts (s : State) (t c : Nat) (f : Ctx → Ctx) : (s.updCtx t c f).parts = s.parts := rfl
@[simp] theorem State.updCtx_barWait (s : State) (t c : Nat) (f : Ctx → Ctx) : (s.updCtx t c f).barWait = s.barWait := rfl
@[simp] theorem State.updCtx_boot (s : State) (t c : Nat) (f : Ctx → Ctx) : (s.updCtx t c f).boot = s.boot := rfl
@[simp] theorem State.updCtx_power (s : State) (t c : Nat) (f : Ctx → Ctx) : (s.updCtx t c f).power = s.power := rfl
@[simp] theorem State.updCtx_msix (s : State) (t c : Nat) (f : Ctx → Ctx) : (s.updCtx t c f).msix = s.msix := rfl
@[simp] theorem State.updCtx_gated (s : State) (t c : Nat) (f : Ctx → Ctx) : (s.updCtx t c f).gated = s.gated := rfl
@[simp] theorem State.updCtx_gate (s : State) (t c : Nat) (f : Ctx → Ctx) : (s.updCtx t c f).gate = s.gate := rfl
@[simp] theorem State.updCtx_endpoints (s : State) (t c : Nat) (f : Ctx → Ctx) : (s.updCtx t c f).endpoints = s.endpoints := rfl
@[simp] theorem State.updCtx_domains (s : State) (t c : Nat) (f : Ctx → Ctx) : (s.updCtx t c f).domains = s.domains := rfl
@[simp] theorem State.updCtx_rx (s : State) (t c : Nat) (f : Ctx → Ctx) : (s.updCtx t c f).rx = s.rx := rfl
@[simp] theorem State.updCtx_tx (s : State) (t c : Nat) (f : Ctx → Ctx) : (s.updCtx t c f).tx = s.tx := rfl
@[simp] theorem State.updCtx_wire (s : State) (t c : Nat) (f : Ctx → Ctx) : (s.updCtx t c f).wire = s.wire := rfl
@[simp] theorem State.updCtx_pdcs (s : State) (t c : Nat) (f : Ctx → Ctx) : (s.updCtx t c f).pdcs = s.pdcs := rfl
@[simp] theorem State.updCtx_heldPackets (s : State) (t c : Nat) (f : Ctx → Ctx) : (s.updCtx t c f).heldPackets = s.heldPackets := rfl
@[simp] theorem State.updCtx_combining (s : State) (t c : Nat) (f : Ctx → Ctx) : (s.updCtx t c f).combining = s.combining := rfl
@[simp] theorem State.updCtx_evBad (s : State) (t c : Nat) (f : Ctx → Ctx) : (s.updCtx t c f).evBad = s.evBad := rfl
@[simp] theorem State.updCtx_ethDown (s : State) (t c : Nat) (f : Ctx → Ctx) : (s.updCtx t c f).ethDown = s.ethDown := rfl
@[simp] theorem State.updCtx_cxlDown (s : State) (t c : Nat) (f : Ctx → Ctx) : (s.updCtx t c f).cxlDown = s.cxlDown := rfl
@[simp] theorem State.updCtx_driverQs (s : State) (t c : Nat) (f : Ctx → Ctx) : (s.updCtx t c f).driverQs = s.driverQs := rfl
@[simp] theorem State.updCtx_pages (s : State) (t c : Nat) (f : Ctx → Ctx) : (s.updCtx t c f).pages = s.pages := rfl
@[simp] theorem State.updCtx_pageWait (s : State) (t c : Nat) (f : Ctx → Ctx) : (s.updCtx t c f).pageWait = s.pageWait := rfl
@[simp] theorem State.updCtx_pools (s : State) (t c : Nat) (f : Ctx → Ctx) : (s.updCtx t c f).pools = s.pools := rfl
@[simp] theorem State.updCtx_engAsids (s : State) (t c : Nat) (f : Ctx → Ctx) : (s.updCtx t c f).engAsids = s.engAsids := rfl
@[simp] theorem State.updCtx_ssdDown (s : State) (t c : Nat) (f : Ctx → Ctx) : (s.updCtx t c f).ssdDown = s.ssdDown := rfl
@[simp] theorem State.updCtx_windows (s : State) (t c : Nat) (f : Ctx → Ctx) : (s.updCtx t c f).windows = s.windows := rfl
@[simp] theorem State.updCtx_rings (s : State) (t c : Nat) (f : Ctx → Ctx) : (s.updCtx t c f).rings = s.rings := rfl
@[simp] theorem State.updCtx_handles (s : State) (t c : Nat) (f : Ctx → Ctx) : (s.updCtx t c f).handles = s.handles := rfl
@[simp] theorem State.updCtx_users (s : State) (t c : Nat) (f : Ctx → Ctx) : (s.updCtx t c f).users = s.users := rfl
@[simp] theorem State.updCtx_armed (s : State) (t c : Nat) (f : Ctx → Ctx) : (s.updCtx t c f).armed = s.armed := rfl
@[simp] theorem State.updCtx_shoot (s : State) (t c : Nat) (f : Ctx → Ctx) : (s.updCtx t c f).shoot = s.shoot := rfl
@[simp] theorem State.updCtx_stset (s : State) (t c : Nat) (f : Ctx → Ctx) : (s.updCtx t c f).stset = s.stset := rfl
@[simp] theorem State.updCtx_tset (s : State) (t c : Nat) (f : Ctx → Ctx) : (s.updCtx t c f).tset = s.tset := rfl
@[simp] theorem State.updCtx_slices (s : State) (t c : Nat) (f : Ctx → Ctx) : (s.updCtx t c f).slices = s.slices := rfl
@[simp] theorem State.updCtx_engLast (s : State) (t c : Nat) (f : Ctx → Ctx) : (s.updCtx t c f).engLast = s.engLast := rfl
@[simp] theorem State.updCtx_savedCopies (s : State) (t c : Nat) (f : Ctx → Ctx) : (s.updCtx t c f).savedCopies = s.savedCopies := rfl
@[simp] theorem State.updCtx_reads (s : State) (t c : Nat) (f : Ctx → Ctx) : (s.updCtx t c f).reads = s.reads := rfl

/-! ## raise -/

@[simp] theorem State.raise_cyc (s : State) (fn vec : Nat) : (s.raise fn vec).cyc = s.cyc := rfl
@[simp] theorem State.raise_agenda (s : State) (fn vec : Nat) : (s.raise fn vec).agenda = s.agenda := rfl
@[simp] theorem State.raise_issuedNow (s : State) (fn vec : Nat) : (s.raise fn vec).issuedNow = s.issuedNow := rfl
@[simp] theorem State.raise_cur (s : State) (fn vec : Nat) : (s.raise fn vec).cur = s.cur := rfl
@[simp] theorem State.raise_nextId (s : State) (fn vec : Nat) : (s.raise fn vec).nextId = s.nextId := rfl
@[simp] theorem State.raise_uses (s : State) (fn vec : Nat) : (s.raise fn vec).uses = s.uses := rfl
@[simp] theorem State.raise_pf (s : State) (fn vec : Nat) : (s.raise fn vec).pf = s.pf := rfl
@[simp] theorem State.raise_vfr (s : State) (fn vec : Nat) : (s.raise fn vec).vfr = s.vfr := rfl
@[simp] theorem State.raise_mem (s : State) (fn vec : Nat) : (s.raise fn vec).mem = s.mem := rfl
@[simp] theorem State.raise_tiles (s : State) (fn vec : Nat) : (s.raise fn vec).tiles = s.tiles := rfl
@[simp] theorem State.raise_reqs (s : State) (fn vec : Nat) : (s.raise fn vec).reqs = s.reqs := rfl
@[simp] theorem State.raise_counts (s : State) (fn vec : Nat) : (s.raise fn vec).counts = s.counts := rfl
@[simp] theorem State.raise_tlb2 (s : State) (fn vec : Nat) : (s.raise fn vec).tlb2 = s.tlb2 := rfl
@[simp] theorem State.raise_faults (s : State) (fn vec : Nat) : (s.raise fn vec).faults = s.faults := rfl
@[simp] theorem State.raise_combine (s : State) (fn vec : Nat) : (s.raise fn vec).combine = s.combine := rfl
@[simp] theorem State.raise_launches (s : State) (fn vec : Nat) : (s.raise fn vec).launches = s.launches := rfl
@[simp] theorem State.raise_trapqs (s : State) (fn vec : Nat) : (s.raise fn vec).trapqs = s.trapqs := rfl
@[simp] theorem State.raise_copyMsgs (s : State) (fn vec : Nat) : (s.raise fn vec).copyMsgs = s.copyMsgs := rfl
@[simp] theorem State.raise_queues (s : State) (fn vec : Nat) : (s.raise fn vec).queues = s.queues := rfl
@[simp] theorem State.raise_cwords (s : State) (fn vec : Nat) : (s.raise fn vec).cwords = s.cwords := rfl
@[simp] theorem State.raise_flits (s : State) (fn vec : Nat) : (s.raise fn vec).flits = s.flits := rfl
@[simp] theorem State.raise_rmsgs (s : State) (fn vec : Nat) : (s.raise fn vec).rmsgs = s.rmsgs := rfl
@[simp] theorem State.raise_rreads (s : State) (fn vec : Nat) : (s.raise fn vec).rreads = s.rreads := rfl
@[simp] theorem State.raise_steps (s : State) (fn vec : Nat) : (s.raise fn vec).steps = s.steps := rfl
@[simp] theorem State.raise_collCur (s : State) (fn vec : Nat) : (s.raise fn vec).collCur = s.collCur := rfl
@[simp] theorem State.raise_arrived (s : State) (fn vec : Nat) : (s.raise fn vec).arrived = s.arrived := rfl
@[simp] theorem State.raise_ref6 (s : State) (fn vec : Nat) : (s.raise fn vec).ref6 = s.ref6 := rfl
@[simp] theorem State.raise_feats (s : State) (fn vec : Nat) : (s.raise fn vec).feats = s.feats := rfl
@[simp] theorem State.raise_parts (s : State) (fn vec : Nat) : (s.raise fn vec).parts = s.parts := rfl
@[simp] theorem State.raise_barWait (s : State) (fn vec : Nat) : (s.raise fn vec).barWait = s.barWait := rfl
@[simp] theorem State.raise_boot (s : State) (fn vec : Nat) : (s.raise fn vec).boot = s.boot := rfl
@[simp] theorem State.raise_power (s : State) (fn vec : Nat) : (s.raise fn vec).power = s.power := rfl
@[simp] theorem State.raise_gated (s : State) (fn vec : Nat) : (s.raise fn vec).gated = s.gated := rfl
@[simp] theorem State.raise_gate (s : State) (fn vec : Nat) : (s.raise fn vec).gate = s.gate := rfl
@[simp] theorem State.raise_endpoints (s : State) (fn vec : Nat) : (s.raise fn vec).endpoints = s.endpoints := rfl
@[simp] theorem State.raise_domains (s : State) (fn vec : Nat) : (s.raise fn vec).domains = s.domains := rfl
@[simp] theorem State.raise_rx (s : State) (fn vec : Nat) : (s.raise fn vec).rx = s.rx := rfl
@[simp] theorem State.raise_tx (s : State) (fn vec : Nat) : (s.raise fn vec).tx = s.tx := rfl
@[simp] theorem State.raise_wire (s : State) (fn vec : Nat) : (s.raise fn vec).wire = s.wire := rfl
@[simp] theorem State.raise_pdcs (s : State) (fn vec : Nat) : (s.raise fn vec).pdcs = s.pdcs := rfl
@[simp] theorem State.raise_heldPackets (s : State) (fn vec : Nat) : (s.raise fn vec).heldPackets = s.heldPackets := rfl
@[simp] theorem State.raise_combining (s : State) (fn vec : Nat) : (s.raise fn vec).combining = s.combining := rfl
@[simp] theorem State.raise_evBad (s : State) (fn vec : Nat) : (s.raise fn vec).evBad = s.evBad := rfl
@[simp] theorem State.raise_ethDown (s : State) (fn vec : Nat) : (s.raise fn vec).ethDown = s.ethDown := rfl
@[simp] theorem State.raise_cxlDown (s : State) (fn vec : Nat) : (s.raise fn vec).cxlDown = s.cxlDown := rfl
@[simp] theorem State.raise_driverQs (s : State) (fn vec : Nat) : (s.raise fn vec).driverQs = s.driverQs := rfl
@[simp] theorem State.raise_pages (s : State) (fn vec : Nat) : (s.raise fn vec).pages = s.pages := rfl
@[simp] theorem State.raise_pageWait (s : State) (fn vec : Nat) : (s.raise fn vec).pageWait = s.pageWait := rfl
@[simp] theorem State.raise_pools (s : State) (fn vec : Nat) : (s.raise fn vec).pools = s.pools := rfl
@[simp] theorem State.raise_engAsids (s : State) (fn vec : Nat) : (s.raise fn vec).engAsids = s.engAsids := rfl
@[simp] theorem State.raise_ssdDown (s : State) (fn vec : Nat) : (s.raise fn vec).ssdDown = s.ssdDown := rfl
@[simp] theorem State.raise_windows (s : State) (fn vec : Nat) : (s.raise fn vec).windows = s.windows := rfl
@[simp] theorem State.raise_rings (s : State) (fn vec : Nat) : (s.raise fn vec).rings = s.rings := rfl
@[simp] theorem State.raise_handles (s : State) (fn vec : Nat) : (s.raise fn vec).handles = s.handles := rfl
@[simp] theorem State.raise_users (s : State) (fn vec : Nat) : (s.raise fn vec).users = s.users := rfl
@[simp] theorem State.raise_armed (s : State) (fn vec : Nat) : (s.raise fn vec).armed = s.armed := rfl
@[simp] theorem State.raise_shoot (s : State) (fn vec : Nat) : (s.raise fn vec).shoot = s.shoot := rfl
@[simp] theorem State.raise_stset (s : State) (fn vec : Nat) : (s.raise fn vec).stset = s.stset := rfl
@[simp] theorem State.raise_tset (s : State) (fn vec : Nat) : (s.raise fn vec).tset = s.tset := rfl
@[simp] theorem State.raise_slices (s : State) (fn vec : Nat) : (s.raise fn vec).slices = s.slices := rfl
@[simp] theorem State.raise_engLast (s : State) (fn vec : Nat) : (s.raise fn vec).engLast = s.engLast := rfl
@[simp] theorem State.raise_savedCopies (s : State) (fn vec : Nat) : (s.raise fn vec).savedCopies = s.savedCopies := rfl
@[simp] theorem State.raise_reads (s : State) (fn vec : Nat) : (s.raise fn vec).reads = s.reads := rfl

/-! ## fresh -/

@[simp] theorem State.fresh_cyc (s : State) : s.fresh.cyc = s.cyc := rfl
@[simp] theorem State.fresh_agenda (s : State) : s.fresh.agenda = s.agenda := rfl
@[simp] theorem State.fresh_issuedNow (s : State) : s.fresh.issuedNow = s.issuedNow := rfl
@[simp] theorem State.fresh_cur (s : State) : s.fresh.cur = s.cur := rfl
@[simp] theorem State.fresh_uses (s : State) : s.fresh.uses = s.uses := rfl
@[simp] theorem State.fresh_pf (s : State) : s.fresh.pf = s.pf := rfl
@[simp] theorem State.fresh_vfr (s : State) : s.fresh.vfr = s.vfr := rfl
@[simp] theorem State.fresh_mem (s : State) : s.fresh.mem = s.mem := rfl
@[simp] theorem State.fresh_tiles (s : State) : s.fresh.tiles = s.tiles := rfl
@[simp] theorem State.fresh_reqs (s : State) : s.fresh.reqs = s.reqs := rfl
@[simp] theorem State.fresh_counts (s : State) : s.fresh.counts = s.counts := rfl
@[simp] theorem State.fresh_tlb2 (s : State) : s.fresh.tlb2 = s.tlb2 := rfl
@[simp] theorem State.fresh_faults (s : State) : s.fresh.faults = s.faults := rfl
@[simp] theorem State.fresh_combine (s : State) : s.fresh.combine = s.combine := rfl
@[simp] theorem State.fresh_launches (s : State) : s.fresh.launches = s.launches := rfl
@[simp] theorem State.fresh_trapqs (s : State) : s.fresh.trapqs = s.trapqs := rfl
@[simp] theorem State.fresh_copyMsgs (s : State) : s.fresh.copyMsgs = s.copyMsgs := rfl
@[simp] theorem State.fresh_queues (s : State) : s.fresh.queues = s.queues := rfl
@[simp] theorem State.fresh_cwords (s : State) : s.fresh.cwords = s.cwords := rfl
@[simp] theorem State.fresh_flits (s : State) : s.fresh.flits = s.flits := rfl
@[simp] theorem State.fresh_rmsgs (s : State) : s.fresh.rmsgs = s.rmsgs := rfl
@[simp] theorem State.fresh_rreads (s : State) : s.fresh.rreads = s.rreads := rfl
@[simp] theorem State.fresh_steps (s : State) : s.fresh.steps = s.steps := rfl
@[simp] theorem State.fresh_collCur (s : State) : s.fresh.collCur = s.collCur := rfl
@[simp] theorem State.fresh_arrived (s : State) : s.fresh.arrived = s.arrived := rfl
@[simp] theorem State.fresh_ref6 (s : State) : s.fresh.ref6 = s.ref6 := rfl
@[simp] theorem State.fresh_feats (s : State) : s.fresh.feats = s.feats := rfl
@[simp] theorem State.fresh_parts (s : State) : s.fresh.parts = s.parts := rfl
@[simp] theorem State.fresh_barWait (s : State) : s.fresh.barWait = s.barWait := rfl
@[simp] theorem State.fresh_boot (s : State) : s.fresh.boot = s.boot := rfl
@[simp] theorem State.fresh_power (s : State) : s.fresh.power = s.power := rfl
@[simp] theorem State.fresh_msix (s : State) : s.fresh.msix = s.msix := rfl
@[simp] theorem State.fresh_gated (s : State) : s.fresh.gated = s.gated := rfl
@[simp] theorem State.fresh_gate (s : State) : s.fresh.gate = s.gate := rfl
@[simp] theorem State.fresh_endpoints (s : State) : s.fresh.endpoints = s.endpoints := rfl
@[simp] theorem State.fresh_domains (s : State) : s.fresh.domains = s.domains := rfl
@[simp] theorem State.fresh_rx (s : State) : s.fresh.rx = s.rx := rfl
@[simp] theorem State.fresh_tx (s : State) : s.fresh.tx = s.tx := rfl
@[simp] theorem State.fresh_wire (s : State) : s.fresh.wire = s.wire := rfl
@[simp] theorem State.fresh_pdcs (s : State) : s.fresh.pdcs = s.pdcs := rfl
@[simp] theorem State.fresh_heldPackets (s : State) : s.fresh.heldPackets = s.heldPackets := rfl
@[simp] theorem State.fresh_combining (s : State) : s.fresh.combining = s.combining := rfl
@[simp] theorem State.fresh_evBad (s : State) : s.fresh.evBad = s.evBad := rfl
@[simp] theorem State.fresh_ethDown (s : State) : s.fresh.ethDown = s.ethDown := rfl
@[simp] theorem State.fresh_cxlDown (s : State) : s.fresh.cxlDown = s.cxlDown := rfl
@[simp] theorem State.fresh_driverQs (s : State) : s.fresh.driverQs = s.driverQs := rfl
@[simp] theorem State.fresh_pages (s : State) : s.fresh.pages = s.pages := rfl
@[simp] theorem State.fresh_pageWait (s : State) : s.fresh.pageWait = s.pageWait := rfl
@[simp] theorem State.fresh_pools (s : State) : s.fresh.pools = s.pools := rfl
@[simp] theorem State.fresh_engAsids (s : State) : s.fresh.engAsids = s.engAsids := rfl
@[simp] theorem State.fresh_ssdDown (s : State) : s.fresh.ssdDown = s.ssdDown := rfl
@[simp] theorem State.fresh_windows (s : State) : s.fresh.windows = s.windows := rfl
@[simp] theorem State.fresh_rings (s : State) : s.fresh.rings = s.rings := rfl
@[simp] theorem State.fresh_handles (s : State) : s.fresh.handles = s.handles := rfl
@[simp] theorem State.fresh_users (s : State) : s.fresh.users = s.users := rfl
@[simp] theorem State.fresh_armed (s : State) : s.fresh.armed = s.armed := rfl
@[simp] theorem State.fresh_shoot (s : State) : s.fresh.shoot = s.shoot := rfl
@[simp] theorem State.fresh_stset (s : State) : s.fresh.stset = s.stset := rfl
@[simp] theorem State.fresh_tset (s : State) : s.fresh.tset = s.tset := rfl
@[simp] theorem State.fresh_slices (s : State) : s.fresh.slices = s.slices := rfl
@[simp] theorem State.fresh_engLast (s : State) : s.fresh.engLast = s.engLast := rfl
@[simp] theorem State.fresh_savedCopies (s : State) : s.fresh.savedCopies = s.savedCopies := rfl
@[simp] theorem State.fresh_reads (s : State) : s.fresh.reads = s.reads := rfl

/-! ## setPf -/

@[simp] theorem State.setPf_cyc (s : State) (off : Nat) (v : Word) : (s.setPf off v).cyc = s.cyc := rfl
@[simp] theorem State.setPf_agenda (s : State) (off : Nat) (v : Word) : (s.setPf off v).agenda = s.agenda := rfl
@[simp] theorem State.setPf_issuedNow (s : State) (off : Nat) (v : Word) : (s.setPf off v).issuedNow = s.issuedNow := rfl
@[simp] theorem State.setPf_cur (s : State) (off : Nat) (v : Word) : (s.setPf off v).cur = s.cur := rfl
@[simp] theorem State.setPf_nextId (s : State) (off : Nat) (v : Word) : (s.setPf off v).nextId = s.nextId := rfl
@[simp] theorem State.setPf_uses (s : State) (off : Nat) (v : Word) : (s.setPf off v).uses = s.uses := rfl
@[simp] theorem State.setPf_vfr (s : State) (off : Nat) (v : Word) : (s.setPf off v).vfr = s.vfr := rfl
@[simp] theorem State.setPf_mem (s : State) (off : Nat) (v : Word) : (s.setPf off v).mem = s.mem := rfl
@[simp] theorem State.setPf_tiles (s : State) (off : Nat) (v : Word) : (s.setPf off v).tiles = s.tiles := rfl
@[simp] theorem State.setPf_reqs (s : State) (off : Nat) (v : Word) : (s.setPf off v).reqs = s.reqs := rfl
@[simp] theorem State.setPf_counts (s : State) (off : Nat) (v : Word) : (s.setPf off v).counts = s.counts := rfl
@[simp] theorem State.setPf_tlb2 (s : State) (off : Nat) (v : Word) : (s.setPf off v).tlb2 = s.tlb2 := rfl
@[simp] theorem State.setPf_faults (s : State) (off : Nat) (v : Word) : (s.setPf off v).faults = s.faults := rfl
@[simp] theorem State.setPf_combine (s : State) (off : Nat) (v : Word) : (s.setPf off v).combine = s.combine := rfl
@[simp] theorem State.setPf_launches (s : State) (off : Nat) (v : Word) : (s.setPf off v).launches = s.launches := rfl
@[simp] theorem State.setPf_trapqs (s : State) (off : Nat) (v : Word) : (s.setPf off v).trapqs = s.trapqs := rfl
@[simp] theorem State.setPf_copyMsgs (s : State) (off : Nat) (v : Word) : (s.setPf off v).copyMsgs = s.copyMsgs := rfl
@[simp] theorem State.setPf_queues (s : State) (off : Nat) (v : Word) : (s.setPf off v).queues = s.queues := rfl
@[simp] theorem State.setPf_cwords (s : State) (off : Nat) (v : Word) : (s.setPf off v).cwords = s.cwords := rfl
@[simp] theorem State.setPf_flits (s : State) (off : Nat) (v : Word) : (s.setPf off v).flits = s.flits := rfl
@[simp] theorem State.setPf_rmsgs (s : State) (off : Nat) (v : Word) : (s.setPf off v).rmsgs = s.rmsgs := rfl
@[simp] theorem State.setPf_rreads (s : State) (off : Nat) (v : Word) : (s.setPf off v).rreads = s.rreads := rfl
@[simp] theorem State.setPf_steps (s : State) (off : Nat) (v : Word) : (s.setPf off v).steps = s.steps := rfl
@[simp] theorem State.setPf_collCur (s : State) (off : Nat) (v : Word) : (s.setPf off v).collCur = s.collCur := rfl
@[simp] theorem State.setPf_arrived (s : State) (off : Nat) (v : Word) : (s.setPf off v).arrived = s.arrived := rfl
@[simp] theorem State.setPf_ref6 (s : State) (off : Nat) (v : Word) : (s.setPf off v).ref6 = s.ref6 := rfl
@[simp] theorem State.setPf_feats (s : State) (off : Nat) (v : Word) : (s.setPf off v).feats = s.feats := rfl
@[simp] theorem State.setPf_parts (s : State) (off : Nat) (v : Word) : (s.setPf off v).parts = s.parts := rfl
@[simp] theorem State.setPf_barWait (s : State) (off : Nat) (v : Word) : (s.setPf off v).barWait = s.barWait := rfl
@[simp] theorem State.setPf_boot (s : State) (off : Nat) (v : Word) : (s.setPf off v).boot = s.boot := rfl
@[simp] theorem State.setPf_power (s : State) (off : Nat) (v : Word) : (s.setPf off v).power = s.power := rfl
@[simp] theorem State.setPf_msix (s : State) (off : Nat) (v : Word) : (s.setPf off v).msix = s.msix := rfl
@[simp] theorem State.setPf_gated (s : State) (off : Nat) (v : Word) : (s.setPf off v).gated = s.gated := rfl
@[simp] theorem State.setPf_gate (s : State) (off : Nat) (v : Word) : (s.setPf off v).gate = s.gate := rfl
@[simp] theorem State.setPf_endpoints (s : State) (off : Nat) (v : Word) : (s.setPf off v).endpoints = s.endpoints := rfl
@[simp] theorem State.setPf_domains (s : State) (off : Nat) (v : Word) : (s.setPf off v).domains = s.domains := rfl
@[simp] theorem State.setPf_rx (s : State) (off : Nat) (v : Word) : (s.setPf off v).rx = s.rx := rfl
@[simp] theorem State.setPf_tx (s : State) (off : Nat) (v : Word) : (s.setPf off v).tx = s.tx := rfl
@[simp] theorem State.setPf_wire (s : State) (off : Nat) (v : Word) : (s.setPf off v).wire = s.wire := rfl
@[simp] theorem State.setPf_pdcs (s : State) (off : Nat) (v : Word) : (s.setPf off v).pdcs = s.pdcs := rfl
@[simp] theorem State.setPf_heldPackets (s : State) (off : Nat) (v : Word) : (s.setPf off v).heldPackets = s.heldPackets := rfl
@[simp] theorem State.setPf_combining (s : State) (off : Nat) (v : Word) : (s.setPf off v).combining = s.combining := rfl
@[simp] theorem State.setPf_evBad (s : State) (off : Nat) (v : Word) : (s.setPf off v).evBad = s.evBad := rfl
@[simp] theorem State.setPf_ethDown (s : State) (off : Nat) (v : Word) : (s.setPf off v).ethDown = s.ethDown := rfl
@[simp] theorem State.setPf_cxlDown (s : State) (off : Nat) (v : Word) : (s.setPf off v).cxlDown = s.cxlDown := rfl
@[simp] theorem State.setPf_driverQs (s : State) (off : Nat) (v : Word) : (s.setPf off v).driverQs = s.driverQs := rfl
@[simp] theorem State.setPf_pages (s : State) (off : Nat) (v : Word) : (s.setPf off v).pages = s.pages := rfl
@[simp] theorem State.setPf_pageWait (s : State) (off : Nat) (v : Word) : (s.setPf off v).pageWait = s.pageWait := rfl
@[simp] theorem State.setPf_pools (s : State) (off : Nat) (v : Word) : (s.setPf off v).pools = s.pools := rfl
@[simp] theorem State.setPf_engAsids (s : State) (off : Nat) (v : Word) : (s.setPf off v).engAsids = s.engAsids := rfl
@[simp] theorem State.setPf_ssdDown (s : State) (off : Nat) (v : Word) : (s.setPf off v).ssdDown = s.ssdDown := rfl
@[simp] theorem State.setPf_windows (s : State) (off : Nat) (v : Word) : (s.setPf off v).windows = s.windows := rfl
@[simp] theorem State.setPf_rings (s : State) (off : Nat) (v : Word) : (s.setPf off v).rings = s.rings := rfl
@[simp] theorem State.setPf_handles (s : State) (off : Nat) (v : Word) : (s.setPf off v).handles = s.handles := rfl
@[simp] theorem State.setPf_users (s : State) (off : Nat) (v : Word) : (s.setPf off v).users = s.users := rfl
@[simp] theorem State.setPf_armed (s : State) (off : Nat) (v : Word) : (s.setPf off v).armed = s.armed := rfl
@[simp] theorem State.setPf_shoot (s : State) (off : Nat) (v : Word) : (s.setPf off v).shoot = s.shoot := rfl
@[simp] theorem State.setPf_stset (s : State) (off : Nat) (v : Word) : (s.setPf off v).stset = s.stset := rfl
@[simp] theorem State.setPf_tset (s : State) (off : Nat) (v : Word) : (s.setPf off v).tset = s.tset := rfl
@[simp] theorem State.setPf_slices (s : State) (off : Nat) (v : Word) : (s.setPf off v).slices = s.slices := rfl
@[simp] theorem State.setPf_engLast (s : State) (off : Nat) (v : Word) : (s.setPf off v).engLast = s.engLast := rfl
@[simp] theorem State.setPf_savedCopies (s : State) (off : Nat) (v : Word) : (s.setPf off v).savedCopies = s.savedCopies := rfl
@[simp] theorem State.setPf_reads (s : State) (off : Nat) (v : Word) : (s.setPf off v).reads = s.reads := rfl

/-! ## setVf -/

@[simp] theorem State.setVf_cyc (s : State) (v off : Nat) (w : Word) : (s.setVf v off w).cyc = s.cyc := rfl
@[simp] theorem State.setVf_agenda (s : State) (v off : Nat) (w : Word) : (s.setVf v off w).agenda = s.agenda := rfl
@[simp] theorem State.setVf_issuedNow (s : State) (v off : Nat) (w : Word) : (s.setVf v off w).issuedNow = s.issuedNow := rfl
@[simp] theorem State.setVf_cur (s : State) (v off : Nat) (w : Word) : (s.setVf v off w).cur = s.cur := rfl
@[simp] theorem State.setVf_nextId (s : State) (v off : Nat) (w : Word) : (s.setVf v off w).nextId = s.nextId := rfl
@[simp] theorem State.setVf_uses (s : State) (v off : Nat) (w : Word) : (s.setVf v off w).uses = s.uses := rfl
@[simp] theorem State.setVf_pf (s : State) (v off : Nat) (w : Word) : (s.setVf v off w).pf = s.pf := rfl
@[simp] theorem State.setVf_mem (s : State) (v off : Nat) (w : Word) : (s.setVf v off w).mem = s.mem := rfl
@[simp] theorem State.setVf_tiles (s : State) (v off : Nat) (w : Word) : (s.setVf v off w).tiles = s.tiles := rfl
@[simp] theorem State.setVf_reqs (s : State) (v off : Nat) (w : Word) : (s.setVf v off w).reqs = s.reqs := rfl
@[simp] theorem State.setVf_counts (s : State) (v off : Nat) (w : Word) : (s.setVf v off w).counts = s.counts := rfl
@[simp] theorem State.setVf_tlb2 (s : State) (v off : Nat) (w : Word) : (s.setVf v off w).tlb2 = s.tlb2 := rfl
@[simp] theorem State.setVf_faults (s : State) (v off : Nat) (w : Word) : (s.setVf v off w).faults = s.faults := rfl
@[simp] theorem State.setVf_combine (s : State) (v off : Nat) (w : Word) : (s.setVf v off w).combine = s.combine := rfl
@[simp] theorem State.setVf_launches (s : State) (v off : Nat) (w : Word) : (s.setVf v off w).launches = s.launches := rfl
@[simp] theorem State.setVf_trapqs (s : State) (v off : Nat) (w : Word) : (s.setVf v off w).trapqs = s.trapqs := rfl
@[simp] theorem State.setVf_copyMsgs (s : State) (v off : Nat) (w : Word) : (s.setVf v off w).copyMsgs = s.copyMsgs := rfl
@[simp] theorem State.setVf_queues (s : State) (v off : Nat) (w : Word) : (s.setVf v off w).queues = s.queues := rfl
@[simp] theorem State.setVf_cwords (s : State) (v off : Nat) (w : Word) : (s.setVf v off w).cwords = s.cwords := rfl
@[simp] theorem State.setVf_flits (s : State) (v off : Nat) (w : Word) : (s.setVf v off w).flits = s.flits := rfl
@[simp] theorem State.setVf_rmsgs (s : State) (v off : Nat) (w : Word) : (s.setVf v off w).rmsgs = s.rmsgs := rfl
@[simp] theorem State.setVf_rreads (s : State) (v off : Nat) (w : Word) : (s.setVf v off w).rreads = s.rreads := rfl
@[simp] theorem State.setVf_steps (s : State) (v off : Nat) (w : Word) : (s.setVf v off w).steps = s.steps := rfl
@[simp] theorem State.setVf_collCur (s : State) (v off : Nat) (w : Word) : (s.setVf v off w).collCur = s.collCur := rfl
@[simp] theorem State.setVf_arrived (s : State) (v off : Nat) (w : Word) : (s.setVf v off w).arrived = s.arrived := rfl
@[simp] theorem State.setVf_ref6 (s : State) (v off : Nat) (w : Word) : (s.setVf v off w).ref6 = s.ref6 := rfl
@[simp] theorem State.setVf_feats (s : State) (v off : Nat) (w : Word) : (s.setVf v off w).feats = s.feats := rfl
@[simp] theorem State.setVf_parts (s : State) (v off : Nat) (w : Word) : (s.setVf v off w).parts = s.parts := rfl
@[simp] theorem State.setVf_barWait (s : State) (v off : Nat) (w : Word) : (s.setVf v off w).barWait = s.barWait := rfl
@[simp] theorem State.setVf_boot (s : State) (v off : Nat) (w : Word) : (s.setVf v off w).boot = s.boot := rfl
@[simp] theorem State.setVf_power (s : State) (v off : Nat) (w : Word) : (s.setVf v off w).power = s.power := rfl
@[simp] theorem State.setVf_msix (s : State) (v off : Nat) (w : Word) : (s.setVf v off w).msix = s.msix := rfl
@[simp] theorem State.setVf_gated (s : State) (v off : Nat) (w : Word) : (s.setVf v off w).gated = s.gated := rfl
@[simp] theorem State.setVf_gate (s : State) (v off : Nat) (w : Word) : (s.setVf v off w).gate = s.gate := rfl
@[simp] theorem State.setVf_endpoints (s : State) (v off : Nat) (w : Word) : (s.setVf v off w).endpoints = s.endpoints := rfl
@[simp] theorem State.setVf_domains (s : State) (v off : Nat) (w : Word) : (s.setVf v off w).domains = s.domains := rfl
@[simp] theorem State.setVf_rx (s : State) (v off : Nat) (w : Word) : (s.setVf v off w).rx = s.rx := rfl
@[simp] theorem State.setVf_tx (s : State) (v off : Nat) (w : Word) : (s.setVf v off w).tx = s.tx := rfl
@[simp] theorem State.setVf_wire (s : State) (v off : Nat) (w : Word) : (s.setVf v off w).wire = s.wire := rfl
@[simp] theorem State.setVf_pdcs (s : State) (v off : Nat) (w : Word) : (s.setVf v off w).pdcs = s.pdcs := rfl
@[simp] theorem State.setVf_heldPackets (s : State) (v off : Nat) (w : Word) : (s.setVf v off w).heldPackets = s.heldPackets := rfl
@[simp] theorem State.setVf_combining (s : State) (v off : Nat) (w : Word) : (s.setVf v off w).combining = s.combining := rfl
@[simp] theorem State.setVf_evBad (s : State) (v off : Nat) (w : Word) : (s.setVf v off w).evBad = s.evBad := rfl
@[simp] theorem State.setVf_ethDown (s : State) (v off : Nat) (w : Word) : (s.setVf v off w).ethDown = s.ethDown := rfl
@[simp] theorem State.setVf_cxlDown (s : State) (v off : Nat) (w : Word) : (s.setVf v off w).cxlDown = s.cxlDown := rfl
@[simp] theorem State.setVf_driverQs (s : State) (v off : Nat) (w : Word) : (s.setVf v off w).driverQs = s.driverQs := rfl
@[simp] theorem State.setVf_pages (s : State) (v off : Nat) (w : Word) : (s.setVf v off w).pages = s.pages := rfl
@[simp] theorem State.setVf_pageWait (s : State) (v off : Nat) (w : Word) : (s.setVf v off w).pageWait = s.pageWait := rfl
@[simp] theorem State.setVf_pools (s : State) (v off : Nat) (w : Word) : (s.setVf v off w).pools = s.pools := rfl
@[simp] theorem State.setVf_engAsids (s : State) (v off : Nat) (w : Word) : (s.setVf v off w).engAsids = s.engAsids := rfl
@[simp] theorem State.setVf_ssdDown (s : State) (v off : Nat) (w : Word) : (s.setVf v off w).ssdDown = s.ssdDown := rfl
@[simp] theorem State.setVf_windows (s : State) (v off : Nat) (w : Word) : (s.setVf v off w).windows = s.windows := rfl
@[simp] theorem State.setVf_rings (s : State) (v off : Nat) (w : Word) : (s.setVf v off w).rings = s.rings := rfl
@[simp] theorem State.setVf_handles (s : State) (v off : Nat) (w : Word) : (s.setVf v off w).handles = s.handles := rfl
@[simp] theorem State.setVf_users (s : State) (v off : Nat) (w : Word) : (s.setVf v off w).users = s.users := rfl
@[simp] theorem State.setVf_armed (s : State) (v off : Nat) (w : Word) : (s.setVf v off w).armed = s.armed := rfl
@[simp] theorem State.setVf_shoot (s : State) (v off : Nat) (w : Word) : (s.setVf v off w).shoot = s.shoot := rfl
@[simp] theorem State.setVf_stset (s : State) (v off : Nat) (w : Word) : (s.setVf v off w).stset = s.stset := rfl
@[simp] theorem State.setVf_tset (s : State) (v off : Nat) (w : Word) : (s.setVf v off w).tset = s.tset := rfl
@[simp] theorem State.setVf_slices (s : State) (v off : Nat) (w : Word) : (s.setVf v off w).slices = s.slices := rfl
@[simp] theorem State.setVf_engLast (s : State) (v off : Nat) (w : Word) : (s.setVf v off w).engLast = s.engLast := rfl
@[simp] theorem State.setVf_savedCopies (s : State) (v off : Nat) (w : Word) : (s.setVf v off w).savedCopies = s.savedCopies := rfl
@[simp] theorem State.setVf_reads (s : State) (v off : Nat) (w : Word) : (s.setVf v off w).reads = s.reads := rfl

/-! ## updWindow -/

@[simp] theorem State.updWindow_cyc (s : State) (v w : Nat) (f : Window → Window) : (s.updWindow v w f).cyc = s.cyc := rfl
@[simp] theorem State.updWindow_agenda (s : State) (v w : Nat) (f : Window → Window) : (s.updWindow v w f).agenda = s.agenda := rfl
@[simp] theorem State.updWindow_issuedNow (s : State) (v w : Nat) (f : Window → Window) : (s.updWindow v w f).issuedNow = s.issuedNow := rfl
@[simp] theorem State.updWindow_cur (s : State) (v w : Nat) (f : Window → Window) : (s.updWindow v w f).cur = s.cur := rfl
@[simp] theorem State.updWindow_nextId (s : State) (v w : Nat) (f : Window → Window) : (s.updWindow v w f).nextId = s.nextId := rfl
@[simp] theorem State.updWindow_uses (s : State) (v w : Nat) (f : Window → Window) : (s.updWindow v w f).uses = s.uses := rfl
@[simp] theorem State.updWindow_pf (s : State) (v w : Nat) (f : Window → Window) : (s.updWindow v w f).pf = s.pf := rfl
@[simp] theorem State.updWindow_vfr (s : State) (v w : Nat) (f : Window → Window) : (s.updWindow v w f).vfr = s.vfr := rfl
@[simp] theorem State.updWindow_mem (s : State) (v w : Nat) (f : Window → Window) : (s.updWindow v w f).mem = s.mem := rfl
@[simp] theorem State.updWindow_tiles (s : State) (v w : Nat) (f : Window → Window) : (s.updWindow v w f).tiles = s.tiles := rfl
@[simp] theorem State.updWindow_reqs (s : State) (v w : Nat) (f : Window → Window) : (s.updWindow v w f).reqs = s.reqs := rfl
@[simp] theorem State.updWindow_counts (s : State) (v w : Nat) (f : Window → Window) : (s.updWindow v w f).counts = s.counts := rfl
@[simp] theorem State.updWindow_tlb2 (s : State) (v w : Nat) (f : Window → Window) : (s.updWindow v w f).tlb2 = s.tlb2 := rfl
@[simp] theorem State.updWindow_faults (s : State) (v w : Nat) (f : Window → Window) : (s.updWindow v w f).faults = s.faults := rfl
@[simp] theorem State.updWindow_combine (s : State) (v w : Nat) (f : Window → Window) : (s.updWindow v w f).combine = s.combine := rfl
@[simp] theorem State.updWindow_launches (s : State) (v w : Nat) (f : Window → Window) : (s.updWindow v w f).launches = s.launches := rfl
@[simp] theorem State.updWindow_trapqs (s : State) (v w : Nat) (f : Window → Window) : (s.updWindow v w f).trapqs = s.trapqs := rfl
@[simp] theorem State.updWindow_copyMsgs (s : State) (v w : Nat) (f : Window → Window) : (s.updWindow v w f).copyMsgs = s.copyMsgs := rfl
@[simp] theorem State.updWindow_queues (s : State) (v w : Nat) (f : Window → Window) : (s.updWindow v w f).queues = s.queues := rfl
@[simp] theorem State.updWindow_cwords (s : State) (v w : Nat) (f : Window → Window) : (s.updWindow v w f).cwords = s.cwords := rfl
@[simp] theorem State.updWindow_flits (s : State) (v w : Nat) (f : Window → Window) : (s.updWindow v w f).flits = s.flits := rfl
@[simp] theorem State.updWindow_rmsgs (s : State) (v w : Nat) (f : Window → Window) : (s.updWindow v w f).rmsgs = s.rmsgs := rfl
@[simp] theorem State.updWindow_rreads (s : State) (v w : Nat) (f : Window → Window) : (s.updWindow v w f).rreads = s.rreads := rfl
@[simp] theorem State.updWindow_steps (s : State) (v w : Nat) (f : Window → Window) : (s.updWindow v w f).steps = s.steps := rfl
@[simp] theorem State.updWindow_collCur (s : State) (v w : Nat) (f : Window → Window) : (s.updWindow v w f).collCur = s.collCur := rfl
@[simp] theorem State.updWindow_arrived (s : State) (v w : Nat) (f : Window → Window) : (s.updWindow v w f).arrived = s.arrived := rfl
@[simp] theorem State.updWindow_ref6 (s : State) (v w : Nat) (f : Window → Window) : (s.updWindow v w f).ref6 = s.ref6 := rfl
@[simp] theorem State.updWindow_feats (s : State) (v w : Nat) (f : Window → Window) : (s.updWindow v w f).feats = s.feats := rfl
@[simp] theorem State.updWindow_parts (s : State) (v w : Nat) (f : Window → Window) : (s.updWindow v w f).parts = s.parts := rfl
@[simp] theorem State.updWindow_barWait (s : State) (v w : Nat) (f : Window → Window) : (s.updWindow v w f).barWait = s.barWait := rfl
@[simp] theorem State.updWindow_boot (s : State) (v w : Nat) (f : Window → Window) : (s.updWindow v w f).boot = s.boot := rfl
@[simp] theorem State.updWindow_power (s : State) (v w : Nat) (f : Window → Window) : (s.updWindow v w f).power = s.power := rfl
@[simp] theorem State.updWindow_msix (s : State) (v w : Nat) (f : Window → Window) : (s.updWindow v w f).msix = s.msix := rfl
@[simp] theorem State.updWindow_gated (s : State) (v w : Nat) (f : Window → Window) : (s.updWindow v w f).gated = s.gated := rfl
@[simp] theorem State.updWindow_gate (s : State) (v w : Nat) (f : Window → Window) : (s.updWindow v w f).gate = s.gate := rfl
@[simp] theorem State.updWindow_endpoints (s : State) (v w : Nat) (f : Window → Window) : (s.updWindow v w f).endpoints = s.endpoints := rfl
@[simp] theorem State.updWindow_domains (s : State) (v w : Nat) (f : Window → Window) : (s.updWindow v w f).domains = s.domains := rfl
@[simp] theorem State.updWindow_rx (s : State) (v w : Nat) (f : Window → Window) : (s.updWindow v w f).rx = s.rx := rfl
@[simp] theorem State.updWindow_tx (s : State) (v w : Nat) (f : Window → Window) : (s.updWindow v w f).tx = s.tx := rfl
@[simp] theorem State.updWindow_wire (s : State) (v w : Nat) (f : Window → Window) : (s.updWindow v w f).wire = s.wire := rfl
@[simp] theorem State.updWindow_pdcs (s : State) (v w : Nat) (f : Window → Window) : (s.updWindow v w f).pdcs = s.pdcs := rfl
@[simp] theorem State.updWindow_heldPackets (s : State) (v w : Nat) (f : Window → Window) : (s.updWindow v w f).heldPackets = s.heldPackets := rfl
@[simp] theorem State.updWindow_combining (s : State) (v w : Nat) (f : Window → Window) : (s.updWindow v w f).combining = s.combining := rfl
@[simp] theorem State.updWindow_evBad (s : State) (v w : Nat) (f : Window → Window) : (s.updWindow v w f).evBad = s.evBad := rfl
@[simp] theorem State.updWindow_ethDown (s : State) (v w : Nat) (f : Window → Window) : (s.updWindow v w f).ethDown = s.ethDown := rfl
@[simp] theorem State.updWindow_cxlDown (s : State) (v w : Nat) (f : Window → Window) : (s.updWindow v w f).cxlDown = s.cxlDown := rfl
@[simp] theorem State.updWindow_driverQs (s : State) (v w : Nat) (f : Window → Window) : (s.updWindow v w f).driverQs = s.driverQs := rfl
@[simp] theorem State.updWindow_pages (s : State) (v w : Nat) (f : Window → Window) : (s.updWindow v w f).pages = s.pages := rfl
@[simp] theorem State.updWindow_pageWait (s : State) (v w : Nat) (f : Window → Window) : (s.updWindow v w f).pageWait = s.pageWait := rfl
@[simp] theorem State.updWindow_pools (s : State) (v w : Nat) (f : Window → Window) : (s.updWindow v w f).pools = s.pools := rfl
@[simp] theorem State.updWindow_engAsids (s : State) (v w : Nat) (f : Window → Window) : (s.updWindow v w f).engAsids = s.engAsids := rfl
@[simp] theorem State.updWindow_ssdDown (s : State) (v w : Nat) (f : Window → Window) : (s.updWindow v w f).ssdDown = s.ssdDown := rfl
@[simp] theorem State.updWindow_rings (s : State) (v w : Nat) (f : Window → Window) : (s.updWindow v w f).rings = s.rings := rfl
@[simp] theorem State.updWindow_handles (s : State) (v w : Nat) (f : Window → Window) : (s.updWindow v w f).handles = s.handles := rfl
@[simp] theorem State.updWindow_users (s : State) (v w : Nat) (f : Window → Window) : (s.updWindow v w f).users = s.users := rfl
@[simp] theorem State.updWindow_armed (s : State) (v w : Nat) (f : Window → Window) : (s.updWindow v w f).armed = s.armed := rfl
@[simp] theorem State.updWindow_shoot (s : State) (v w : Nat) (f : Window → Window) : (s.updWindow v w f).shoot = s.shoot := rfl
@[simp] theorem State.updWindow_stset (s : State) (v w : Nat) (f : Window → Window) : (s.updWindow v w f).stset = s.stset := rfl
@[simp] theorem State.updWindow_tset (s : State) (v w : Nat) (f : Window → Window) : (s.updWindow v w f).tset = s.tset := rfl
@[simp] theorem State.updWindow_slices (s : State) (v w : Nat) (f : Window → Window) : (s.updWindow v w f).slices = s.slices := rfl
@[simp] theorem State.updWindow_engLast (s : State) (v w : Nat) (f : Window → Window) : (s.updWindow v w f).engLast = s.engLast := rfl
@[simp] theorem State.updWindow_savedCopies (s : State) (v w : Nat) (f : Window → Window) : (s.updWindow v w f).savedCopies = s.savedCopies := rfl
@[simp] theorem State.updWindow_reads (s : State) (v w : Nat) (f : Window → Window) : (s.updWindow v w f).reads = s.reads := rfl

/-! ## updPart -/

@[simp] theorem State.updPart_cyc (s : State) (p : Nat) (f : Part → Part) : (s.updPart p f).cyc = s.cyc := rfl
@[simp] theorem State.updPart_agenda (s : State) (p : Nat) (f : Part → Part) : (s.updPart p f).agenda = s.agenda := rfl
@[simp] theorem State.updPart_issuedNow (s : State) (p : Nat) (f : Part → Part) : (s.updPart p f).issuedNow = s.issuedNow := rfl
@[simp] theorem State.updPart_cur (s : State) (p : Nat) (f : Part → Part) : (s.updPart p f).cur = s.cur := rfl
@[simp] theorem State.updPart_nextId (s : State) (p : Nat) (f : Part → Part) : (s.updPart p f).nextId = s.nextId := rfl
@[simp] theorem State.updPart_uses (s : State) (p : Nat) (f : Part → Part) : (s.updPart p f).uses = s.uses := rfl
@[simp] theorem State.updPart_pf (s : State) (p : Nat) (f : Part → Part) : (s.updPart p f).pf = s.pf := rfl
@[simp] theorem State.updPart_vfr (s : State) (p : Nat) (f : Part → Part) : (s.updPart p f).vfr = s.vfr := rfl
@[simp] theorem State.updPart_mem (s : State) (p : Nat) (f : Part → Part) : (s.updPart p f).mem = s.mem := rfl
@[simp] theorem State.updPart_tiles (s : State) (p : Nat) (f : Part → Part) : (s.updPart p f).tiles = s.tiles := rfl
@[simp] theorem State.updPart_reqs (s : State) (p : Nat) (f : Part → Part) : (s.updPart p f).reqs = s.reqs := rfl
@[simp] theorem State.updPart_counts (s : State) (p : Nat) (f : Part → Part) : (s.updPart p f).counts = s.counts := rfl
@[simp] theorem State.updPart_tlb2 (s : State) (p : Nat) (f : Part → Part) : (s.updPart p f).tlb2 = s.tlb2 := rfl
@[simp] theorem State.updPart_faults (s : State) (p : Nat) (f : Part → Part) : (s.updPart p f).faults = s.faults := rfl
@[simp] theorem State.updPart_combine (s : State) (p : Nat) (f : Part → Part) : (s.updPart p f).combine = s.combine := rfl
@[simp] theorem State.updPart_launches (s : State) (p : Nat) (f : Part → Part) : (s.updPart p f).launches = s.launches := rfl
@[simp] theorem State.updPart_trapqs (s : State) (p : Nat) (f : Part → Part) : (s.updPart p f).trapqs = s.trapqs := rfl
@[simp] theorem State.updPart_copyMsgs (s : State) (p : Nat) (f : Part → Part) : (s.updPart p f).copyMsgs = s.copyMsgs := rfl
@[simp] theorem State.updPart_queues (s : State) (p : Nat) (f : Part → Part) : (s.updPart p f).queues = s.queues := rfl
@[simp] theorem State.updPart_cwords (s : State) (p : Nat) (f : Part → Part) : (s.updPart p f).cwords = s.cwords := rfl
@[simp] theorem State.updPart_flits (s : State) (p : Nat) (f : Part → Part) : (s.updPart p f).flits = s.flits := rfl
@[simp] theorem State.updPart_rmsgs (s : State) (p : Nat) (f : Part → Part) : (s.updPart p f).rmsgs = s.rmsgs := rfl
@[simp] theorem State.updPart_rreads (s : State) (p : Nat) (f : Part → Part) : (s.updPart p f).rreads = s.rreads := rfl
@[simp] theorem State.updPart_steps (s : State) (p : Nat) (f : Part → Part) : (s.updPart p f).steps = s.steps := rfl
@[simp] theorem State.updPart_collCur (s : State) (p : Nat) (f : Part → Part) : (s.updPart p f).collCur = s.collCur := rfl
@[simp] theorem State.updPart_arrived (s : State) (p : Nat) (f : Part → Part) : (s.updPart p f).arrived = s.arrived := rfl
@[simp] theorem State.updPart_ref6 (s : State) (p : Nat) (f : Part → Part) : (s.updPart p f).ref6 = s.ref6 := rfl
@[simp] theorem State.updPart_feats (s : State) (p : Nat) (f : Part → Part) : (s.updPart p f).feats = s.feats := rfl
@[simp] theorem State.updPart_barWait (s : State) (p : Nat) (f : Part → Part) : (s.updPart p f).barWait = s.barWait := rfl
@[simp] theorem State.updPart_boot (s : State) (p : Nat) (f : Part → Part) : (s.updPart p f).boot = s.boot := rfl
@[simp] theorem State.updPart_power (s : State) (p : Nat) (f : Part → Part) : (s.updPart p f).power = s.power := rfl
@[simp] theorem State.updPart_msix (s : State) (p : Nat) (f : Part → Part) : (s.updPart p f).msix = s.msix := rfl
@[simp] theorem State.updPart_gated (s : State) (p : Nat) (f : Part → Part) : (s.updPart p f).gated = s.gated := rfl
@[simp] theorem State.updPart_gate (s : State) (p : Nat) (f : Part → Part) : (s.updPart p f).gate = s.gate := rfl
@[simp] theorem State.updPart_endpoints (s : State) (p : Nat) (f : Part → Part) : (s.updPart p f).endpoints = s.endpoints := rfl
@[simp] theorem State.updPart_domains (s : State) (p : Nat) (f : Part → Part) : (s.updPart p f).domains = s.domains := rfl
@[simp] theorem State.updPart_rx (s : State) (p : Nat) (f : Part → Part) : (s.updPart p f).rx = s.rx := rfl
@[simp] theorem State.updPart_tx (s : State) (p : Nat) (f : Part → Part) : (s.updPart p f).tx = s.tx := rfl
@[simp] theorem State.updPart_wire (s : State) (p : Nat) (f : Part → Part) : (s.updPart p f).wire = s.wire := rfl
@[simp] theorem State.updPart_pdcs (s : State) (p : Nat) (f : Part → Part) : (s.updPart p f).pdcs = s.pdcs := rfl
@[simp] theorem State.updPart_heldPackets (s : State) (p : Nat) (f : Part → Part) : (s.updPart p f).heldPackets = s.heldPackets := rfl
@[simp] theorem State.updPart_combining (s : State) (p : Nat) (f : Part → Part) : (s.updPart p f).combining = s.combining := rfl
@[simp] theorem State.updPart_evBad (s : State) (p : Nat) (f : Part → Part) : (s.updPart p f).evBad = s.evBad := rfl
@[simp] theorem State.updPart_ethDown (s : State) (p : Nat) (f : Part → Part) : (s.updPart p f).ethDown = s.ethDown := rfl
@[simp] theorem State.updPart_cxlDown (s : State) (p : Nat) (f : Part → Part) : (s.updPart p f).cxlDown = s.cxlDown := rfl
@[simp] theorem State.updPart_driverQs (s : State) (p : Nat) (f : Part → Part) : (s.updPart p f).driverQs = s.driverQs := rfl
@[simp] theorem State.updPart_pages (s : State) (p : Nat) (f : Part → Part) : (s.updPart p f).pages = s.pages := rfl
@[simp] theorem State.updPart_pageWait (s : State) (p : Nat) (f : Part → Part) : (s.updPart p f).pageWait = s.pageWait := rfl
@[simp] theorem State.updPart_pools (s : State) (p : Nat) (f : Part → Part) : (s.updPart p f).pools = s.pools := rfl
@[simp] theorem State.updPart_engAsids (s : State) (p : Nat) (f : Part → Part) : (s.updPart p f).engAsids = s.engAsids := rfl
@[simp] theorem State.updPart_ssdDown (s : State) (p : Nat) (f : Part → Part) : (s.updPart p f).ssdDown = s.ssdDown := rfl
@[simp] theorem State.updPart_windows (s : State) (p : Nat) (f : Part → Part) : (s.updPart p f).windows = s.windows := rfl
@[simp] theorem State.updPart_rings (s : State) (p : Nat) (f : Part → Part) : (s.updPart p f).rings = s.rings := rfl
@[simp] theorem State.updPart_handles (s : State) (p : Nat) (f : Part → Part) : (s.updPart p f).handles = s.handles := rfl
@[simp] theorem State.updPart_users (s : State) (p : Nat) (f : Part → Part) : (s.updPart p f).users = s.users := rfl
@[simp] theorem State.updPart_armed (s : State) (p : Nat) (f : Part → Part) : (s.updPart p f).armed = s.armed := rfl
@[simp] theorem State.updPart_shoot (s : State) (p : Nat) (f : Part → Part) : (s.updPart p f).shoot = s.shoot := rfl
@[simp] theorem State.updPart_stset (s : State) (p : Nat) (f : Part → Part) : (s.updPart p f).stset = s.stset := rfl
@[simp] theorem State.updPart_tset (s : State) (p : Nat) (f : Part → Part) : (s.updPart p f).tset = s.tset := rfl
@[simp] theorem State.updPart_slices (s : State) (p : Nat) (f : Part → Part) : (s.updPart p f).slices = s.slices := rfl
@[simp] theorem State.updPart_engLast (s : State) (p : Nat) (f : Part → Part) : (s.updPart p f).engLast = s.engLast := rfl
@[simp] theorem State.updPart_savedCopies (s : State) (p : Nat) (f : Part → Part) : (s.updPart p f).savedCopies = s.savedCopies := rfl
@[simp] theorem State.updPart_reads (s : State) (p : Nat) (f : Part → Part) : (s.updPart p f).reads = s.reads := rfl

/-! ## setTq -/

@[simp] theorem State.setTq_cyc (s : State) (p : Nat) (q : TrapQ) : (s.setTq p q).cyc = s.cyc := rfl
@[simp] theorem State.setTq_agenda (s : State) (p : Nat) (q : TrapQ) : (s.setTq p q).agenda = s.agenda := rfl
@[simp] theorem State.setTq_issuedNow (s : State) (p : Nat) (q : TrapQ) : (s.setTq p q).issuedNow = s.issuedNow := rfl
@[simp] theorem State.setTq_cur (s : State) (p : Nat) (q : TrapQ) : (s.setTq p q).cur = s.cur := rfl
@[simp] theorem State.setTq_nextId (s : State) (p : Nat) (q : TrapQ) : (s.setTq p q).nextId = s.nextId := rfl
@[simp] theorem State.setTq_uses (s : State) (p : Nat) (q : TrapQ) : (s.setTq p q).uses = s.uses := rfl
@[simp] theorem State.setTq_pf (s : State) (p : Nat) (q : TrapQ) : (s.setTq p q).pf = s.pf := rfl
@[simp] theorem State.setTq_vfr (s : State) (p : Nat) (q : TrapQ) : (s.setTq p q).vfr = s.vfr := rfl
@[simp] theorem State.setTq_mem (s : State) (p : Nat) (q : TrapQ) : (s.setTq p q).mem = s.mem := rfl
@[simp] theorem State.setTq_tiles (s : State) (p : Nat) (q : TrapQ) : (s.setTq p q).tiles = s.tiles := rfl
@[simp] theorem State.setTq_reqs (s : State) (p : Nat) (q : TrapQ) : (s.setTq p q).reqs = s.reqs := rfl
@[simp] theorem State.setTq_counts (s : State) (p : Nat) (q : TrapQ) : (s.setTq p q).counts = s.counts := rfl
@[simp] theorem State.setTq_tlb2 (s : State) (p : Nat) (q : TrapQ) : (s.setTq p q).tlb2 = s.tlb2 := rfl
@[simp] theorem State.setTq_faults (s : State) (p : Nat) (q : TrapQ) : (s.setTq p q).faults = s.faults := rfl
@[simp] theorem State.setTq_combine (s : State) (p : Nat) (q : TrapQ) : (s.setTq p q).combine = s.combine := rfl
@[simp] theorem State.setTq_launches (s : State) (p : Nat) (q : TrapQ) : (s.setTq p q).launches = s.launches := rfl
@[simp] theorem State.setTq_copyMsgs (s : State) (p : Nat) (q : TrapQ) : (s.setTq p q).copyMsgs = s.copyMsgs := rfl
@[simp] theorem State.setTq_queues (s : State) (p : Nat) (q : TrapQ) : (s.setTq p q).queues = s.queues := rfl
@[simp] theorem State.setTq_cwords (s : State) (p : Nat) (q : TrapQ) : (s.setTq p q).cwords = s.cwords := rfl
@[simp] theorem State.setTq_flits (s : State) (p : Nat) (q : TrapQ) : (s.setTq p q).flits = s.flits := rfl
@[simp] theorem State.setTq_rmsgs (s : State) (p : Nat) (q : TrapQ) : (s.setTq p q).rmsgs = s.rmsgs := rfl
@[simp] theorem State.setTq_rreads (s : State) (p : Nat) (q : TrapQ) : (s.setTq p q).rreads = s.rreads := rfl
@[simp] theorem State.setTq_steps (s : State) (p : Nat) (q : TrapQ) : (s.setTq p q).steps = s.steps := rfl
@[simp] theorem State.setTq_collCur (s : State) (p : Nat) (q : TrapQ) : (s.setTq p q).collCur = s.collCur := rfl
@[simp] theorem State.setTq_arrived (s : State) (p : Nat) (q : TrapQ) : (s.setTq p q).arrived = s.arrived := rfl
@[simp] theorem State.setTq_ref6 (s : State) (p : Nat) (q : TrapQ) : (s.setTq p q).ref6 = s.ref6 := rfl
@[simp] theorem State.setTq_feats (s : State) (p : Nat) (q : TrapQ) : (s.setTq p q).feats = s.feats := rfl
@[simp] theorem State.setTq_parts (s : State) (p : Nat) (q : TrapQ) : (s.setTq p q).parts = s.parts := rfl
@[simp] theorem State.setTq_barWait (s : State) (p : Nat) (q : TrapQ) : (s.setTq p q).barWait = s.barWait := rfl
@[simp] theorem State.setTq_boot (s : State) (p : Nat) (q : TrapQ) : (s.setTq p q).boot = s.boot := rfl
@[simp] theorem State.setTq_power (s : State) (p : Nat) (q : TrapQ) : (s.setTq p q).power = s.power := rfl
@[simp] theorem State.setTq_msix (s : State) (p : Nat) (q : TrapQ) : (s.setTq p q).msix = s.msix := rfl
@[simp] theorem State.setTq_gated (s : State) (p : Nat) (q : TrapQ) : (s.setTq p q).gated = s.gated := rfl
@[simp] theorem State.setTq_gate (s : State) (p : Nat) (q : TrapQ) : (s.setTq p q).gate = s.gate := rfl
@[simp] theorem State.setTq_endpoints (s : State) (p : Nat) (q : TrapQ) : (s.setTq p q).endpoints = s.endpoints := rfl
@[simp] theorem State.setTq_domains (s : State) (p : Nat) (q : TrapQ) : (s.setTq p q).domains = s.domains := rfl
@[simp] theorem State.setTq_rx (s : State) (p : Nat) (q : TrapQ) : (s.setTq p q).rx = s.rx := rfl
@[simp] theorem State.setTq_tx (s : State) (p : Nat) (q : TrapQ) : (s.setTq p q).tx = s.tx := rfl
@[simp] theorem State.setTq_wire (s : State) (p : Nat) (q : TrapQ) : (s.setTq p q).wire = s.wire := rfl
@[simp] theorem State.setTq_pdcs (s : State) (p : Nat) (q : TrapQ) : (s.setTq p q).pdcs = s.pdcs := rfl
@[simp] theorem State.setTq_heldPackets (s : State) (p : Nat) (q : TrapQ) : (s.setTq p q).heldPackets = s.heldPackets := rfl
@[simp] theorem State.setTq_combining (s : State) (p : Nat) (q : TrapQ) : (s.setTq p q).combining = s.combining := rfl
@[simp] theorem State.setTq_evBad (s : State) (p : Nat) (q : TrapQ) : (s.setTq p q).evBad = s.evBad := rfl
@[simp] theorem State.setTq_ethDown (s : State) (p : Nat) (q : TrapQ) : (s.setTq p q).ethDown = s.ethDown := rfl
@[simp] theorem State.setTq_cxlDown (s : State) (p : Nat) (q : TrapQ) : (s.setTq p q).cxlDown = s.cxlDown := rfl
@[simp] theorem State.setTq_driverQs (s : State) (p : Nat) (q : TrapQ) : (s.setTq p q).driverQs = s.driverQs := rfl
@[simp] theorem State.setTq_pages (s : State) (p : Nat) (q : TrapQ) : (s.setTq p q).pages = s.pages := rfl
@[simp] theorem State.setTq_pageWait (s : State) (p : Nat) (q : TrapQ) : (s.setTq p q).pageWait = s.pageWait := rfl
@[simp] theorem State.setTq_pools (s : State) (p : Nat) (q : TrapQ) : (s.setTq p q).pools = s.pools := rfl
@[simp] theorem State.setTq_engAsids (s : State) (p : Nat) (q : TrapQ) : (s.setTq p q).engAsids = s.engAsids := rfl
@[simp] theorem State.setTq_ssdDown (s : State) (p : Nat) (q : TrapQ) : (s.setTq p q).ssdDown = s.ssdDown := rfl
@[simp] theorem State.setTq_windows (s : State) (p : Nat) (q : TrapQ) : (s.setTq p q).windows = s.windows := rfl
@[simp] theorem State.setTq_rings (s : State) (p : Nat) (q : TrapQ) : (s.setTq p q).rings = s.rings := rfl
@[simp] theorem State.setTq_handles (s : State) (p : Nat) (q : TrapQ) : (s.setTq p q).handles = s.handles := rfl
@[simp] theorem State.setTq_users (s : State) (p : Nat) (q : TrapQ) : (s.setTq p q).users = s.users := rfl
@[simp] theorem State.setTq_armed (s : State) (p : Nat) (q : TrapQ) : (s.setTq p q).armed = s.armed := rfl
@[simp] theorem State.setTq_shoot (s : State) (p : Nat) (q : TrapQ) : (s.setTq p q).shoot = s.shoot := rfl
@[simp] theorem State.setTq_stset (s : State) (p : Nat) (q : TrapQ) : (s.setTq p q).stset = s.stset := rfl
@[simp] theorem State.setTq_tset (s : State) (p : Nat) (q : TrapQ) : (s.setTq p q).tset = s.tset := rfl
@[simp] theorem State.setTq_slices (s : State) (p : Nat) (q : TrapQ) : (s.setTq p q).slices = s.slices := rfl
@[simp] theorem State.setTq_engLast (s : State) (p : Nat) (q : TrapQ) : (s.setTq p q).engLast = s.engLast := rfl
@[simp] theorem State.setTq_savedCopies (s : State) (p : Nat) (q : TrapQ) : (s.setTq p q).savedCopies = s.savedCopies := rfl
@[simp] theorem State.setTq_reads (s : State) (p : Nat) (q : TrapQ) : (s.setTq p q).reads = s.reads := rfl

/-! ## setPoison -/

/-- A poison bit that changes leaves everything but memory. -/
theorem State.setPoison_eq (s : State) (l : Nat) (p : Bool) : s.setPoison l p = { s with mem := (s.setPoison l p).mem } := by
  unfold State.setPoison State.setMemPoison
  split
  · rfl
  · split <;> rfl

@[simp] theorem State.setPoison_cyc (s : State) (l : Nat) (p : Bool) : (s.setPoison l p).cyc = s.cyc := by rw [State.setPoison_eq]
@[simp] theorem State.setPoison_agenda (s : State) (l : Nat) (p : Bool) : (s.setPoison l p).agenda = s.agenda := by rw [State.setPoison_eq]
@[simp] theorem State.setPoison_issuedNow (s : State) (l : Nat) (p : Bool) : (s.setPoison l p).issuedNow = s.issuedNow := by rw [State.setPoison_eq]
@[simp] theorem State.setPoison_cur (s : State) (l : Nat) (p : Bool) : (s.setPoison l p).cur = s.cur := by rw [State.setPoison_eq]
@[simp] theorem State.setPoison_nextId (s : State) (l : Nat) (p : Bool) : (s.setPoison l p).nextId = s.nextId := by rw [State.setPoison_eq]
@[simp] theorem State.setPoison_uses (s : State) (l : Nat) (p : Bool) : (s.setPoison l p).uses = s.uses := by rw [State.setPoison_eq]
@[simp] theorem State.setPoison_pf (s : State) (l : Nat) (p : Bool) : (s.setPoison l p).pf = s.pf := by rw [State.setPoison_eq]
@[simp] theorem State.setPoison_vfr (s : State) (l : Nat) (p : Bool) : (s.setPoison l p).vfr = s.vfr := by rw [State.setPoison_eq]
@[simp] theorem State.setPoison_tiles (s : State) (l : Nat) (p : Bool) : (s.setPoison l p).tiles = s.tiles := by rw [State.setPoison_eq]
@[simp] theorem State.setPoison_reqs (s : State) (l : Nat) (p : Bool) : (s.setPoison l p).reqs = s.reqs := by rw [State.setPoison_eq]
@[simp] theorem State.setPoison_counts (s : State) (l : Nat) (p : Bool) : (s.setPoison l p).counts = s.counts := by rw [State.setPoison_eq]
@[simp] theorem State.setPoison_tlb2 (s : State) (l : Nat) (p : Bool) : (s.setPoison l p).tlb2 = s.tlb2 := by rw [State.setPoison_eq]
@[simp] theorem State.setPoison_faults (s : State) (l : Nat) (p : Bool) : (s.setPoison l p).faults = s.faults := by rw [State.setPoison_eq]
@[simp] theorem State.setPoison_combine (s : State) (l : Nat) (p : Bool) : (s.setPoison l p).combine = s.combine := by rw [State.setPoison_eq]
@[simp] theorem State.setPoison_launches (s : State) (l : Nat) (p : Bool) : (s.setPoison l p).launches = s.launches := by rw [State.setPoison_eq]
@[simp] theorem State.setPoison_trapqs (s : State) (l : Nat) (p : Bool) : (s.setPoison l p).trapqs = s.trapqs := by rw [State.setPoison_eq]
@[simp] theorem State.setPoison_copyMsgs (s : State) (l : Nat) (p : Bool) : (s.setPoison l p).copyMsgs = s.copyMsgs := by rw [State.setPoison_eq]
@[simp] theorem State.setPoison_queues (s : State) (l : Nat) (p : Bool) : (s.setPoison l p).queues = s.queues := by rw [State.setPoison_eq]
@[simp] theorem State.setPoison_cwords (s : State) (l : Nat) (p : Bool) : (s.setPoison l p).cwords = s.cwords := by rw [State.setPoison_eq]
@[simp] theorem State.setPoison_flits (s : State) (l : Nat) (p : Bool) : (s.setPoison l p).flits = s.flits := by rw [State.setPoison_eq]
@[simp] theorem State.setPoison_rmsgs (s : State) (l : Nat) (p : Bool) : (s.setPoison l p).rmsgs = s.rmsgs := by rw [State.setPoison_eq]
@[simp] theorem State.setPoison_rreads (s : State) (l : Nat) (p : Bool) : (s.setPoison l p).rreads = s.rreads := by rw [State.setPoison_eq]
@[simp] theorem State.setPoison_steps (s : State) (l : Nat) (p : Bool) : (s.setPoison l p).steps = s.steps := by rw [State.setPoison_eq]
@[simp] theorem State.setPoison_collCur (s : State) (l : Nat) (p : Bool) : (s.setPoison l p).collCur = s.collCur := by rw [State.setPoison_eq]
@[simp] theorem State.setPoison_arrived (s : State) (l : Nat) (p : Bool) : (s.setPoison l p).arrived = s.arrived := by rw [State.setPoison_eq]
@[simp] theorem State.setPoison_ref6 (s : State) (l : Nat) (p : Bool) : (s.setPoison l p).ref6 = s.ref6 := by rw [State.setPoison_eq]
@[simp] theorem State.setPoison_feats (s : State) (l : Nat) (p : Bool) : (s.setPoison l p).feats = s.feats := by rw [State.setPoison_eq]
@[simp] theorem State.setPoison_parts (s : State) (l : Nat) (p : Bool) : (s.setPoison l p).parts = s.parts := by rw [State.setPoison_eq]
@[simp] theorem State.setPoison_barWait (s : State) (l : Nat) (p : Bool) : (s.setPoison l p).barWait = s.barWait := by rw [State.setPoison_eq]
@[simp] theorem State.setPoison_boot (s : State) (l : Nat) (p : Bool) : (s.setPoison l p).boot = s.boot := by rw [State.setPoison_eq]
@[simp] theorem State.setPoison_power (s : State) (l : Nat) (p : Bool) : (s.setPoison l p).power = s.power := by rw [State.setPoison_eq]
@[simp] theorem State.setPoison_msix (s : State) (l : Nat) (p : Bool) : (s.setPoison l p).msix = s.msix := by rw [State.setPoison_eq]
@[simp] theorem State.setPoison_gated (s : State) (l : Nat) (p : Bool) : (s.setPoison l p).gated = s.gated := by rw [State.setPoison_eq]
@[simp] theorem State.setPoison_gate (s : State) (l : Nat) (p : Bool) : (s.setPoison l p).gate = s.gate := by rw [State.setPoison_eq]
@[simp] theorem State.setPoison_endpoints (s : State) (l : Nat) (p : Bool) : (s.setPoison l p).endpoints = s.endpoints := by rw [State.setPoison_eq]
@[simp] theorem State.setPoison_domains (s : State) (l : Nat) (p : Bool) : (s.setPoison l p).domains = s.domains := by rw [State.setPoison_eq]
@[simp] theorem State.setPoison_rx (s : State) (l : Nat) (p : Bool) : (s.setPoison l p).rx = s.rx := by rw [State.setPoison_eq]
@[simp] theorem State.setPoison_tx (s : State) (l : Nat) (p : Bool) : (s.setPoison l p).tx = s.tx := by rw [State.setPoison_eq]
@[simp] theorem State.setPoison_wire (s : State) (l : Nat) (p : Bool) : (s.setPoison l p).wire = s.wire := by rw [State.setPoison_eq]
@[simp] theorem State.setPoison_pdcs (s : State) (l : Nat) (p : Bool) : (s.setPoison l p).pdcs = s.pdcs := by rw [State.setPoison_eq]
@[simp] theorem State.setPoison_heldPackets (s : State) (l : Nat) (p : Bool) : (s.setPoison l p).heldPackets = s.heldPackets := by rw [State.setPoison_eq]
@[simp] theorem State.setPoison_combining (s : State) (l : Nat) (p : Bool) : (s.setPoison l p).combining = s.combining := by rw [State.setPoison_eq]
@[simp] theorem State.setPoison_evBad (s : State) (l : Nat) (p : Bool) : (s.setPoison l p).evBad = s.evBad := by rw [State.setPoison_eq]
@[simp] theorem State.setPoison_ethDown (s : State) (l : Nat) (p : Bool) : (s.setPoison l p).ethDown = s.ethDown := by rw [State.setPoison_eq]
@[simp] theorem State.setPoison_cxlDown (s : State) (l : Nat) (p : Bool) : (s.setPoison l p).cxlDown = s.cxlDown := by rw [State.setPoison_eq]
@[simp] theorem State.setPoison_driverQs (s : State) (l : Nat) (p : Bool) : (s.setPoison l p).driverQs = s.driverQs := by rw [State.setPoison_eq]
@[simp] theorem State.setPoison_pages (s : State) (l : Nat) (p : Bool) : (s.setPoison l p).pages = s.pages := by rw [State.setPoison_eq]
@[simp] theorem State.setPoison_pageWait (s : State) (l : Nat) (p : Bool) : (s.setPoison l p).pageWait = s.pageWait := by rw [State.setPoison_eq]
@[simp] theorem State.setPoison_pools (s : State) (l : Nat) (p : Bool) : (s.setPoison l p).pools = s.pools := by rw [State.setPoison_eq]
@[simp] theorem State.setPoison_engAsids (s : State) (l : Nat) (p : Bool) : (s.setPoison l p).engAsids = s.engAsids := by rw [State.setPoison_eq]
@[simp] theorem State.setPoison_ssdDown (s : State) (l : Nat) (p : Bool) : (s.setPoison l p).ssdDown = s.ssdDown := by rw [State.setPoison_eq]
@[simp] theorem State.setPoison_windows (s : State) (l : Nat) (p : Bool) : (s.setPoison l p).windows = s.windows := by rw [State.setPoison_eq]
@[simp] theorem State.setPoison_rings (s : State) (l : Nat) (p : Bool) : (s.setPoison l p).rings = s.rings := by rw [State.setPoison_eq]
@[simp] theorem State.setPoison_handles (s : State) (l : Nat) (p : Bool) : (s.setPoison l p).handles = s.handles := by rw [State.setPoison_eq]
@[simp] theorem State.setPoison_users (s : State) (l : Nat) (p : Bool) : (s.setPoison l p).users = s.users := by rw [State.setPoison_eq]
@[simp] theorem State.setPoison_armed (s : State) (l : Nat) (p : Bool) : (s.setPoison l p).armed = s.armed := by rw [State.setPoison_eq]
@[simp] theorem State.setPoison_shoot (s : State) (l : Nat) (p : Bool) : (s.setPoison l p).shoot = s.shoot := by rw [State.setPoison_eq]
@[simp] theorem State.setPoison_stset (s : State) (l : Nat) (p : Bool) : (s.setPoison l p).stset = s.stset := by rw [State.setPoison_eq]
@[simp] theorem State.setPoison_tset (s : State) (l : Nat) (p : Bool) : (s.setPoison l p).tset = s.tset := by rw [State.setPoison_eq]
@[simp] theorem State.setPoison_slices (s : State) (l : Nat) (p : Bool) : (s.setPoison l p).slices = s.slices := by rw [State.setPoison_eq]
@[simp] theorem State.setPoison_engLast (s : State) (l : Nat) (p : Bool) : (s.setPoison l p).engLast = s.engLast := by rw [State.setPoison_eq]
@[simp] theorem State.setPoison_savedCopies (s : State) (l : Nat) (p : Bool) : (s.setPoison l p).savedCopies = s.savedCopies := by rw [State.setPoison_eq]
@[simp] theorem State.setPoison_reads (s : State) (l : Nat) (p : Bool) : (s.setPoison l p).reads = s.reads := by rw [State.setPoison_eq]

/-! ## tick -/

@[simp] theorem State.tick_agenda (s : State) : s.tick.agenda = s.agenda := rfl
@[simp] theorem State.tick_cur (s : State) : s.tick.cur = s.cur := rfl
@[simp] theorem State.tick_nextId (s : State) : s.tick.nextId = s.nextId := rfl
@[simp] theorem State.tick_uses (s : State) : s.tick.uses = s.uses := rfl
@[simp] theorem State.tick_pf (s : State) : s.tick.pf = s.pf := rfl
@[simp] theorem State.tick_vfr (s : State) : s.tick.vfr = s.vfr := rfl
@[simp] theorem State.tick_mem (s : State) : s.tick.mem = s.mem := rfl
@[simp] theorem State.tick_tiles (s : State) : s.tick.tiles = s.tiles := rfl
@[simp] theorem State.tick_reqs (s : State) : s.tick.reqs = s.reqs := rfl
@[simp] theorem State.tick_counts (s : State) : s.tick.counts = s.counts := rfl
@[simp] theorem State.tick_tlb2 (s : State) : s.tick.tlb2 = s.tlb2 := rfl
@[simp] theorem State.tick_faults (s : State) : s.tick.faults = s.faults := rfl
@[simp] theorem State.tick_combine (s : State) : s.tick.combine = s.combine := rfl
@[simp] theorem State.tick_launches (s : State) : s.tick.launches = s.launches := rfl
@[simp] theorem State.tick_trapqs (s : State) : s.tick.trapqs = s.trapqs := rfl
@[simp] theorem State.tick_copyMsgs (s : State) : s.tick.copyMsgs = s.copyMsgs := rfl
@[simp] theorem State.tick_queues (s : State) : s.tick.queues = s.queues := rfl
@[simp] theorem State.tick_cwords (s : State) : s.tick.cwords = s.cwords := rfl
@[simp] theorem State.tick_flits (s : State) : s.tick.flits = s.flits := rfl
@[simp] theorem State.tick_rmsgs (s : State) : s.tick.rmsgs = s.rmsgs := rfl
@[simp] theorem State.tick_rreads (s : State) : s.tick.rreads = s.rreads := rfl
@[simp] theorem State.tick_steps (s : State) : s.tick.steps = s.steps := rfl
@[simp] theorem State.tick_collCur (s : State) : s.tick.collCur = s.collCur := rfl
@[simp] theorem State.tick_arrived (s : State) : s.tick.arrived = s.arrived := rfl
@[simp] theorem State.tick_feats (s : State) : s.tick.feats = s.feats := rfl
@[simp] theorem State.tick_parts (s : State) : s.tick.parts = s.parts := rfl
@[simp] theorem State.tick_barWait (s : State) : s.tick.barWait = s.barWait := rfl
@[simp] theorem State.tick_boot (s : State) : s.tick.boot = s.boot := rfl
@[simp] theorem State.tick_power (s : State) : s.tick.power = s.power := rfl
@[simp] theorem State.tick_msix (s : State) : s.tick.msix = s.msix := rfl
@[simp] theorem State.tick_gated (s : State) : s.tick.gated = s.gated := rfl
@[simp] theorem State.tick_gate (s : State) : s.tick.gate = s.gate := rfl
@[simp] theorem State.tick_endpoints (s : State) : s.tick.endpoints = s.endpoints := rfl
@[simp] theorem State.tick_domains (s : State) : s.tick.domains = s.domains := rfl
@[simp] theorem State.tick_rx (s : State) : s.tick.rx = s.rx := rfl
@[simp] theorem State.tick_tx (s : State) : s.tick.tx = s.tx := rfl
@[simp] theorem State.tick_wire (s : State) : s.tick.wire = s.wire := rfl
@[simp] theorem State.tick_pdcs (s : State) : s.tick.pdcs = s.pdcs := rfl
@[simp] theorem State.tick_heldPackets (s : State) : s.tick.heldPackets = s.heldPackets := rfl
@[simp] theorem State.tick_combining (s : State) : s.tick.combining = s.combining := rfl
@[simp] theorem State.tick_evBad (s : State) : s.tick.evBad = s.evBad := rfl
@[simp] theorem State.tick_ethDown (s : State) : s.tick.ethDown = s.ethDown := rfl
@[simp] theorem State.tick_cxlDown (s : State) : s.tick.cxlDown = s.cxlDown := rfl
@[simp] theorem State.tick_driverQs (s : State) : s.tick.driverQs = s.driverQs := rfl
@[simp] theorem State.tick_pages (s : State) : s.tick.pages = s.pages := rfl
@[simp] theorem State.tick_pageWait (s : State) : s.tick.pageWait = s.pageWait := rfl
@[simp] theorem State.tick_pools (s : State) : s.tick.pools = s.pools := rfl
@[simp] theorem State.tick_engAsids (s : State) : s.tick.engAsids = s.engAsids := rfl
@[simp] theorem State.tick_ssdDown (s : State) : s.tick.ssdDown = s.ssdDown := rfl
@[simp] theorem State.tick_windows (s : State) : s.tick.windows = s.windows := rfl
@[simp] theorem State.tick_rings (s : State) : s.tick.rings = s.rings := rfl
@[simp] theorem State.tick_handles (s : State) : s.tick.handles = s.handles := rfl
@[simp] theorem State.tick_users (s : State) : s.tick.users = s.users := rfl
@[simp] theorem State.tick_armed (s : State) : s.tick.armed = s.armed := rfl
@[simp] theorem State.tick_shoot (s : State) : s.tick.shoot = s.shoot := rfl
@[simp] theorem State.tick_stset (s : State) : s.tick.stset = s.stset := rfl
@[simp] theorem State.tick_tset (s : State) : s.tick.tset = s.tset := rfl
@[simp] theorem State.tick_slices (s : State) : s.tick.slices = s.slices := rfl
@[simp] theorem State.tick_engLast (s : State) : s.tick.engLast = s.engLast := rfl
@[simp] theorem State.tick_savedCopies (s : State) : s.tick.savedCopies = s.savedCopies := rfl
@[simp] theorem State.tick_reads (s : State) : s.tick.reads = s.reads := rfl

/-! ## setReq -/

@[simp] theorem State.setReq_cyc (s : State) (r : Req) : (s.setReq r).cyc = s.cyc := rfl
@[simp] theorem State.setReq_agenda (s : State) (r : Req) : (s.setReq r).agenda = s.agenda := rfl
@[simp] theorem State.setReq_issuedNow (s : State) (r : Req) : (s.setReq r).issuedNow = s.issuedNow := rfl
@[simp] theorem State.setReq_cur (s : State) (r : Req) : (s.setReq r).cur = s.cur := rfl
@[simp] theorem State.setReq_nextId (s : State) (r : Req) : (s.setReq r).nextId = s.nextId := rfl
@[simp] theorem State.setReq_uses (s : State) (r : Req) : (s.setReq r).uses = s.uses := rfl
@[simp] theorem State.setReq_pf (s : State) (r : Req) : (s.setReq r).pf = s.pf := rfl
@[simp] theorem State.setReq_vfr (s : State) (r : Req) : (s.setReq r).vfr = s.vfr := rfl
@[simp] theorem State.setReq_mem (s : State) (r : Req) : (s.setReq r).mem = s.mem := rfl
@[simp] theorem State.setReq_tiles (s : State) (r : Req) : (s.setReq r).tiles = s.tiles := rfl
@[simp] theorem State.setReq_counts (s : State) (r : Req) : (s.setReq r).counts = s.counts := rfl
@[simp] theorem State.setReq_tlb2 (s : State) (r : Req) : (s.setReq r).tlb2 = s.tlb2 := rfl
@[simp] theorem State.setReq_faults (s : State) (r : Req) : (s.setReq r).faults = s.faults := rfl
@[simp] theorem State.setReq_combine (s : State) (r : Req) : (s.setReq r).combine = s.combine := rfl
@[simp] theorem State.setReq_launches (s : State) (r : Req) : (s.setReq r).launches = s.launches := rfl
@[simp] theorem State.setReq_trapqs (s : State) (r : Req) : (s.setReq r).trapqs = s.trapqs := rfl
@[simp] theorem State.setReq_copyMsgs (s : State) (r : Req) : (s.setReq r).copyMsgs = s.copyMsgs := rfl
@[simp] theorem State.setReq_queues (s : State) (r : Req) : (s.setReq r).queues = s.queues := rfl
@[simp] theorem State.setReq_cwords (s : State) (r : Req) : (s.setReq r).cwords = s.cwords := rfl
@[simp] theorem State.setReq_flits (s : State) (r : Req) : (s.setReq r).flits = s.flits := rfl
@[simp] theorem State.setReq_rmsgs (s : State) (r : Req) : (s.setReq r).rmsgs = s.rmsgs := rfl
@[simp] theorem State.setReq_rreads (s : State) (r : Req) : (s.setReq r).rreads = s.rreads := rfl
@[simp] theorem State.setReq_steps (s : State) (r : Req) : (s.setReq r).steps = s.steps := rfl
@[simp] theorem State.setReq_collCur (s : State) (r : Req) : (s.setReq r).collCur = s.collCur := rfl
@[simp] theorem State.setReq_arrived (s : State) (r : Req) : (s.setReq r).arrived = s.arrived := rfl
@[simp] theorem State.setReq_ref6 (s : State) (r : Req) : (s.setReq r).ref6 = s.ref6 := rfl
@[simp] theorem State.setReq_feats (s : State) (r : Req) : (s.setReq r).feats = s.feats := rfl
@[simp] theorem State.setReq_parts (s : State) (r : Req) : (s.setReq r).parts = s.parts := rfl
@[simp] theorem State.setReq_barWait (s : State) (r : Req) : (s.setReq r).barWait = s.barWait := rfl
@[simp] theorem State.setReq_boot (s : State) (r : Req) : (s.setReq r).boot = s.boot := rfl
@[simp] theorem State.setReq_power (s : State) (r : Req) : (s.setReq r).power = s.power := rfl
@[simp] theorem State.setReq_msix (s : State) (r : Req) : (s.setReq r).msix = s.msix := rfl
@[simp] theorem State.setReq_gated (s : State) (r : Req) : (s.setReq r).gated = s.gated := rfl
@[simp] theorem State.setReq_gate (s : State) (r : Req) : (s.setReq r).gate = s.gate := rfl
@[simp] theorem State.setReq_endpoints (s : State) (r : Req) : (s.setReq r).endpoints = s.endpoints := rfl
@[simp] theorem State.setReq_domains (s : State) (r : Req) : (s.setReq r).domains = s.domains := rfl
@[simp] theorem State.setReq_rx (s : State) (r : Req) : (s.setReq r).rx = s.rx := rfl
@[simp] theorem State.setReq_tx (s : State) (r : Req) : (s.setReq r).tx = s.tx := rfl
@[simp] theorem State.setReq_wire (s : State) (r : Req) : (s.setReq r).wire = s.wire := rfl
@[simp] theorem State.setReq_pdcs (s : State) (r : Req) : (s.setReq r).pdcs = s.pdcs := rfl
@[simp] theorem State.setReq_heldPackets (s : State) (r : Req) : (s.setReq r).heldPackets = s.heldPackets := rfl
@[simp] theorem State.setReq_combining (s : State) (r : Req) : (s.setReq r).combining = s.combining := rfl
@[simp] theorem State.setReq_evBad (s : State) (r : Req) : (s.setReq r).evBad = s.evBad := rfl
@[simp] theorem State.setReq_ethDown (s : State) (r : Req) : (s.setReq r).ethDown = s.ethDown := rfl
@[simp] theorem State.setReq_cxlDown (s : State) (r : Req) : (s.setReq r).cxlDown = s.cxlDown := rfl
@[simp] theorem State.setReq_driverQs (s : State) (r : Req) : (s.setReq r).driverQs = s.driverQs := rfl
@[simp] theorem State.setReq_pages (s : State) (r : Req) : (s.setReq r).pages = s.pages := rfl
@[simp] theorem State.setReq_pageWait (s : State) (r : Req) : (s.setReq r).pageWait = s.pageWait := rfl
@[simp] theorem State.setReq_pools (s : State) (r : Req) : (s.setReq r).pools = s.pools := rfl
@[simp] theorem State.setReq_engAsids (s : State) (r : Req) : (s.setReq r).engAsids = s.engAsids := rfl
@[simp] theorem State.setReq_ssdDown (s : State) (r : Req) : (s.setReq r).ssdDown = s.ssdDown := rfl
@[simp] theorem State.setReq_windows (s : State) (r : Req) : (s.setReq r).windows = s.windows := rfl
@[simp] theorem State.setReq_rings (s : State) (r : Req) : (s.setReq r).rings = s.rings := rfl
@[simp] theorem State.setReq_handles (s : State) (r : Req) : (s.setReq r).handles = s.handles := rfl
@[simp] theorem State.setReq_users (s : State) (r : Req) : (s.setReq r).users = s.users := rfl
@[simp] theorem State.setReq_armed (s : State) (r : Req) : (s.setReq r).armed = s.armed := rfl
@[simp] theorem State.setReq_shoot (s : State) (r : Req) : (s.setReq r).shoot = s.shoot := rfl
@[simp] theorem State.setReq_stset (s : State) (r : Req) : (s.setReq r).stset = s.stset := rfl
@[simp] theorem State.setReq_tset (s : State) (r : Req) : (s.setReq r).tset = s.tset := rfl
@[simp] theorem State.setReq_slices (s : State) (r : Req) : (s.setReq r).slices = s.slices := rfl
@[simp] theorem State.setReq_engLast (s : State) (r : Req) : (s.setReq r).engLast = s.engLast := rfl
@[simp] theorem State.setReq_savedCopies (s : State) (r : Req) : (s.setReq r).savedCopies = s.savedCopies := rfl
@[simp] theorem State.setReq_reads (s : State) (r : Req) : (s.setReq r).reads = s.reads := rfl

/-! ## dropReq -/

@[simp] theorem State.dropReq_cyc (s : State) (id : Nat) : (s.dropReq id).cyc = s.cyc := rfl
@[simp] theorem State.dropReq_agenda (s : State) (id : Nat) : (s.dropReq id).agenda = s.agenda := rfl
@[simp] theorem State.dropReq_issuedNow (s : State) (id : Nat) : (s.dropReq id).issuedNow = s.issuedNow := rfl
@[simp] theorem State.dropReq_cur (s : State) (id : Nat) : (s.dropReq id).cur = s.cur := rfl
@[simp] theorem State.dropReq_nextId (s : State) (id : Nat) : (s.dropReq id).nextId = s.nextId := rfl
@[simp] theorem State.dropReq_uses (s : State) (id : Nat) : (s.dropReq id).uses = s.uses := rfl
@[simp] theorem State.dropReq_pf (s : State) (id : Nat) : (s.dropReq id).pf = s.pf := rfl
@[simp] theorem State.dropReq_vfr (s : State) (id : Nat) : (s.dropReq id).vfr = s.vfr := rfl
@[simp] theorem State.dropReq_mem (s : State) (id : Nat) : (s.dropReq id).mem = s.mem := rfl
@[simp] theorem State.dropReq_tiles (s : State) (id : Nat) : (s.dropReq id).tiles = s.tiles := rfl
@[simp] theorem State.dropReq_counts (s : State) (id : Nat) : (s.dropReq id).counts = s.counts := rfl
@[simp] theorem State.dropReq_tlb2 (s : State) (id : Nat) : (s.dropReq id).tlb2 = s.tlb2 := rfl
@[simp] theorem State.dropReq_faults (s : State) (id : Nat) : (s.dropReq id).faults = s.faults := rfl
@[simp] theorem State.dropReq_combine (s : State) (id : Nat) : (s.dropReq id).combine = s.combine := rfl
@[simp] theorem State.dropReq_launches (s : State) (id : Nat) : (s.dropReq id).launches = s.launches := rfl
@[simp] theorem State.dropReq_trapqs (s : State) (id : Nat) : (s.dropReq id).trapqs = s.trapqs := rfl
@[simp] theorem State.dropReq_copyMsgs (s : State) (id : Nat) : (s.dropReq id).copyMsgs = s.copyMsgs := rfl
@[simp] theorem State.dropReq_queues (s : State) (id : Nat) : (s.dropReq id).queues = s.queues := rfl
@[simp] theorem State.dropReq_cwords (s : State) (id : Nat) : (s.dropReq id).cwords = s.cwords := rfl
@[simp] theorem State.dropReq_flits (s : State) (id : Nat) : (s.dropReq id).flits = s.flits := rfl
@[simp] theorem State.dropReq_rmsgs (s : State) (id : Nat) : (s.dropReq id).rmsgs = s.rmsgs := rfl
@[simp] theorem State.dropReq_rreads (s : State) (id : Nat) : (s.dropReq id).rreads = s.rreads := rfl
@[simp] theorem State.dropReq_steps (s : State) (id : Nat) : (s.dropReq id).steps = s.steps := rfl
@[simp] theorem State.dropReq_collCur (s : State) (id : Nat) : (s.dropReq id).collCur = s.collCur := rfl
@[simp] theorem State.dropReq_arrived (s : State) (id : Nat) : (s.dropReq id).arrived = s.arrived := rfl
@[simp] theorem State.dropReq_ref6 (s : State) (id : Nat) : (s.dropReq id).ref6 = s.ref6 := rfl
@[simp] theorem State.dropReq_feats (s : State) (id : Nat) : (s.dropReq id).feats = s.feats := rfl
@[simp] theorem State.dropReq_parts (s : State) (id : Nat) : (s.dropReq id).parts = s.parts := rfl
@[simp] theorem State.dropReq_barWait (s : State) (id : Nat) : (s.dropReq id).barWait = s.barWait := rfl
@[simp] theorem State.dropReq_boot (s : State) (id : Nat) : (s.dropReq id).boot = s.boot := rfl
@[simp] theorem State.dropReq_power (s : State) (id : Nat) : (s.dropReq id).power = s.power := rfl
@[simp] theorem State.dropReq_msix (s : State) (id : Nat) : (s.dropReq id).msix = s.msix := rfl
@[simp] theorem State.dropReq_gated (s : State) (id : Nat) : (s.dropReq id).gated = s.gated := rfl
@[simp] theorem State.dropReq_gate (s : State) (id : Nat) : (s.dropReq id).gate = s.gate := rfl
@[simp] theorem State.dropReq_endpoints (s : State) (id : Nat) : (s.dropReq id).endpoints = s.endpoints := rfl
@[simp] theorem State.dropReq_domains (s : State) (id : Nat) : (s.dropReq id).domains = s.domains := rfl
@[simp] theorem State.dropReq_rx (s : State) (id : Nat) : (s.dropReq id).rx = s.rx := rfl
@[simp] theorem State.dropReq_tx (s : State) (id : Nat) : (s.dropReq id).tx = s.tx := rfl
@[simp] theorem State.dropReq_wire (s : State) (id : Nat) : (s.dropReq id).wire = s.wire := rfl
@[simp] theorem State.dropReq_pdcs (s : State) (id : Nat) : (s.dropReq id).pdcs = s.pdcs := rfl
@[simp] theorem State.dropReq_heldPackets (s : State) (id : Nat) : (s.dropReq id).heldPackets = s.heldPackets := rfl
@[simp] theorem State.dropReq_combining (s : State) (id : Nat) : (s.dropReq id).combining = s.combining := rfl
@[simp] theorem State.dropReq_evBad (s : State) (id : Nat) : (s.dropReq id).evBad = s.evBad := rfl
@[simp] theorem State.dropReq_ethDown (s : State) (id : Nat) : (s.dropReq id).ethDown = s.ethDown := rfl
@[simp] theorem State.dropReq_cxlDown (s : State) (id : Nat) : (s.dropReq id).cxlDown = s.cxlDown := rfl
@[simp] theorem State.dropReq_driverQs (s : State) (id : Nat) : (s.dropReq id).driverQs = s.driverQs := rfl
@[simp] theorem State.dropReq_pages (s : State) (id : Nat) : (s.dropReq id).pages = s.pages := rfl
@[simp] theorem State.dropReq_pageWait (s : State) (id : Nat) : (s.dropReq id).pageWait = s.pageWait := rfl
@[simp] theorem State.dropReq_pools (s : State) (id : Nat) : (s.dropReq id).pools = s.pools := rfl
@[simp] theorem State.dropReq_engAsids (s : State) (id : Nat) : (s.dropReq id).engAsids = s.engAsids := rfl
@[simp] theorem State.dropReq_ssdDown (s : State) (id : Nat) : (s.dropReq id).ssdDown = s.ssdDown := rfl
@[simp] theorem State.dropReq_windows (s : State) (id : Nat) : (s.dropReq id).windows = s.windows := rfl
@[simp] theorem State.dropReq_rings (s : State) (id : Nat) : (s.dropReq id).rings = s.rings := rfl
@[simp] theorem State.dropReq_handles (s : State) (id : Nat) : (s.dropReq id).handles = s.handles := rfl
@[simp] theorem State.dropReq_users (s : State) (id : Nat) : (s.dropReq id).users = s.users := rfl
@[simp] theorem State.dropReq_armed (s : State) (id : Nat) : (s.dropReq id).armed = s.armed := rfl
@[simp] theorem State.dropReq_shoot (s : State) (id : Nat) : (s.dropReq id).shoot = s.shoot := rfl
@[simp] theorem State.dropReq_stset (s : State) (id : Nat) : (s.dropReq id).stset = s.stset := rfl
@[simp] theorem State.dropReq_tset (s : State) (id : Nat) : (s.dropReq id).tset = s.tset := rfl
@[simp] theorem State.dropReq_slices (s : State) (id : Nat) : (s.dropReq id).slices = s.slices := rfl
@[simp] theorem State.dropReq_engLast (s : State) (id : Nat) : (s.dropReq id).engLast = s.engLast := rfl
@[simp] theorem State.dropReq_savedCopies (s : State) (id : Nat) : (s.dropReq id).savedCopies = s.savedCopies := rfl
@[simp] theorem State.dropReq_reads (s : State) (id : Nat) : (s.dropReq id).reads = s.reads := rfl

/-! ## onLaunchTiles -/

@[simp] theorem State.onLaunchTiles_cyc (s : State) (k : Nat) (f : Tile → Tile) : (s.onLaunchTiles k f).cyc = s.cyc := rfl
@[simp] theorem State.onLaunchTiles_agenda (s : State) (k : Nat) (f : Tile → Tile) : (s.onLaunchTiles k f).agenda = s.agenda := rfl
@[simp] theorem State.onLaunchTiles_issuedNow (s : State) (k : Nat) (f : Tile → Tile) : (s.onLaunchTiles k f).issuedNow = s.issuedNow := rfl
@[simp] theorem State.onLaunchTiles_cur (s : State) (k : Nat) (f : Tile → Tile) : (s.onLaunchTiles k f).cur = s.cur := rfl
@[simp] theorem State.onLaunchTiles_nextId (s : State) (k : Nat) (f : Tile → Tile) : (s.onLaunchTiles k f).nextId = s.nextId := rfl
@[simp] theorem State.onLaunchTiles_uses (s : State) (k : Nat) (f : Tile → Tile) : (s.onLaunchTiles k f).uses = s.uses := rfl
@[simp] theorem State.onLaunchTiles_pf (s : State) (k : Nat) (f : Tile → Tile) : (s.onLaunchTiles k f).pf = s.pf := rfl
@[simp] theorem State.onLaunchTiles_vfr (s : State) (k : Nat) (f : Tile → Tile) : (s.onLaunchTiles k f).vfr = s.vfr := rfl
@[simp] theorem State.onLaunchTiles_mem (s : State) (k : Nat) (f : Tile → Tile) : (s.onLaunchTiles k f).mem = s.mem := rfl
@[simp] theorem State.onLaunchTiles_reqs (s : State) (k : Nat) (f : Tile → Tile) : (s.onLaunchTiles k f).reqs = s.reqs := rfl
@[simp] theorem State.onLaunchTiles_counts (s : State) (k : Nat) (f : Tile → Tile) : (s.onLaunchTiles k f).counts = s.counts := rfl
@[simp] theorem State.onLaunchTiles_tlb2 (s : State) (k : Nat) (f : Tile → Tile) : (s.onLaunchTiles k f).tlb2 = s.tlb2 := rfl
@[simp] theorem State.onLaunchTiles_faults (s : State) (k : Nat) (f : Tile → Tile) : (s.onLaunchTiles k f).faults = s.faults := rfl
@[simp] theorem State.onLaunchTiles_combine (s : State) (k : Nat) (f : Tile → Tile) : (s.onLaunchTiles k f).combine = s.combine := rfl
@[simp] theorem State.onLaunchTiles_launches (s : State) (k : Nat) (f : Tile → Tile) : (s.onLaunchTiles k f).launches = s.launches := rfl
@[simp] theorem State.onLaunchTiles_trapqs (s : State) (k : Nat) (f : Tile → Tile) : (s.onLaunchTiles k f).trapqs = s.trapqs := rfl
@[simp] theorem State.onLaunchTiles_copyMsgs (s : State) (k : Nat) (f : Tile → Tile) : (s.onLaunchTiles k f).copyMsgs = s.copyMsgs := rfl
@[simp] theorem State.onLaunchTiles_queues (s : State) (k : Nat) (f : Tile → Tile) : (s.onLaunchTiles k f).queues = s.queues := rfl
@[simp] theorem State.onLaunchTiles_cwords (s : State) (k : Nat) (f : Tile → Tile) : (s.onLaunchTiles k f).cwords = s.cwords := rfl
@[simp] theorem State.onLaunchTiles_flits (s : State) (k : Nat) (f : Tile → Tile) : (s.onLaunchTiles k f).flits = s.flits := rfl
@[simp] theorem State.onLaunchTiles_rmsgs (s : State) (k : Nat) (f : Tile → Tile) : (s.onLaunchTiles k f).rmsgs = s.rmsgs := rfl
@[simp] theorem State.onLaunchTiles_rreads (s : State) (k : Nat) (f : Tile → Tile) : (s.onLaunchTiles k f).rreads = s.rreads := rfl
@[simp] theorem State.onLaunchTiles_steps (s : State) (k : Nat) (f : Tile → Tile) : (s.onLaunchTiles k f).steps = s.steps := rfl
@[simp] theorem State.onLaunchTiles_collCur (s : State) (k : Nat) (f : Tile → Tile) : (s.onLaunchTiles k f).collCur = s.collCur := rfl
@[simp] theorem State.onLaunchTiles_arrived (s : State) (k : Nat) (f : Tile → Tile) : (s.onLaunchTiles k f).arrived = s.arrived := rfl
@[simp] theorem State.onLaunchTiles_ref6 (s : State) (k : Nat) (f : Tile → Tile) : (s.onLaunchTiles k f).ref6 = s.ref6 := rfl
@[simp] theorem State.onLaunchTiles_feats (s : State) (k : Nat) (f : Tile → Tile) : (s.onLaunchTiles k f).feats = s.feats := rfl
@[simp] theorem State.onLaunchTiles_parts (s : State) (k : Nat) (f : Tile → Tile) : (s.onLaunchTiles k f).parts = s.parts := rfl
@[simp] theorem State.onLaunchTiles_barWait (s : State) (k : Nat) (f : Tile → Tile) : (s.onLaunchTiles k f).barWait = s.barWait := rfl
@[simp] theorem State.onLaunchTiles_boot (s : State) (k : Nat) (f : Tile → Tile) : (s.onLaunchTiles k f).boot = s.boot := rfl
@[simp] theorem State.onLaunchTiles_power (s : State) (k : Nat) (f : Tile → Tile) : (s.onLaunchTiles k f).power = s.power := rfl
@[simp] theorem State.onLaunchTiles_msix (s : State) (k : Nat) (f : Tile → Tile) : (s.onLaunchTiles k f).msix = s.msix := rfl
@[simp] theorem State.onLaunchTiles_gated (s : State) (k : Nat) (f : Tile → Tile) : (s.onLaunchTiles k f).gated = s.gated := rfl
@[simp] theorem State.onLaunchTiles_gate (s : State) (k : Nat) (f : Tile → Tile) : (s.onLaunchTiles k f).gate = s.gate := rfl
@[simp] theorem State.onLaunchTiles_endpoints (s : State) (k : Nat) (f : Tile → Tile) : (s.onLaunchTiles k f).endpoints = s.endpoints := rfl
@[simp] theorem State.onLaunchTiles_domains (s : State) (k : Nat) (f : Tile → Tile) : (s.onLaunchTiles k f).domains = s.domains := rfl
@[simp] theorem State.onLaunchTiles_rx (s : State) (k : Nat) (f : Tile → Tile) : (s.onLaunchTiles k f).rx = s.rx := rfl
@[simp] theorem State.onLaunchTiles_tx (s : State) (k : Nat) (f : Tile → Tile) : (s.onLaunchTiles k f).tx = s.tx := rfl
@[simp] theorem State.onLaunchTiles_wire (s : State) (k : Nat) (f : Tile → Tile) : (s.onLaunchTiles k f).wire = s.wire := rfl
@[simp] theorem State.onLaunchTiles_pdcs (s : State) (k : Nat) (f : Tile → Tile) : (s.onLaunchTiles k f).pdcs = s.pdcs := rfl
@[simp] theorem State.onLaunchTiles_heldPackets (s : State) (k : Nat) (f : Tile → Tile) : (s.onLaunchTiles k f).heldPackets = s.heldPackets := rfl
@[simp] theorem State.onLaunchTiles_combining (s : State) (k : Nat) (f : Tile → Tile) : (s.onLaunchTiles k f).combining = s.combining := rfl
@[simp] theorem State.onLaunchTiles_evBad (s : State) (k : Nat) (f : Tile → Tile) : (s.onLaunchTiles k f).evBad = s.evBad := rfl
@[simp] theorem State.onLaunchTiles_ethDown (s : State) (k : Nat) (f : Tile → Tile) : (s.onLaunchTiles k f).ethDown = s.ethDown := rfl
@[simp] theorem State.onLaunchTiles_cxlDown (s : State) (k : Nat) (f : Tile → Tile) : (s.onLaunchTiles k f).cxlDown = s.cxlDown := rfl
@[simp] theorem State.onLaunchTiles_driverQs (s : State) (k : Nat) (f : Tile → Tile) : (s.onLaunchTiles k f).driverQs = s.driverQs := rfl
@[simp] theorem State.onLaunchTiles_pages (s : State) (k : Nat) (f : Tile → Tile) : (s.onLaunchTiles k f).pages = s.pages := rfl
@[simp] theorem State.onLaunchTiles_pageWait (s : State) (k : Nat) (f : Tile → Tile) : (s.onLaunchTiles k f).pageWait = s.pageWait := rfl
@[simp] theorem State.onLaunchTiles_pools (s : State) (k : Nat) (f : Tile → Tile) : (s.onLaunchTiles k f).pools = s.pools := rfl
@[simp] theorem State.onLaunchTiles_engAsids (s : State) (k : Nat) (f : Tile → Tile) : (s.onLaunchTiles k f).engAsids = s.engAsids := rfl
@[simp] theorem State.onLaunchTiles_ssdDown (s : State) (k : Nat) (f : Tile → Tile) : (s.onLaunchTiles k f).ssdDown = s.ssdDown := rfl
@[simp] theorem State.onLaunchTiles_windows (s : State) (k : Nat) (f : Tile → Tile) : (s.onLaunchTiles k f).windows = s.windows := rfl
@[simp] theorem State.onLaunchTiles_rings (s : State) (k : Nat) (f : Tile → Tile) : (s.onLaunchTiles k f).rings = s.rings := rfl
@[simp] theorem State.onLaunchTiles_handles (s : State) (k : Nat) (f : Tile → Tile) : (s.onLaunchTiles k f).handles = s.handles := rfl
@[simp] theorem State.onLaunchTiles_users (s : State) (k : Nat) (f : Tile → Tile) : (s.onLaunchTiles k f).users = s.users := rfl
@[simp] theorem State.onLaunchTiles_armed (s : State) (k : Nat) (f : Tile → Tile) : (s.onLaunchTiles k f).armed = s.armed := rfl
@[simp] theorem State.onLaunchTiles_shoot (s : State) (k : Nat) (f : Tile → Tile) : (s.onLaunchTiles k f).shoot = s.shoot := rfl
@[simp] theorem State.onLaunchTiles_stset (s : State) (k : Nat) (f : Tile → Tile) : (s.onLaunchTiles k f).stset = s.stset := rfl
@[simp] theorem State.onLaunchTiles_tset (s : State) (k : Nat) (f : Tile → Tile) : (s.onLaunchTiles k f).tset = s.tset := rfl
@[simp] theorem State.onLaunchTiles_slices (s : State) (k : Nat) (f : Tile → Tile) : (s.onLaunchTiles k f).slices = s.slices := rfl
@[simp] theorem State.onLaunchTiles_engLast (s : State) (k : Nat) (f : Tile → Tile) : (s.onLaunchTiles k f).engLast = s.engLast := rfl
@[simp] theorem State.onLaunchTiles_savedCopies (s : State) (k : Nat) (f : Tile → Tile) : (s.onLaunchTiles k f).savedCopies = s.savedCopies := rfl
@[simp] theorem State.onLaunchTiles_reads (s : State) (k : Nat) (f : Tile → Tile) : (s.onLaunchTiles k f).reads = s.reads := rfl

/-! ## A context of a tile -/

@[simp] theorem Tile.updCtx_grp (v : Tile) (c : Nat) (f : Ctx → Ctx) : (v.updCtx c f).grp = v.grp := rfl
@[simp] theorem Tile.updCtx_rotLo (v : Tile) (c : Nat) (f : Ctx → Ctx) : (v.updCtx c f).rotLo = v.rotLo := rfl
@[simp] theorem Tile.updCtx_rotHi (v : Tile) (c : Nat) (f : Ctx → Ctx) : (v.updCtx c f).rotHi = v.rotHi := rfl
@[simp] theorem Tile.updCtx_rotNext (v : Tile) (c : Nat) (f : Ctx → Ctx) : (v.updCtx c f).rotNext = v.rotNext := rfl
@[simp] theorem Tile.updCtx_rotAt (v : Tile) (c : Nat) (f : Ctx → Ctx) : (v.updCtx c f).rotAt = v.rotAt := rfl
@[simp] theorem Tile.updCtx_swap (v : Tile) (c : Nat) (f : Ctx → Ctx) : (v.updCtx c f).swap = v.swap := rfl
@[simp] theorem Tile.updCtx_acc (v : Tile) (c : Nat) (f : Ctx → Ctx) : (v.updCtx c f).acc = v.acc := rfl
@[simp] theorem Tile.updCtx_bank (v : Tile) (c : Nat) (f : Ctx → Ctx) : (v.updCtx c f).bank = v.bank := rfl
@[simp] theorem Tile.updCtx_sem (v : Tile) (c : Nat) (f : Ctx → Ctx) : (v.updCtx c f).sem = v.sem := rfl
@[simp] theorem Tile.updCtx_semWait (v : Tile) (c : Nat) (f : Ctx → Ctx) : (v.updCtx c f).semWait = v.semWait := rfl
@[simp] theorem Tile.updCtx_rttgt (v : Tile) (c : Nat) (f : Ctx → Ctx) : (v.updCtx c f).rttgt = v.rttgt := rfl
@[simp] theorem Tile.updCtx_reasm (v : Tile) (c : Nat) (f : Ctx → Ctx) : (v.updCtx c f).reasm = v.reasm := rfl
@[simp] theorem Tile.updCtx_route (v : Tile) (c : Nat) (f : Ctx → Ctx) : (v.updCtx c f).route = v.route := rfl
@[simp] theorem Tile.updCtx_vq (v : Tile) (c : Nat) (f : Ctx → Ctx) : (v.updCtx c f).vq = v.vq := rfl
@[simp] theorem Tile.updCtx_vrun (v : Tile) (c : Nat) (f : Ctx → Ctx) : (v.updCtx c f).vrun = v.vrun := rfl
@[simp] theorem Tile.updCtx_mrun (v : Tile) (c : Nat) (f : Ctx → Ctx) : (v.updCtx c f).mrun = v.mrun := rfl
@[simp] theorem Tile.updCtx_mbuf (v : Tile) (c : Nat) (f : Ctx → Ctx) : (v.updCtx c f).mbuf = v.mbuf := rfl
@[simp] theorem Tile.updCtx_mfree (v : Tile) (c : Nat) (f : Ctx → Ctx) : (v.updCtx c f).mfree = v.mfree := rfl
@[simp] theorem Tile.updCtx_bankTill (v : Tile) (c : Nat) (f : Ctx → Ctx) : (v.updCtx c f).bankTill = v.bankTill := rfl
@[simp] theorem Tile.updCtx_divq (v : Tile) (c : Nat) (f : Ctx → Ctx) : (v.updCtx c f).divq = v.divq := rfl
@[simp] theorem Tile.updCtx_fdivq (v : Tile) (c : Nat) (f : Ctx → Ctx) : (v.updCtx c f).fdivq = v.fdivq := rfl
@[simp] theorem Tile.updCtx_l1 (v : Tile) (c : Nat) (f : Ctx → Ctx) : (v.updCtx c f).l1 = v.l1 := rfl
@[simp] theorem Tile.updCtx_parts (v : Tile) (c : Nat) (f : Ctx → Ctx) : (v.updCtx c f).parts = v.parts := rfl
@[simp] theorem Tile.updCtx_asids (v : Tile) (c : Nat) (f : Ctx → Ctx) : (v.updCtx c f).asids = v.asids := rfl
@[simp] theorem Tile.updCtx_tlb (v : Tile) (c : Nat) (f : Ctx → Ctx) : (v.updCtx c f).tlb = v.tlb := rfl
@[simp] theorem Tile.updCtx_icache (v : Tile) (c : Nat) (f : Ctx → Ctx) : (v.updCtx c f).icache = v.icache := rfl
@[simp] theorem Tile.updCtx_inH (v : Tile) (c : Nat) (f : Ctx → Ctx) : (v.updCtx c f).inH = v.inH := rfl
@[simp] theorem Tile.updCtx_inHTrap (v : Tile) (c : Nat) (f : Ctx → Ctx) : (v.updCtx c f).inHTrap = v.inHTrap := rfl
@[simp] theorem Tile.updCtx_held (v : Tile) (c : Nat) (f : Ctx → Ctx) : (v.updCtx c f).held = v.held := rfl
@[simp] theorem Tile.updCtx_pend (v : Tile) (c : Nat) (f : Ctx → Ctx) : (v.updCtx c f).pend = v.pend := rfl
@[simp] theorem Tile.updCtx_tepc (v : Tile) (c : Nat) (f : Ctx → Ctx) : (v.updCtx c f).tepc = v.tepc := rfl
@[simp] theorem Tile.updCtx_tfpc (v : Tile) (c : Nat) (f : Ctx → Ctx) : (v.updCtx c f).tfpc = v.tfpc := rfl
@[simp] theorem Tile.updCtx_taddr (v : Tile) (c : Nat) (f : Ctx → Ctx) : (v.updCtx c f).taddr = v.taddr := rfl
@[simp] theorem Tile.updCtx_tcause (v : Tile) (c : Nat) (f : Ctx → Ctx) : (v.updCtx c f).tcause = v.tcause := rfl
@[simp] theorem Tile.updCtx_junk (v : Tile) (c : Nat) (f : Ctx → Ctx) : (v.updCtx c f).junk = v.junk := rfl
@[simp] theorem Tile.updCtx_quiet (v : Tile) (c : Nat) (f : Ctx → Ctx) : (v.updCtx c f).quiet = v.quiet := rfl

/-! ## A register of a context -/

@[simp] theorem Ctx.setReg_state (x : Ctx) (r : Nat) (v : Reg) : (x.setReg r v).state = x.state := rfl
@[simp] theorem Ctx.setReg_slot (x : Ctx) (r : Nat) (v : Reg) : (x.setReg r v).slot = x.slot := rfl
@[simp] theorem Ctx.setReg_gen (x : Ctx) (r : Nat) (v : Reg) : (x.setReg r v).gen = x.gen := rfl
@[simp] theorem Ctx.setReg_ptr (x : Ctx) (r : Nat) (v : Reg) : (x.setReg r v).ptr = x.ptr := rfl
@[simp] theorem Ctx.setReg_str (x : Ctx) (r : Nat) (v : Reg) : (x.setReg r v).str = x.str := rfl
@[simp] theorem Ctx.setReg_seg (x : Ctx) (r : Nat) (v : Reg) : (x.setReg r v).seg = x.seg := rfl
@[simp] theorem Ctx.setReg_pc (x : Ctx) (r : Nat) (v : Reg) : (x.setReg r v).pc = x.pc := rfl
@[simp] theorem Ctx.setReg_iter (x : Ctx) (r : Nat) (v : Reg) : (x.setReg r v).iter = x.iter := rfl
@[simp] theorem Ctx.setReg_rnd (x : Ctx) (r : Nat) (v : Reg) : (x.setReg r v).rnd = x.rnd := rfl
@[simp] theorem Ctx.setReg_ffl (x : Ctx) (r : Nat) (v : Reg) : (x.setReg r v).ffl = x.ffl := rfl
@[simp] theorem Ctx.setReg_fflLate (x : Ctx) (r : Nat) (v : Reg) : (x.setReg r v).fflLate = x.fflLate := rfl
@[simp] theorem Ctx.setReg_vl (x : Ctx) (r : Nat) (v : Reg) : (x.setReg r v).vl = x.vl := rfl
@[simp] theorem Ctx.setReg_slim (x : Ctx) (r : Nat) (v : Reg) : (x.setReg r v).slim = x.slim := rfl
@[simp] theorem Ctx.setReg_qmap (x : Ctx) (r : Nat) (v : Reg) : (x.setReg r v).qmap = x.qmap := rfl
@[simp] theorem Ctx.setReg_qdest (x : Ctx) (r : Nat) (v : Reg) : (x.setReg r v).qdest = x.qdest := rfl
@[simp] theorem Ctx.setReg_role (x : Ctx) (r : Nat) (v : Reg) : (x.setReg r v).role = x.role := rfl
@[simp] theorem Ctx.setReg_schk (x : Ctx) (r : Nat) (v : Reg) : (x.setReg r v).schk = x.schk := rfl
@[simp] theorem Ctx.setReg_orph (x : Ctx) (r : Nat) (v : Reg) : (x.setReg r v).orph = x.orph := rfl
@[simp] theorem Ctx.setReg_rtmap (x : Ctx) (r : Nat) (v : Reg) : (x.setReg r v).rtmap = x.rtmap := rfl
@[simp] theorem Ctx.setReg_park (x : Ctx) (r : Nat) (v : Reg) : (x.setReg r v).park = x.park := rfl
@[simp] theorem Ctx.setReg_waitOn (x : Ctx) (r : Nat) (v : Reg) : (x.setReg r v).waitOn = x.waitOn := rfl
@[simp] theorem Ctx.setReg_sentBy (x : Ctx) (r : Nat) (v : Reg) : (x.setReg r v).sentBy = x.sentBy := rfl
@[simp] theorem Ctx.setReg_saved (x : Ctx) (r : Nat) (v : Reg) : (x.setReg r v).saved = x.saved := rfl
@[simp] theorem Ctx.setReg_recWait (x : Ctx) (r : Nat) (v : Reg) : (x.setReg r v).recWait = x.recWait := rfl
@[simp] theorem Ctx.setReg_parkedAt (x : Ctx) (r : Nat) (v : Reg) : (x.setReg r v).parkedAt = x.parkedAt := rfl
@[simp] theorem Ctx.setReg_readyAt (x : Ctx) (r : Nat) (v : Reg) : (x.setReg r v).readyAt = x.readyAt := rfl
@[simp] theorem Ctx.setReg_swapNow (x : Ctx) (r : Nat) (v : Reg) : (x.setReg r v).swapNow = x.swapNow := rfl
@[simp] theorem Ctx.setReg_busy (x : Ctx) (r : Nat) (v : Reg) : (x.setReg r v).busy = x.busy := rfl
@[simp] theorem Ctx.setReg_latch (x : Ctx) (r : Nat) (v : Reg) : (x.setReg r v).latch = x.latch := rfl
@[simp] theorem Ctx.setReg_lastCkpt (x : Ctx) (r : Nat) (v : Reg) : (x.setReg r v).lastCkpt = x.lastCkpt := rfl
@[simp] theorem Ctx.setReg_issued (x : Ctx) (r : Nat) (v : Reg) : (x.setReg r v).issued = x.issued := rfl
@[simp] theorem Ctx.setReg_spill (x : Ctx) (r : Nat) (v : Reg) : (x.setReg r v).spill = x.spill := rfl
@[simp] theorem Ctx.setReg_closed (x : Ctx) (r : Nat) (v : Reg) : (x.setReg r v).closed = x.closed := rfl
@[simp] theorem Ctx.setReg_clearing (x : Ctx) (r : Nat) (v : Reg) : (x.setReg r v).clearing = x.clearing := rfl
@[simp] theorem Ctx.setReg_relRnd (x : Ctx) (r : Nat) (v : Reg) : (x.setReg r v).relRnd = x.relRnd := rfl
@[simp] theorem Ctx.setReg_fences (x : Ctx) (r : Nat) (v : Reg) : (x.setReg r v).fences = x.fences := rfl
@[simp] theorem Ctx.setReg_rxq (x : Ctx) (r : Nat) (v : Reg) : (x.setReg r v).rxq = x.rxq := rfl
@[simp] theorem Ctx.setReg_fills (x : Ctx) (r : Nat) (v : Reg) : (x.setReg r v).fills = x.fills := rfl
@[simp] theorem Ctx.setReg_txPend (x : Ctx) (r : Nat) (v : Reg) : (x.setReg r v).txPend = x.txPend := rfl
@[simp] theorem Ctx.setReg_deferred (x : Ctx) (r : Nat) (v : Reg) : (x.setReg r v).deferred = x.deferred := rfl
@[simp] theorem Ctx.setReg_ckptStop (x : Ctx) (r : Nat) (v : Reg) : (x.setReg r v).ckptStop = x.ckptStop := rfl
@[simp] theorem Ctx.setReg_reduced (x : Ctx) (r : Nat) (v : Reg) : (x.setReg r v).reduced = x.reduced := rfl

/-! ## Places after an update -/

theorem State.tile_setTile (s : State) (t u : Nat) (v : Tile) : (s.setTile t v).tile u = if u = t then v else s.tile u :=
  Tbl.getD_put s.tiles t u v {}
@[simp] theorem State.tile_setTile_same (s : State) (t : Nat) (v : Tile) : (s.setTile t v).tile t = v := by simp [State.tile_setTile]
theorem State.tile_updTile (s : State) (t u : Nat) (f : Tile → Tile) : (s.updTile t f).tile u = if u = t then f (s.tile t) else s.tile u :=
  State.tile_setTile s t u _
@[simp] theorem State.tile_updTile_same (s : State) (t : Nat) (f : Tile → Tile) : (s.updTile t f).tile t = f (s.tile t) := by simp [State.tile_updTile]
theorem State.tile_updTile_other (s : State) {t u : Nat} (f : Tile → Tile) (h : u ≠ t) : (s.updTile t f).tile u = s.tile u := by
  simp [State.tile_updTile, h]

theorem Tile.ctx_updCtx (v : Tile) (c d : Nat) (f : Ctx → Ctx) : (v.updCtx c f).ctx d = if d = c then f (v.ctx c) else v.ctx d :=
  Tbl.getD_put v.ctxs c d _ {}
@[simp] theorem Tile.ctx_updCtx_same (v : Tile) (c : Nat) (f : Ctx → Ctx) : (v.updCtx c f).ctx c = f (v.ctx c) := by simp [Tile.ctx_updCtx]
theorem Tile.ctx_updCtx_other (v : Tile) {c d : Nat} (f : Ctx → Ctx) (h : d ≠ c) : (v.updCtx c f).ctx d = v.ctx d := by simp [Tile.ctx_updCtx, h]

@[simp] theorem State.tile_updCtx_same (s : State) (t c : Nat) (f : Ctx → Ctx) : (s.updCtx t c f).tile t = (s.tile t).updCtx c f :=
  State.tile_updTile_same s t _
theorem State.tile_updCtx_other (s : State) {t u : Nat} (c : Nat) (f : Ctx → Ctx) (h : u ≠ t) : (s.updCtx t c f).tile u = s.tile u :=
  State.tile_updTile_other s _ h
@[simp] theorem State.ctx_updCtx_same (s : State) (t c : Nat) (f : Ctx → Ctx) : (s.updCtx t c f).ctx t c = f (s.ctx t c) := by
  show ((s.updCtx t c f).tile t).ctx c = _
  rw [State.tile_updCtx_same, Tile.ctx_updCtx_same]; rfl
theorem State.ctx_updCtx_other (s : State) {t c u d : Nat} (f : Ctx → Ctx) (h : ¬(u = t ∧ d = c)) : (s.updCtx t c f).ctx u d = s.ctx u d := by
  show ((s.updCtx t c f).tile u).ctx d = (s.tile u).ctx d
  by_cases hu : u = t
  · subst hu
    rw [State.tile_updCtx_same, Tile.ctx_updCtx_other]
    exact fun hd => h ⟨rfl, hd⟩
  · rw [State.tile_updCtx_other s c f hu]
theorem State.ctx_updTile (s : State) (t c : Nat) (f : Tile → Tile) : (s.updTile t f).ctx t c = (f (s.tile t)).ctx c := by
  show ((s.updTile t f).tile t).ctx c = _
  rw [State.tile_updTile_same]
theorem State.ctx_updTile_other (s : State) {t u : Nat} (c : Nat) (f : Tile → Tile) (h : u ≠ t) : (s.updTile t f).ctx u c = s.ctx u c := by
  show ((s.updTile t f).tile u).ctx c = _
  rw [State.tile_updTile_other s f h]; rfl
/-- A tile update that leaves the contexts leaves every context of every tile. -/
theorem State.ctx_updTile_keep (s : State) (t u c : Nat) (f : Tile → Tile) (h : (f (s.tile t)).ctxs = (s.tile t).ctxs) : (s.updTile t f).ctx u c = s.ctx u c := by
  by_cases hu : u = t
  · subst hu; rw [State.ctx_updTile]; unfold Tile.ctx; rw [h]; rfl
  · exact State.ctx_updTile_other s c f hu

@[simp] theorem Ctx.reg_setReg_same (x : Ctx) (r : Nat) (v : Reg) (h : r < 32) : (x.setReg r v).reg r = v := Fixed.getD_set_same x.x r v {} h
theorem Ctx.reg_setReg_other (x : Ctx) {r q : Nat} (v : Reg) (h : q ≠ r) : (x.setReg r v).reg q = x.reg q := Fixed.getD_set_other x.x v {} h

@[simp] theorem State.pfr_setPf_same (s : State) (off : Nat) (v : Word) : (s.setPf off v).pfr off = v := Tbl.getD_put_same s.pf off v _
theorem State.pfr_setPf_other (s : State) {off o : Nat} (v : Word) (h : o ≠ off) : (s.setPf off v).pfr o = s.pfr o := Tbl.getD_put_other s.pf v _ h
@[simp] theorem State.vfReg_setVf_same (s : State) (v off : Nat) (w : Word) : (s.setVf v off w).vfReg v off = w :=
  Tbl.getD_put_same s.vfr (v * 0x10000 + off) w _
@[simp] theorem State.part_updPart_same (s : State) (p : Nat) (f : Part → Part) : (s.updPart p f).part p = f (s.part p) := Tbl.getD_put_same s.parts p _ _
theorem State.part_updPart_other (s : State) {p q : Nat} (f : Part → Part) (h : q ≠ p) : (s.updPart p f).part q = s.part q :=
  Tbl.getD_put_other s.parts _ _ h
@[simp] theorem State.tq_setTq_same (s : State) (p : Nat) (q : TrapQ) : (s.setTq p q).tq p = q := Tbl.getD_put_same s.trapqs p q _
theorem State.tq_setTq_other (s : State) {p o : Nat} (q : TrapQ) (h : o ≠ p) : (s.setTq p q).tq o = s.tq o := Tbl.getD_put_other s.trapqs q _ h
@[simp] theorem State.window_updWindow_same (s : State) (v w : Nat) (f : Window → Window) : (s.updWindow v w f).window v w = f (s.window v w) :=
  Tbl.getD_put_same s.windows (16 * v + w) _ _

/-- Where a byte is kept depends on the PF registers and on which partitions are enabled alone. -/
theorem State.memKey_congr {s u : State} (hp : u.pf = s.pf) (hq : u.parts = s.parts) (a : Nat) : u.memKey a = s.memKey a := by
  have h : ∀ n, u.vaultBytes n = s.vaultBytes n := fun n => by
    unfold State.vaultBytes State.holder State.vault State.partHas State.pfr; rw [hp, hq]
  unfold State.memKey State.inVault State.mrtOf State.cxlPort State.mrtOn State.mrtBase State.mrtSize State.mrtGran State.mrtPorts State.mrtHdm State.pfr
  rw [hp, h]

/-- A byte behind the caches depends on memory, on the ranges and on what a tile's group left undefined alone. -/
theorem State.memByte_congr {s u : State} (hm : u.mem = s.mem) (hp : u.pf = s.pf) (hq : u.parts = s.parts)
    (hj : ∀ t, (u.tile t).junk = (s.tile t).junk) (a : Nat) : u.memByte a = s.memByte a := by
  unfold State.memByte
  rw [hm, hj, State.memKey_congr hp hq]

/-- Reading a byte depends on memory, on the ranges and on what a tile's group left undefined alone. -/
theorem State.peek_congr {s u : State} (hm : u.mem = s.mem) (hp : u.pf = s.pf) (hq : u.parts = s.parts)
    (hj : ∀ t, (u.tile t).junk = (s.tile t).junk) (a : Nat) : u.peek a = s.peek a := by
  unfold State.peek State.cached
  rw [hm, State.memByte_congr hm hp hq hj]

end Sys2Proof.Machine
end

