-- ==== Sys2Proof/Laws/Issue.lean ====
section
/-!
SUPPORT. What one issue can do: the operand rules (R294), the end of an issue (R109, R284), the write of a register (R126, R140), and taking a trap.
-/
namespace Sys2Proof.Machine

/-- What a readable source gives. -/
theorem Says.src_of_readable {x : Ctx} {n r : Nat} {v : Word} (h : Says.readable x n r v) :
    (x.src n r = .ok v ∨ x.schk = false ∧ x.src n r = .short v) ∧ (x.mapped = true → r ≠ 31) := by
  rcases h with ⟨rfl, rfl⟩ | ⟨h0, hp, hf, hq, hs, rfl⟩
  · exact ⟨.inl (by simp [Ctx.src]), fun _ => by decide⟩
  · refine ⟨?_, fun hm => (hp hm).2⟩
    unfold Ctx.src
    rw [if_neg h0]
    have h1 : ¬(x.mapped && decide (r = 30)) = true := by
      intro h; simp only [Bool.and_eq_true, decide_eq_true_eq] at h; exact (hp h.1).1 h.2
    have h2 : ¬(x.mapped && decide (r = 31)) = true := by
      intro h; simp only [Bool.and_eq_true, decide_eq_true_eq] at h; exact (hp h.1).2 h.2
    rw [if_neg h1, if_neg h2]
    simp only [hf, hq, ne_eq, not_true_eq_false, if_false, Bool.false_eq_true]
    cases hi : (x.reg r).isShort n with
    | false => exact .inl (by simp)
    | true =>
      refine .inr ⟨?_, by simp⟩
      cases hk : x.schk with
      | false => rfl
      | true => rw [hs hk] at hi; cases hi

theorem Says.value_of_readable {x : Ctx} {n r : Nat} {v : Word} (h : Says.readable x n r v) : (x.src n r).value = v := by
  rcases (Says.src_of_readable h).1 with h | ⟨_, h⟩ <;> rw [h] <;> rfl

theorem Says.readable_zero (x : Ctx) (n : Nat) : Says.readable x n 0 0 := .inl ⟨rfl, rfl⟩

theorem Says.sources_mem {x : Ctx} {n : Nat} : ∀ {rs : List Nat} {vs : List Word}, Says.sources x n rs vs → ∀ r ∈ rs, ∃ v, Says.readable x n r v
  | [], [], _, _, h => nomatch h
  | r :: _, v :: _, ⟨h, hs⟩, q, hq => by
    rcases List.mem_cons.1 hq with rfl | hq
    · exact ⟨v, h⟩
    · exact Says.sources_mem hs q hq
  | [], _ :: _, h, _, _ => h.elim
  | _ :: _, [], h, _, _ => h.elim

theorem Says.sources_values {x : Ctx} {n : Nat} : ∀ {rs : List Nat} {vs : List Word}, Says.sources x n rs vs → rs.map (fun r => (x.src n r).value) = vs
  | [], [], _ => rfl
  | r :: rs, v :: vs, ⟨h, hs⟩ => by rw [List.map_cons, Says.value_of_readable h, Says.sources_values hs]
  | [], _ :: _, h => h.elim
  | _ :: _, [], h => h.elim

/-- A destination that may be written stops nothing. -/
theorem Says.dstStop_of_writable {s : State} {t c d : Nat} (h : Says.writable (s.ctx t c) d) : s.dstStop t c d = none := by
  unfold State.dstStop
  rcases h with rfl | ⟨hp, h⟩
  · simp
  · by_cases h0 : d = 0
    · simp [h0]
    have h1 : ¬((s.ctx t c).mapped && decide (d = 31)) = true := by
      intro h; simp only [Bool.and_eq_true, decide_eq_true_eq] at h; exact (hp h.1).2 h.2
    have h2 : ¬((s.ctx t c).mapped && decide (d = 30)) = true := by
      intro h; simp only [Bool.and_eq_true, decide_eq_true_eq] at h; exact (hp h.1).1 h.2
    simp only [if_neg h0, if_neg h1, if_neg h2, if_neg h]

/-- The operand rules let an instruction through: its sources read, its destinations may be written, and no flit is taken. -/
theorem withOps_next {s : State} {t c : Nat} {srcs dsts : List Nat} {vs : List Word} (k : List Word → State → Iss)
    (hs : Says.sources (s.ctx t c) s.cyc srcs vs) (hd : ∀ d ∈ dsts, Says.writable (s.ctx t c) d) :
    withOps s t c srcs dsts k = k vs s := by
  have hr := Says.sources_mem hs
  have no : ∀ z : Src, (∀ v, z ≠ .ok v) → (∀ v, z ≠ .short v) → (srcs.map ((s.ctx t c).src s.cyc)).contains z = false := by
    intro z h1 h2
    rw [Bool.eq_false_iff]; intro h
    simp only [List.contains_iff_mem, List.mem_map] at h
    obtain ⟨r, hm, e⟩ := h
    obtain ⟨v, hv⟩ := hr r hm
    rcases (Says.src_of_readable hv).1 with hv | ⟨_, hv⟩ <;> rw [hv] at e
    · exact h1 v e.symm
    · exact h2 v e.symm
  have hi := no .illegal (fun _ h => nomatch h) (fun _ h => nomatch h)
  have he := no .empty (fun _ h => nomatch h) (fun _ h => nomatch h)
  have hp := no .poison (fun _ h => nomatch h) (fun _ h => nomatch h)
  have hq : ((s.ctx t c).schk && (srcs.map ((s.ctx t c).src s.cyc)).any Src.isShort) = false := by
    rw [Bool.eq_false_iff]; intro h
    simp only [Bool.and_eq_true, List.any_eq_true, List.mem_map] at h
    obtain ⟨hc, z, ⟨r, hm, e⟩, hz⟩ := h
    obtain ⟨v, hv⟩ := hr r hm
    rcases (Says.src_of_readable hv).1 with hv | ⟨hf, hv⟩
    · rw [hv] at e; subst e; cases hz
    · rw [hf] at hc; cases hc
  have hf : dsts.findSome? (s.dstStop t c) = none := by
    rw [List.findSome?_eq_none_iff]; exact fun d h => Says.dstStop_of_writable (hd d h)
  have h31 : ((s.ctx t c).mapped && srcs.contains 31) = false := by
    rw [Bool.eq_false_iff]; intro h
    simp only [Bool.and_eq_true, List.contains_iff_mem] at h
    obtain ⟨v, hv⟩ := hr 31 h.2
    exact (Says.src_of_readable hv).2 h.1 rfl
  have h30 : ((s.ctx t c).mapped && dsts.contains 30) = false := by
    rw [Bool.eq_false_iff]; intro h
    simp only [Bool.and_eq_true, List.contains_iff_mem] at h
    rcases hd 30 h.2 with h0 | h0
    · cases h0
    · exact (h0.1 h.1).1 rfl
  unfold withOps
  simp only [hi, hf, he, hp, hq, h31, h30, List.map_map, if_neg Bool.false_ne_true]
  rw [← Says.sources_values hs]; rfl

/-- An issue of the context u. -/
theorem issue_next (S : Nat) (s : State) (f : State → Nat → Nat → Iss) {u : Cur} (h : s.cur = some u) : issue S s f = .next (finish S u (f s u.tile u.ctx)) := by
  unfold issue; rw [h]

/-- With no context issuing, an instruction does not occur. -/
theorem issue_none (S : Nat) (s : State) (f : State → Nat → Nat → Iss) (h : s.cur = none) : issue S s f = .next s := by
  unfold issue; rw [h]

/-- Every issue answers a next state. -/
theorem issue_isNext (S : Nat) (s : State) (f : State → Nat → Nat → Iss) : ∃ s', issue S s f = .next s' := by
  unfold issue
  cases s.cur with
  | none => exact ⟨_, rfl⟩
  | some u => exact ⟨_, rfl⟩

/-! ## The write of a register -/

/-- A result is written to a register that may be written. -/
theorem State.setX_eq {s : State} {t c d : Nat} (v : Word) (lat : Nat) (h : Says.writable (s.ctx t c) d) :
    s.setX t c d v lat = if d = 0 then s else s.updCtx t c fun x => Says.written x s.cyc d v lat := by
  unfold State.setX
  rcases h with rfl | ⟨hp, _⟩
  · simp
  · by_cases h0 : d = 0
    · simp [h0]
    have h2 : ¬((s.ctx t c).mapped && decide (d = 30)) = true := by
      intro h; simp only [Bool.and_eq_true, decide_eq_true_eq] at h; exact (hp h.1).1 h.2
    rw [if_neg h0, if_neg h2, if_neg h0]
    congr 1; funext x
    unfold Says.written
    rw [if_neg h0]
    by_cases hl : lat ≤ 4 <;> simp only [hl, if_true, if_false]

/-- A register awaits its result. -/
theorem State.setPending_eq (s : State) (t c d : Nat) : s.setPending t c d = if d = 0 then s else s.updCtx t c fun x => Says.awaiting x d := by
  unfold State.setPending
  by_cases h0 : d = 0
  · simp [h0]
  · rw [if_neg h0, if_neg h0]; congr 1; funext x; exact (if_neg h0).symm

/-! ## The end of an issue -/

theorem finish_done (S : Nat) (u : Cur) (s : State) : finish S u (.done s) = s.updCtx u.tile u.ctx fun x => Says.retire x s.cyc S (x.pc + 4) := rfl
theorem finish_jump (S : Nat) (u : Cur) (s : State) (pc : Word) : finish S u (.jump s pc) = s.updCtx u.tile u.ctx fun x => Says.retire x s.cyc S pc := rfl
theorem finish_hold (S : Nat) (u : Cur) (s : State) :
    finish S u (.hold s) = { (s.updCtx u.tile u.ctx fun x => { x with readyAt := s.cyc + 1 }) with issuedNow := s.issuedNow.filter fun t => decide (t ≠ u.tile) } := rfl
theorem finish_trap (S : Nat) (u : Cur) (s : State) (k : Nat) (a : Word) (p : Nat) :
    finish S u (.trap s k a p) = s.takeTrap u.tile u.ctx { cause := k, addr := a, prog := p, insn := u.insn, pc := (s.ctx u.tile u.ctx).pc } := rfl

/-- Two changes of one context are one. -/
theorem State.updCtx_updCtx (s : State) (t c : Nat) (f g : Ctx → Ctx) : (s.updCtx t c f).updCtx t c g = s.updCtx t c (g ∘ f) := by
  have put2 : ∀ {α : Type} (l : Table α) (k : Nat) (a b : α), Tbl.put (Tbl.put l k a) k b = Tbl.put l k b := by
    intro α l k a b
    induction l with
    | nil => show Tbl.put [(k, a)] k b = [(k, b)]; rw [Tbl.put, if_pos rfl]
    | cons p l ih =>
      obtain ⟨i, w⟩ := p
      rw [Tbl.put.eq_2 k a, Tbl.put.eq_2 k b]
      by_cases h1 : i = k
      · rw [if_pos h1, if_pos h1, Tbl.put, if_pos rfl]
      · rw [if_neg h1, if_neg h1]
        by_cases h2 : k < i
        · rw [if_pos h2, if_pos h2, Tbl.put, if_pos rfl]
        · rw [if_neg h2, if_neg h2, Tbl.put, if_neg h1, if_neg h2, ih]
  have e : ∀ (v : Tile), (v.updCtx c f).updCtx c g = v.updCtx c (g ∘ f) := by
    intro v
    show { (v.updCtx c f) with ctxs := Tbl.put (v.updCtx c f).ctxs c (g ((v.updCtx c f).ctx c)) } = { v with ctxs := Tbl.put v.ctxs c ((g ∘ f) (v.ctx c)) }
    rw [Tile.ctx_updCtx_same]
    show { v with ctxs := Tbl.put (Tbl.put v.ctxs c (f (v.ctx c))) c (g (f (v.ctx c))) } = _
    rw [put2]; rfl
  show (s.updCtx t c f).setTile t (((s.updCtx t c f).tile t).updCtx c g) = s.setTile t ((s.tile t).updCtx c (g ∘ f))
  rw [State.tile_updCtx_same, e]
  show { s with tiles := Tbl.put (Tbl.put s.tiles t _) t _ } = { s with tiles := Tbl.put s.tiles t _ }
  rw [put2]

/-! ## What an issue leaves -/

theorem Says.becomes_self (s : State) (t c : Nat) : Says.Becomes s s t c (s.tile t) (s.ctx t c) := ⟨rfl, fun _ _ => rfl, rfl, fun _ _ => rfl, rfl, fun _ => rfl⟩

/-- The bytes of memory after a change of tiles that leaves what each tile's group left undefined. -/
theorem Says.peek_becomes {s' b : State} {t : Nat} {v : Tile} (hr : s' = { b with tiles := s'.tiles }) (ho : ∀ k, k ≠ t → s'.tile k = b.tile k)
    (ht : { s'.tile t with ctxs := [] } = { v with ctxs := [] }) (hj : v.junk = (b.tile t).junk) (a : Nat) : s'.peek a = b.peek a := by
  refine State.peek_congr (by rw [hr]) (by rw [hr]) (by rw [hr]) (fun k => ?_) a
  by_cases hk : k = t
  · subst hk
    have : ({ s'.tile k with ctxs := [] } : Tile).junk = ({ v with ctxs := [] } : Tile).junk := by rw [ht]
    exact this.trans hj
  · rw [ho k hk]

/-- A further change of the context itself. -/
theorem Says.Becomes.updCtx {s' b : State} {t c : Nat} {v : Tile} {x : Ctx} (h : Says.Becomes s' b t c v x) (f : Ctx → Ctx) :
    Says.Becomes (s'.updCtx t c f) b t c v (f x) := by
  refine ⟨?_, ?_, ?_, ?_, ?_, ?_⟩
  · show { s' with tiles := _ } = _
    rw [h.rest]; rfl
  · intro k hk; rw [State.tile_updCtx_other s' c f hk, h.tiles k hk]
  · rw [State.tile_updCtx_same]; exact h.tile
  · intro k hk; rw [State.ctx_updCtx_other s' f (fun e => hk e.2), h.ctxs k hk]
  · rw [State.ctx_updCtx_same, h.ctx]
  · intro a
    rw [← h.mem a]
    refine State.peek_congr (by rfl) (by rfl) (by rfl) (fun k => ?_) a
    by_cases hk : k = t
    · subst hk; rw [State.tile_updCtx_same]; rfl
    · rw [State.tile_updCtx_other s' c f hk]

/-- A further change of its tile that leaves the contexts and what the group left undefined. -/
theorem Says.Becomes.updTile {s' b : State} {t c : Nat} {v : Tile} {x : Ctx} (h : Says.Becomes s' b t c v x) (g : Tile → Tile)
    (hc : ∀ w, (g w).ctxs = w.ctxs) (hj : ∀ w, (g w).junk = w.junk) (hg : ∀ w, { g { w with ctxs := [] } with ctxs := [] } = { g w with ctxs := [] }) :
    Says.Becomes (s'.updTile t g) b t c (g v) x := by
  refine ⟨?_, ?_, ?_, ?_, ?_, ?_⟩
  · show { s' with tiles := _ } = _
    rw [h.rest]; rfl
  · intro k hk; rw [State.tile_updTile_other s' g hk, h.tiles k hk]
  · rw [State.tile_updTile_same, ← hg, h.tile, hg]
  · intro k hk; rw [State.ctx_updTile_keep s' t t k g (hc _), h.ctxs k hk]
  · rw [State.ctx_updTile_keep s' t t c g (hc _), h.ctx]
  · intro a
    rw [← h.mem a]
    refine State.peek_congr (by rfl) (by rfl) (by rfl) (fun k => ?_) a
    by_cases hk : k = t
    · subst hk; rw [State.tile_updTile_same]; exact hj _
    · rw [State.tile_updTile_other s' g hk]

/-- A change of the state that leaves the tiles and memory, of both alike. -/
theorem Says.Becomes.other {s' b : State} {t c : Nat} {v : Tile} {x : Ctx} (h : Says.Becomes s' b t c v x) (g : State → State)
    (ht : ∀ z, (g z).tiles = z.tiles) (hm : ∀ z, (g z).mem = z.mem) (hp : ∀ z, (g z).pf = z.pf) (hq : ∀ z, (g z).parts = z.parts)
    (hg : ∀ z w, g { z with tiles := w } = { g z with tiles := w }) :
    Says.Becomes (g s') (g b) t c v x := by
  have tl : ∀ z k, (g z).tile k = z.tile k := fun z k => by unfold State.tile; rw [ht]
  have cx : ∀ z k, (g z).ctx t k = z.ctx t k := fun z k => by unfold State.ctx; rw [tl]
  have pk : ∀ z a, (g z).peek a = z.peek a := fun z a => State.peek_congr (hm z) (hp z) (hq z) (fun k => by rw [tl]) a
  refine ⟨?_, ?_, ?_, ?_, ?_, ?_⟩
  · rw [ht]; conv => lhs; rw [h.rest]
    exact hg _ _
  · intro k hk; rw [tl, tl, h.tiles k hk]
  · rw [tl]; exact h.tile
  · intro k hk; rw [cx, cx, h.ctxs k hk]
  · rw [cx]; exact h.ctx
  · intro a; rw [pk, pk, h.mem a]

/-- An issue that ends with its own effect completes. -/
theorem Says.Becomes.done {s' b : State} {S : Nat} {u : Cur} {v : Tile} {x : Ctx} (h : Says.Becomes s' b u.tile u.ctx v x) (hc : s'.cyc = b.cyc) :
    Says.Becomes (finish S u (.done s')) b u.tile u.ctx v (Says.retire x b.cyc S (x.pc + 4)) := by
  rw [finish_done, hc]; exact h.updCtx _

theorem Says.Becomes.jump {s' b : State} {S : Nat} {u : Cur} {v : Tile} {x : Ctx} (h : Says.Becomes s' b u.tile u.ctx v x) (pc : Word) (hc : s'.cyc = b.cyc) :
    Says.Becomes (finish S u (.jump s' pc)) b u.tile u.ctx v (Says.retire x b.cyc S pc) := by
  rw [finish_jump, hc]; exact h.updCtx _

/-- The write of a result. -/
theorem Says.Becomes.setX {s' b : State} {t c d : Nat} {v : Tile} {x : Ctx} (h : Says.Becomes s' b t c v x) (hd : Says.writable x d) (w : Word) (lat : Nat)
    (hc : s'.cyc = b.cyc) : Says.Becomes (s'.setX t c d w lat) b t c v (Says.written x b.cyc d w lat) := by
  rw [State.setX_eq w lat (by rw [h.ctx]; exact hd)]
  by_cases h0 : d = 0
  · rw [if_pos h0]; unfold Says.written; rw [if_pos h0]; exact h
  · rw [if_neg h0, hc]; exact h.updCtx _

theorem Says.Becomes.setPending {s' b : State} {t c : Nat} {v : Tile} {x : Ctx} (h : Says.Becomes s' b t c v x) (d : Nat) :
    Says.Becomes (s'.setPending t c d) b t c v (Says.awaiting x d) := by
  rw [State.setPending_eq]
  by_cases h0 : d = 0
  · rw [if_pos h0]; unfold Says.awaiting; rw [if_pos h0]; exact h
  · rw [if_neg h0]; exact h.updCtx _

theorem State.setX_cyc (s : State) (t c d : Nat) (v : Word) (lat : Nat) : (s.setX t c d v lat).cyc = s.cyc := by
  unfold State.setX State.sendFlit
  split <;> (try rfl)
  split <;> (try rfl)
  simp only []
  split <;> rfl

theorem State.setPending_cyc (s : State) (t c d : Nat) : (s.setPending t c d).cyc = s.cyc := by
  unfold State.setPending
  split <;> rfl

end Sys2Proof.Machine
end

