-- ==== Sys2Proof/Laws/Memory.lean ====
section
/-!
SUPPORT. The canonical form of memory and the operations that keep it; a byte read after a write.
-/
namespace Sys2Proof.Machine

/-- The canonical form by its two parts: the order of the addresses, and no byte of RAM listed as 0. -/
theorem Mem.wfCells_iff (cs : List Host.Cell) :
    Mem.wfCells cs = true ↔ Tbl.ordered cs = true ∧ ∀ c ∈ cs, isSpad c.1 = true ∨ c.2 ≠ 0 := by
  induction cs with
  | nil => simp [Mem.wfCells, Tbl.ordered]
  | cons p t ih =>
    obtain ⟨a, v⟩ := p
    cases t with
    | nil => simp [Mem.wfCells, Tbl.ordered]
    | cons q t =>
      obtain ⟨b, w⟩ := q
      simp only [Mem.wfCells, Tbl.ordered, Bool.and_eq_true, Bool.or_eq_true, decide_eq_true_eq, ih, List.forall_mem_cons]
      constructor
      · rintro ⟨⟨h1, h2⟩, h3, h4⟩; exact ⟨⟨h1, h3⟩, h2, h4⟩
      · rintro ⟨⟨h1, h3⟩, h2, h4⟩; exact ⟨⟨h1, h2⟩, h3, h4⟩

theorem Tbl.mem_put {α : Type} {t : Table α} {k : Nat} {v : α} {q : Nat × α} (h : q ∈ Tbl.put t k v) : q = (k, v) ∨ q ∈ t := by
  induction t with
  | nil => left; simpa [Tbl.put] using h
  | cons p t ih =>
    obtain ⟨i, w⟩ := p
    unfold Tbl.put at h
    split at h
    · rcases List.mem_cons.1 h with h | h
      · exact .inl h
      · exact .inr (List.mem_cons_of_mem _ h)
    · split at h
      · rcases List.mem_cons.1 h with h | h
        · exact .inl h
        · exact .inr h
      · rcases List.mem_cons.1 h with h | h
        · exact .inr (h ▸ List.mem_cons_self)
        · rcases ih h with h | h
          · exact .inl h
          · exact .inr (List.mem_cons_of_mem _ h)

theorem Tbl.mem_erase {α : Type} {t : Table α} {k : Nat} {q : Nat × α} (h : q ∈ Tbl.erase t k) : q ∈ t := by
  induction t with
  | nil => exact h
  | cons p t ih =>
    obtain ⟨i, w⟩ := p
    unfold Tbl.erase at h
    split at h
    · exact List.mem_cons_of_mem _ h
    · split at h
      · exact h
      · rcases List.mem_cons.1 h with h | h
        · exact h ▸ List.mem_cons_self
        · exact List.mem_cons_of_mem _ (ih h)

/-- A byte written keeps the canonical form. -/
theorem Mem.wfCells_putCell (cs : List Host.Cell) (pa : Nat) (v : Byte) (h : Mem.wfCells cs = true) : Mem.wfCells (Mem.putCell cs pa v) = true := by
  rw [Mem.wfCells_iff] at h ⊢
  unfold Mem.putCell
  split
  · rename_i hs
    refine ⟨Tbl.ordered_put pa v h.1, fun c hc => ?_⟩
    rcases Tbl.mem_put hc with rfl | hc
    · exact .inl hs
    · exact h.2 c hc
  · split
    · exact ⟨Tbl.ordered_erase pa h.1, fun c hc => h.2 c (Tbl.mem_erase hc)⟩
    · rename_i hv
      refine ⟨Tbl.ordered_put pa v h.1, fun c hc => ?_⟩
      rcases Tbl.mem_put hc with rfl | hc
      · exact .inr hv
      · exact h.2 c hc

theorem Tbl.ordered_filter {α : Type} (p : Nat × α → Bool) (t : Table α) (h : Tbl.ordered t = true) : Tbl.ordered (t.filter p) = true := by
  have key : ∀ (t : Table α), Tbl.ordered t = true → Tbl.ordered (t.filter p) = true ∧ ∀ j w, Tbl.ordered ((j, w) :: t) = true → Tbl.ordered ((j, w) :: t.filter p) = true := by
    intro t
    induction t with
    | nil => exact fun _ => ⟨rfl, fun _ _ h => h⟩
    | cons q t ih =>
      intro h
      obtain ⟨i, x⟩ := q
      have ih := ih (Tbl.ordered_tail h)
      rw [List.filter_cons]
      split
      · refine ⟨ih.2 i x h, fun j w hh => ?_⟩
        rw [Tbl.ordered_cons] at hh ⊢
        exact ⟨hh.1, ih.2 i x h⟩
      · refine ⟨ih.1, fun j w hh => ?_⟩
        apply ih.2
        rw [Tbl.ordered_cons] at hh
        cases t with
        | nil => rfl
        | cons r t =>
          obtain ⟨k, y⟩ := r
          rw [Tbl.ordered_cons] at hh ⊢
          exact ⟨by omega, hh.2.2⟩
  exact (key t h).1

/-- Cells left out keep the canonical form. -/
theorem Mem.wfCells_filter (p : Host.Cell → Bool) (cs : List Host.Cell) (h : Mem.wfCells cs = true) : Mem.wfCells (cs.filter p) = true := by
  rw [Mem.wfCells_iff] at h ⊢
  exact ⟨Tbl.ordered_filter p cs h.1, fun c hc => h.2 c ((List.mem_filter.1 hc).1)⟩

/-- Bytes written one after another keep the canonical form. -/
theorem Mem.wfCells_foldl (f : Host.Cell → Nat) (xs : List Host.Cell) (cs : List Host.Cell) (h : Mem.wfCells cs = true) :
    Mem.wfCells (xs.foldl (fun m c => Mem.putCell m (f c) c.2) cs) = true := by
  induction xs generalizing cs with
  | nil => exact h
  | cons x xs ih => exact ih _ (Mem.wfCells_putCell cs (f x) x.2 h)

/-- One step of a store behind the caches. -/
def State.pokeByte (s : State) (pa v : Nat) : State :=
  if isSpad pa && decide (0x60000 ≤ pa % 0x80000) then s
  else match s.memKey pa with
    | none => s
    | some k => { s with mem := { s.mem with cells := Mem.putCell s.mem.cells k (BitVec.ofNat 8 v) } }

theorem State.pokeRaw_succ (s : State) (pa v n : Nat) : s.pokeRaw pa v (n + 1) = (s.pokeByte pa v).pokeRaw (pa + 1) (v / 256) n := rfl

@[simp] theorem State.pokeByte_pf (s : State) (pa v : Nat) : (s.pokeByte pa v).pf = s.pf := by
  unfold State.pokeByte; repeat' split
  all_goals rfl
@[simp] theorem State.pokeByte_tiles (s : State) (pa v : Nat) : (s.pokeByte pa v).tiles = s.tiles := by
  unfold State.pokeByte; repeat' split
  all_goals rfl
@[simp] theorem State.pokeByte_cxl (s : State) (pa v : Nat) : (s.pokeByte pa v).mem.cxl = s.mem.cxl := by
  unfold State.pokeByte; repeat' split
  all_goals rfl

theorem State.memInv_pokeByte (s : State) (pa v : Nat) (h : MemInv s) : MemInv (s.pokeByte pa v) := by
  unfold State.pokeByte
  split
  · exact h
  · split
    · exact h
    · exact ⟨Mem.wfCells_putCell _ _ _ h.1, h.2⟩

/-- A store behind the caches keeps the canonical form. -/
theorem State.memInv_pokeRaw (s : State) (pa v n : Nat) (h : MemInv s) : MemInv (s.pokeRaw pa v n) := by
  induction n generalizing s pa v with
  | zero => exact h
  | succ n ih => rw [State.pokeRaw_succ]; exact ih _ _ _ (State.memInv_pokeByte s pa v h)

theorem State.memInv_setMemPoison (s : State) (l : Nat) (p : Bool) (h : MemInv s) : MemInv (s.setMemPoison l p) := by
  unfold State.setMemPoison; split <;> exact h

theorem State.memInv_setPoison (s : State) (l : Nat) (p : Bool) (h : MemInv s) : MemInv (s.setPoison l p) := by
  unfold State.setPoison
  split
  · exact ⟨h.1, Tbl.ordered_put _ _ h.2.1, h.2.2⟩
  · exact State.memInv_setMemPoison s l p h

/-! ## The cache parts -/

theorem State.memInv_touch (s : State) (h set way : Nat) (hs : MemInv s) : MemInv (s.touch h set way) :=
  ⟨hs.1, hs.2.1, Tbl.ordered_put _ _ hs.2.2.1, hs.2.2.2⟩

theorem State.memInv_memWr (s : State) (line : Nat) (c : CLine) (h : MemInv s) : MemInv (s.memWr line c) := by
  unfold State.memWr
  split
  · exact State.memInv_setMemPoison _ _ _ (State.memInv_pokeRaw _ _ _ _ h)
  · exact h

/-- A line of a cache part set keeps the canonical form. -/
theorem State.memInv_putCxl (s : State) (k : Nat) (c : CLine) (h : MemInv s) : MemInv { s with mem := { s.mem with cxl := Tbl.put s.mem.cxl k c } } :=
  ⟨h.1, Tbl.ordered_put _ _ h.2.1, h.2.2⟩

/-- A line that leaves its cache part keeps the canonical form. -/
theorem State.memInv_evict (s : State) (line : Nat) (h : MemInv s) : MemInv (s.evict line) := by
  unfold State.evict
  split
  · rename_i c hc
    have hw := State.memInv_memWr s line c h
    exact ⟨hw.1, Tbl.ordered_erase _ hw.2.1, hw.2.2⟩
  · exact h

theorem State.memInv_writeBack (s : State) (pick : Nat → CLine → Bool) (h : MemInv s) : MemInv (s.writeBack pick) := by
  unfold State.writeBack
  generalize s.mem.cxl.filter _ = cs
  induction cs generalizing s with
  | nil => exact h
  | cons c cs ih => exact ih _ (State.memInv_evict s c.1 h)

/-- A line that enters its cache part keeps the canonical form. -/
theorem State.memInv_allocate (s : State) (p tenant line : Nat) (h : MemInv s) : MemInv (s.allocate p tenant line) := by
  unfold State.allocate
  split
  · exact h
  · split
    · exact h
    · split
      · exact State.memInv_touch _ _ _ _ h
      · apply State.memInv_touch
        apply State.memInv_putCxl
        split
        · exact State.memInv_evict _ _ h
        · exact h

/-- Bytes that reach the home keep the canonical form. -/
theorem State.memInv_pokeHome (s : State) (p tenant pa v n : Nat) (shu : Bool) (bad : Option Bool) (h : MemInv s) :
    MemInv (s.pokeHome p tenant pa v n shu bad) := by
  unfold State.pokeHome
  have ha := State.memInv_allocate s p tenant (pa / 64) h
  have hr := State.memInv_pokeRaw s pa v n h
  split
  · exact h
  · dsimp only
    by_cases hd : (isCxl pa && !s.direct p tenant (pa / 64) shu) = true
    · rw [if_pos hd]
      cases Tbl.find? (s.allocate p tenant (pa / 64)).mem.cxl (pa / 64) with
      | none => exact ha
      | some c => exact State.memInv_putCxl _ _ _ ha
    · rw [if_neg hd]
      have hm : MemInv (match bad with | some b => (s.pokeRaw pa v n).setMemPoison (pa / 64) b | none => s.pokeRaw pa v n) := by
        cases bad with
        | none => exact hr
        | some b => exact State.memInv_setMemPoison _ _ _ hr
      split
      · exact State.memInv_putCxl _ _ _ hm
      · exact hm

/-- A state whose memory has the cells, the cached lines and the stamps of another is in canonical form with it. -/
theorem memInv_of_eq {s u : State} (h : u.mem = s.mem) (hs : MemInv s) : MemInv u := by
  unfold MemInv at hs ⊢; rw [h]; exact hs

theorem reset_memInv : MemInv State.reset := by decide

/-! ## A byte after a write -/

theorem Mem.find?_putCell_same (cs : List Host.Cell) (pa : Nat) (v : Byte) (h : Mem.wfCells cs = true) :
    Tbl.find? (Mem.putCell cs pa v) pa = if isSpad pa = false ∧ v = 0 then none else some v := by
  have ho := ((Mem.wfCells_iff cs).1 h).1
  unfold Mem.putCell
  cases hs : isSpad pa
  · by_cases hv : v = 0
    · subst hv; simp [Tbl.find?_erase_same cs pa ho]
    · rw [if_neg Bool.false_ne_true, if_neg hv, Tbl.find?_put_same, if_neg (fun h => hv h.2)]
  · simp [Tbl.find?_put_same]

theorem Mem.find?_putCell_other (cs : List Host.Cell) {pa a : Nat} (v : Byte) (h : Mem.wfCells cs = true) (hn : a ≠ pa) :
    Tbl.find? (Mem.putCell cs pa v) a = Tbl.find? cs a := by
  have ho := ((Mem.wfCells_iff cs).1 h).1
  unfold Mem.putCell
  split
  · exact Tbl.find?_put_other cs v hn
  · split
    · exact Tbl.find?_erase_other cs hn ho
    · exact Tbl.find?_put_other cs v hn

/-- The address of a byte that is kept under its own address: it is not CXL memory. -/
theorem State.memKey_plain {s : State} {a k : Nat} (h : s.memKey a = some k) (hc : isCxl a = false) : k = a := by
  unfold State.memKey State.mrtOf at h
  split at h
  · exact (Option.some.inj h).symm
  · rw [hc] at h; simp at h

/-- No byte of CXL memory is kept under the address of a byte that is not (R56, R165). -/
theorem State.memKey_ne {s : State} {a b k : Nat} (ha : s.memKey a = some k) (hb : s.memKey b = some k) (hc : isCxl a = false ∨ isCxl b = false) : a = b := by
  have top : ∀ {x : Nat}, isCxl x = false → s.memKey x = some k → k = x ∧ x < 2 ^ 53 := by
    intro x hx h
    refine ⟨State.memKey_plain h hx, ?_⟩
    unfold State.memKey State.mrtOf at h
    split at h
    · rename_i hp
      simp only [State.inVault, isSpad, isVault, isHost, Config.spadBase, Config.hostBase, Config.paTop, Bool.or_eq_true, Bool.and_eq_true] at hp
      rcases hp with (⟨_, h2⟩ | ⟨_, h2⟩) | ⟨h1, _⟩
      · have := of_decide_eq_true h2; omega
      · have := of_decide_eq_true h2; omega
      · have := of_decide_eq_true h1; omega
    · rw [hx] at h; simp at h
  have low : ∀ {x : Nat}, s.memKey x = some k → k < 2 ^ 53 → k = x := by
    intro x h hk
    unfold State.memKey at h
    split at h
    · exact (Option.some.inj h).symm
    · obtain ⟨j, _, hj⟩ := Option.map_eq_some_iff.1 h
      simp only [portKey] at hj
      omega
  rcases hc with hc | hc
  · obtain ⟨h1, h2⟩ := top hc ha
    exact (h1.symm.trans (low hb (h1 ▸ h2)))
  · obtain ⟨h1, h2⟩ := top hc hb
    exact ((low ha (h1 ▸ h2)).symm.trans h1)

theorem State.peek_pokeByte_other (s : State) (pa v a : Nat) (h : MemInv s) (hn : a ≠ pa) (hc : isCxl pa = false ∨ isCxl a = false) :
    (s.pokeByte pa v).peek a = s.peek a := by
  unfold State.pokeByte
  split
  · rfl
  · split
    · rfl
    · rename_i k hk
      unfold State.peek State.memByte State.cached
      have e : ∀ m, ({ s with mem := m } : State).memKey a = s.memKey a := fun m => State.memKey_congr rfl rfl a
      simp only [e]
      cases hj : s.memKey a with
      | none => rfl
      | some j =>
        have hne : j ≠ k := fun e => hn (State.memKey_ne (e ▸ hj) hk hc.symm)
        simp only [Mem.find?_putCell_other s.mem.cells (BitVec.ofNat 8 v) h.1 hne]
        rfl

/-- What a store of n bytes leaves: every byte outside it reads as before (R165), but that two addresses of CXL memory can be one byte of a device (R56). -/
theorem State.peek_pokeRaw_other (s : State) (pa v n a : Nat) (h : MemInv s) (ha : a < pa ∨ pa + n ≤ a)
    (hc : (∀ b, pa ≤ b → b < pa + n → isCxl b = false) ∨ isCxl a = false) : (s.pokeRaw pa v n).peek a = s.peek a := by
  induction n generalizing s pa v with
  | zero => rfl
  | succ n ih =>
    rw [State.pokeRaw_succ, ih _ _ _ (State.memInv_pokeByte s pa v h) (by omega) (hc.imp (fun f b h1 h2 => f b (by omega) (by omega)) id)]
    exact State.peek_pokeByte_other s pa v a h (by omega) (hc.imp (fun f => f pa (Nat.le_refl _) (by omega)) id)

end Sys2Proof.Machine
end

