-- ==== Sys2Proof/Tests/Slice0.lean ====
section
/-!
SUPPORT. Tests of one step or one word each, and for every statement concrete states and operands that meet its hypotheses (wit_…: the statement applied
to them). Expected values are computed by hand from the rules named.
-/
namespace Sys2Proof.Tests

set_option Elab.async false

open Sys2Proof Sys2Proof.Machine

/-! ## Helpers -/

/-- A slotted context at pc 0x1000 with these values in its registers. -/
def cx (v : List (Nat × Nat)) (b : Ctx := {}) : Ctx :=
  v.foldl (fun x q => x.setReg q.1 { val := BitVec.ofNat 64 q.2 }) { b with state := .slotted, slot := some 4, pc := 0x1000 }
/-- Its turn on tile 3 at cycle 100, as context 2 in slot 4. -/
def u0 : Cur := ⟨3, 2, 0x123⟩
/-- Context 2 of tile 3 issues. -/
def st (x : Ctx) (v : Tile := {}) (b : State := {}) : State := { b with cyc := 100, cur := some u0, tiles := [(3, { v with ctxs := [(2, x)] })] }
/-- The next state, or the state reset where there is none. -/
def after (o : Host.Outcome State Fault Refusal) : State := match o with | .next t => t | _ => {}
/-- Instruction i answers a next state. -/
def runs (i : Instr) (s : State) : Prop := ∃ t, exec i s = .next t
theorem runs_of {i : Instr} {s : State} {p : State → Prop} (h : ∃ t, exec i s = .next t ∧ p t) : runs i s := h.imp fun _ q => q.1
theorem runs_of₂ {α : Type} {i : Instr} {s : State} {p : State → α → Prop} (h : ∃ t a, exec i s = .next t ∧ p t a) : runs i s := h.imp fun _ q => q.elim fun _ r => r.1
theorem runs_of₃ {α β : Type} {i : Instr} {s : State} {p : State → α → β → Prop} (h : ∃ t a b, exec i s = .next t ∧ p t a b) : runs i s :=
  h.elim fun t q => q.elim fun _ r => r.elim fun _ w => ⟨t, w.1⟩
theorem runs_of₄ {α β γ : Type} {i : Instr} {s : State} {p : State → α → β → γ → Prop} (h : ∃ t a b c, exec i s = .next t ∧ p t a b c) : runs i s :=
  h.elim fun t q => q.elim fun _ r => r.elim fun _ v => v.elim fun _ w => ⟨t, w.1⟩
theorem runs_eq {i : Instr} {s t : State} (h : exec i s = .next t) : runs i s := ⟨t, h⟩
/-- What an Except holds. -/
def got {ε α : Type} (d : α) : Except ε α → α | .ok a => a | .error _ => d
theorem ok_eq {ε α : Type} (d : α) {e : Except ε α} (h : (match e with | .ok _ => true | .error _ => false) = true) : e = .ok (got d e) := by
  cases e with
  | ok _ => rfl
  | error _ => simp at h
theorem ok_eq₂ {ε α β : Type} (d : α × β) {e : Except ε (α × β)} (h : (match e with | .ok _ => true | .error _ => false) = true) :
    e = .ok ((got d e).1, (got d e).2) := by
  cases e with
  | ok _ => rfl
  | error _ => simp at h
theorem ok_ex {ε α : Type} {e : Except ε α} (h : (match e with | .ok _ => true | .error _ => false) = true) : ∃ o, e = .ok o := by
  cases e with
  | ok o => exact ⟨o, rfl⟩
  | error _ => simp at h
/-- What an engine's access gives. -/
def segSt : SegGot → State | .ok s _ _ => s | _ => {}
def segV : SegGot → Nat | .ok _ v _ => v | _ => 0
def segP : SegGot → Bool | .ok _ _ p => p | _ => false
theorem seg_ok {g : SegGot} (h : (match g with | .ok _ _ _ => true | _ => false) = true) : g = .ok (segSt g) (segV g) (segP g) := by
  cases g with
  | ok _ _ _ => rfl
  | fail => simp at h
  | waits _ _ => simp at h
theorem seg_ok₀ {g : SegGot} (h : (match g with | .ok _ _ p => !p | _ => false) = true) : g = .ok (segSt g) (segV g) false := by
  cases g with
  | ok _ _ p => simp at h; simp [segSt, segV, h]
  | fail => simp at h
  | waits _ _ => simp at h
/-- What a block read gives. -/
def blkSt : Block → State | .bytes s _ _ => s | _ => {}
def blkV : Block → Nat | .bytes _ v _ => v | _ => 0
theorem blk_ok {g : Block} (h : (match g with | .bytes _ _ p => !p | _ => false) = true) : g = .bytes (blkSt g) (blkV g) false := by
  cases g with
  | bytes _ _ p => simp at h; simp [blkSt, blkV, h]
  | stop _ => simp at h
/-- What is decided. -/
theorem ev {p : Prop} (h : p) : p := h
/-- A register that can be read. -/
theorem rd {x : Ctx} {n r : Nat} {v : Word}
    (h : r ≠ 0 ∧ x.mapped = false ∧ (x.reg r).st = .full ∧ (x.reg r).poison = false ∧ x.schk = false ∧ v = (x.reg r).seen n) : Says.readable x n r v :=
  .inr ⟨h.1, fun m => by simp [h.2.1] at m, h.2.2.1, h.2.2.2.1, fun m => by simp [h.2.2.2.2.1] at m, h.2.2.2.2.2⟩
/-- Register x0 reads 0. -/
theorem rd0 {x : Ctx} {n : Nat} : Says.readable x n 0 0 := .inl ⟨rfl, rfl⟩
/-- A register that can be written. -/
theorem wr {x : Ctx} {d : Nat} (h : x.mapped = false ∧ (x.reg d).st ≠ .pending) : Says.writable x d := .inr ⟨fun m => by simp [h.1] at m, h.2⟩
theorem wr0 {x : Ctx} : Says.writable x 0 := .inl rfl
theorem noWait {s : State} (h : s.windows = []) : Says.noWaitv s := by intro q hq; simp [h] at hq
/-- Registers of context 2 of tile 3 after an instruction: their newest values. -/
def regs (i : Instr) (s : State) (l : List Nat) : List Nat := l.map fun r => (((after (exec i s)).ctx 3 2).reg r).seen 10000 |>.toNat
/-- Flags of context 2 of tile 3 once all have landed. -/
def flags (i : Instr) (s : State) : Nat := (((after (exec i s)).ctx 3 2).fflAt 10000).toNat
/-- What a word decodes to. -/
def dec (w : Nat) : Option Instr := match decodeWord w with | .ok i => some i | .error _ => none

/-! ## Words (R278 to R293): the words of the rules' examples, and one of each family written out from its encoding -/

theorem test_words_integer : dec 0x00700293 = some (.addi 5 0 7) ∧ dec 0x4032D293 = some (.srai 5 5 3) ∧ dec 0x40C58533 = some (.sub 10 11 12) ∧
    dec 0x007302BB = some (.addw 5 6 7) ∧ dec 0x02C58533 = some (.mul 10 11 12) ∧ dec 0x02C5D533 = some (.divu 10 11 12) ∧
    dec 0x010000EF = some (.jal 1 16) ∧ dec 0x00B50463 = some (.beq 10 11 8) ∧ dec 0x01013403 = some (.ld 8 2 16) ∧
    dec 0x00C3B023 = some (.sd 7 12 0) := by decide +kernel
theorem test_words_float : dec 0x20A3838B = some (.fadd 1 7 7 10) ∧ dec 0x0873028B = some (.fmin 0 5 6 7) ∧ dec 0x0C73028B = some (.feq 0 5 6 7) ∧
    dec 0x1663028B = some (.fsgnjx 0 5 6 6) ∧ dec 0x0013128B = some (.fclass 0 5 6) ∧ dec 0x0043228B = some (.fpack 0 5 6 4) ∧
    dec 0x0242A40B = some (.funpk 0 8 5 4) := by decide +kernel
theorem test_words_config : dec 0x0013B00B = some (.bfmt 0 1 7) ∧ dec 0x0024C00B = some (.pset 0 9 2) ∧ dec 0x1020448B = some (.pget 0 9 2) ∧
    dec 0x0003528B = some (.setvl 0 5 6) ∧ dec 0x0016600B = some (.sbind 0 12 1) ∧ dec 0x1010600B = some (.sunbind 0 1) ∧
    dec 0x0020700B = some (.sdrain 0 2) := by decide +kernel
theorem test_words_vector : dec 0x00A1002B = some (.vadd 0 0 1 10) ∧ dec 0x0321302B = some (.vfma 0 3 1 2) ∧
    dec 0x1110242B = some (.vsel 0 2 0 1 4) := by decide +kernel
theorem test_words_matrix : dec 0x601020AB = some (.mma 3 2 0 1) ∧ dec 0x030201AB = some (.mdrain 0 0 2 1) ∧ dec 0x010000AB = some (.mzero 0 0) ∧
    dec 0x020310AB = some (.mload 0 1 3) ∧ dec 0x040000AB = some (.macq 0 0 0) ∧ dec 0x040001AB = some (.macq 0 0 1) ∧
    dec 0x050001AB = some (.mstat 0 0 1) := by decide +kernel
theorem test_words_sync : dec 0x0023055B = some (.ldaW 0 10 6 2) ∧ dec 0x0003155B = some (.ldaN 0 10 6) ∧ dec 0x0273105B = some (.stc 0 6 7) ∧
    dec 0x0073245B = some (.amoaddD 0 8 6 7) ∧ dec 0x0040405B = some (.fenceS 0 4) ∧ dec 0x0400405B = some (.rel 0) ∧
    dec 0x0810405B = some (.acq 0 1) ∧ dec 0x0073505B = some (.wbr 0 6 7) ∧ dec 0x0400545B = some (.fempty 0 8) ∧
    dec 0x0605545B = some (.fest 0 8 10) ∧ dec 0x0803545B = some (.elect 0 8 6) ∧ dec 0x0063E2DB = some (.waitw 0 5 7 6 0) ∧
    dec 0x0073705B = some (.barinit 0 6 7) ∧ dec 0x0203705B = some (.barrive 0 6) ∧ dec 0x0473705B = some (.barwait 0 6 7) ∧
    dec 0x0600705B = some (.semw 0 0) := by decide +kernel
theorem test_words_engines : dec 0x0002807B = some (.qcfg 0 5) ∧ dec 0x0202807B = some (.qdest 0 5) ∧ dec 0x04B5007B = some (.copy 0 10 11) ∧
    dec 0x06B5007B = some (.qfence 0 10 11) ∧ dec 0x001011FB = some (.route 0 3 0 1) ∧ dec 0x022511FB = some (.rtopen 0 3 10 2) ∧
    dec 0x0435107B = some (.rtret 0 10 3) ∧ dec 0x0605107B = some (.rtretDrop 0 10) ∧ dec 0x0801947B = some (.rtstat 0 8 3) ∧
    dec 0x0A05107B = some (.rttgt 0 10) ∧ dec 0x02B5207B = some (.csend 0 10 11) ∧ dec 0x04B5207B = some (.crecv 0 10 11) ∧
    dec 0x06B5207B = some (.crrs 0 10 11) ∧ dec 0x08B5207B = some (.ccopy 0 10 11) ∧ dec 0x0005207B = some (.cset 0 10) ∧
    dec 0x0A00207B = some (.cwait 0) ∧ dec 0x1FD030FB = some (.cloop 0 1 (-3)) := by decide +kernel
theorem test_words_system : dec 0x000062FB = some (.srd 0 5 0) ∧ dec 0x0012F07B = some (.swr 0 5 1) ∧ dec 0x00B5447B = some (.spawn 0 8 10 11) ∧
    dec 0x0205447B = some (.spawnDie 0 8 10) ∧ dec 0x0403C4FB = some (.reap 0 9 7) ∧ dec 0x0600407B = some (.yield 0) ∧
    dec 0x0800407B = some (.halt 0) ∧ dec 0x0A02C07B = some (.ckpt 0 5) ∧ dec 0x0C02C07B = some (.iterset 0 5) ∧
    dec 0x0E0042FB = some (.iterinc 0 5) ∧ dec 0x1002C07B = some (.trap 0 5) ∧ dec 0x1202C07B = some (.tret 0 5) ∧
    dec 0x1462C07B = some (.segld 0 5 6) ∧ dec 0x160042FB = some (.rdcyc 0 5) := by decide +kernel
/-! One word of every other instruction, written out from R280, R281 and R286 to R289. -/

theorem test_words_upper : dec 0x80001537 = some (.lui 10 0x80001) ∧ dec 0x80001517 = some (.auipc 10 0x80001) ∧ dec 0xFFE58567 = some (.jalr 10 11 (-2)) ∧
    dec 0x80C591E3 = some (.bne 11 12 (-2046)) ∧ dec 0x80C5C1E3 = some (.blt 11 12 (-2046)) ∧ dec 0x80C5D1E3 = some (.bge 11 12 (-2046)) ∧
    dec 0x80C5E1E3 = some (.bltu 11 12 (-2046)) ∧ dec 0x80C5F1E3 = some (.bgeu 11 12 (-2046)) := by decide +kernel
theorem test_words_loads : dec 0xFDF58503 = some (.lb 10 11 (-33)) ∧ dec 0xFDF59503 = some (.lh 10 11 (-33)) ∧ dec 0xFDF5A503 = some (.lw 10 11 (-33)) ∧
    dec 0xFDF5C503 = some (.lbu 10 11 (-33)) ∧ dec 0xFDF5D503 = some (.lhu 10 11 (-33)) ∧ dec 0xFDF5E503 = some (.lwu 10 11 (-33)) ∧
    dec 0xFCC58FA3 = some (.sb 11 12 (-33)) ∧ dec 0xFCC59FA3 = some (.sh 11 12 (-33)) ∧ dec 0xFCC5AFA3 = some (.sw 11 12 (-33)) := by decide +kernel
theorem test_words_immediates : dec 0xFDF5A513 = some (.slti 10 11 (-33)) ∧ dec 0xFDF5B513 = some (.sltiu 10 11 (-33)) ∧ dec 0xFDF5C513 = some (.xori 10 11 (-33)) ∧
    dec 0xFDF5E513 = some (.ori 10 11 (-33)) ∧ dec 0xFDF5F513 = some (.andi 10 11 (-33)) ∧ dec 0x02D59513 = some (.slli 10 11 45) ∧
    dec 0x02D5D513 = some (.srli 10 11 45) ∧ dec 0xFDF5851B = some (.addiw 10 11 (-33)) ∧ dec 0x01D5951B = some (.slliw 10 11 29) ∧
    dec 0x01D5D51B = some (.srliw 10 11 29) ∧ dec 0x41D5D51B = some (.sraiw 10 11 29) := by decide +kernel
theorem test_words_registers : dec 0x00C58533 = some (.add 10 11 12) ∧ dec 0x00C59533 = some (.sll 10 11 12) ∧ dec 0x00C5A533 = some (.slt 10 11 12) ∧
    dec 0x00C5B533 = some (.sltu 10 11 12) ∧ dec 0x00C5C533 = some (.xor 10 11 12) ∧ dec 0x00C5D533 = some (.srl 10 11 12) ∧
    dec 0x40C5D533 = some (.sra 10 11 12) ∧ dec 0x00C5E533 = some (.or 10 11 12) ∧ dec 0x00C5F533 = some (.and 10 11 12) ∧
    dec 0x02C59533 = some (.mulh 10 11 12) ∧ dec 0x02C5A533 = some (.mulhsu 10 11 12) ∧ dec 0x02C5B533 = some (.mulhu 10 11 12) ∧
    dec 0x02C5C533 = some (.div 10 11 12) ∧ dec 0x02C5E533 = some (.rem 10 11 12) ∧ dec 0x02C5F533 = some (.remu 10 11 12) := by decide +kernel
theorem test_words_words : dec 0x40C5853B = some (.subw 10 11 12) ∧ dec 0x00C5953B = some (.sllw 10 11 12) ∧ dec 0x00C5D53B = some (.srlw 10 11 12) ∧
    dec 0x40C5D53B = some (.sraw 10 11 12) ∧ dec 0x02C5853B = some (.mulw 10 11 12) ∧ dec 0x02C5C53B = some (.divw 10 11 12) ∧
    dec 0x02C5D53B = some (.divuw 10 11 12) ∧ dec 0x02C5E53B = some (.remw 10 11 12) ∧ dec 0x02C5F53B = some (.remuw 10 11 12) := by decide +kernel
theorem test_words_scalar_float : dec 0xA2C5850B = some (.fsub 5 10 11 12) ∧ dec 0xA4C5850B = some (.fmul 5 10 11 12) ∧ dec 0xA6C5850B = some (.fdiv 5 10 11 12) ∧
    dec 0xAAC5850B = some (.fmax 5 10 11 12) ∧ dec 0xAEC5850B = some (.flt 5 10 11 12) ∧ dec 0xB0C5850B = some (.fle 5 10 11 12) ∧
    dec 0xB2C5850B = some (.fsgnj 5 10 11 12) ∧ dec 0xB4C5850B = some (.fsgnjn 5 10 11 12) ∧ dec 0xB8C5850B = some (.fmac 5 10 11 12) ∧
    dec 0xA005950B = some (.fsqrt 5 10 11) ∧ dec 0xA025950B = some (.fcvtws 5 10 11) ∧ dec 0xA035950B = some (.fcvtsw 5 10 11) ∧
    dec 0xA045950B = some (.fcvtls 5 10 11) ∧ dec 0xA055950B = some (.fcvtsl 5 10 11) ∧ dec 0xA065950B = some (.fexp2 5 10 11) ∧
    dec 0xA075950B = some (.flog2 5 10 11) ∧ dec 0xA085950B = some (.frcp 5 10 11) ∧ dec 0xA095950B = some (.frsq 5 10 11) := by decide +kernel
theorem test_words_vectors : dec 0xA139A02B = some (.vsub 5 10 9 3) ∧ dec 0xA239A02B = some (.vmul 5 10 9 3) ∧ dec 0xA439A02B = some (.vmax 5 10 9 3) ∧
    dec 0xA539A02B = some (.vmin 5 10 9 3) ∧ dec 0xA639A02B = some (.vamax 5 10 9 3) ∧ dec 0xA709A02B = some (.vabs 5 10 9) ∧
    dec 0xA809A02B = some (.vneg 5 10 9) ∧ dec 0xA909A02B = some (.vexp2 5 10 9) ∧ dec 0xAA09A02B = some (.vrcp 5 10 9) ∧
    dec 0xAB09A02B = some (.vrsq 5 10 9) ∧ dec 0xAF09A02B = some (.vcpy 5 10 9) ∧ dec 0xAC79A02B = some (.vscl 5 10 7 9) ∧
    dec 0xAD79A02B = some (.vadds 5 10 7 9) ∧ dec 0xAE79A02B = some (.vmaxs 5 10 7 9) ∧ dec 0xB070A02B = some (.vset 5 10 7) ∧
    dec 0xB209702B = some (.vreds 5 7 9) ∧ dec 0xB309712B = some (.vredm 5 7 9 1) := by decide +kernel
theorem test_words_atomics : dec 0xA0C5B55B = some (.amoaddW 5 10 11 12) ∧ dec 0xA2C5A55B = some (.amomaxD 5 10 11 12) ∧ dec 0xA2C5B55B = some (.amomaxW 5 10 11 12) ∧
    dec 0xA4C5A55B = some (.amominD 5 10 11 12) ∧ dec 0xA4C5B55B = some (.amominW 5 10 11 12) ∧ dec 0xA6C5A55B = some (.amoswpD 5 10 11 12) ∧
    dec 0xA6C5B55B = some (.amoswpW 5 10 11 12) ∧ dec 0xA8C5A55B = some (.amocasD 5 10 11 12) ∧ dec 0xA8C5B55B = some (.amocasW 5 10 11 12) ∧
    dec 0xAAC5A55B = some (.amoandD 5 10 11 12) ∧ dec 0xAAC5B55B = some (.amoandW 5 10 11 12) ∧ dec 0xACC5A55B = some (.amoorD 5 10 11 12) ∧
    dec 0xACC5B55B = some (.amoorW 5 10 11 12) ∧ dec 0xAEC5A55B = some (.amoxorD 5 10 11 12) ∧ dec 0xAEC5B55B = some (.amoxorW 5 10 11 12) ∧
    dec 0xB0C5B55B = some (.amofadd 5 10 11 12) ∧ dec 0xB2C5B55B = some (.amofmax 5 10 11 12) ∧ dec 0xA2C5D05B = some (.invr 5 11 12) ∧
    dec 0xACC5E55B = some (.waitc 5 10 11 12 2) ∧ dec 0xA830705B = some (.semp 5 3) := by decide +kernel
/-- Words with a reserved field, a reserved number or an unassigned major opcode (R281, R291). -/
theorem test_words_illegal : ([0x0440405B, 0x0400445B, 0x0045405B, 0x6010A0AB, 0x0000000F].all fun w => match decodeWord w with | .error _ => true | .ok _ => false) = true := by
  decide +kernel
/-- R278: an instruction lies low byte first. -/
theorem test_bytes : (match decodeBytes [0x93, 0x02, 0x70, 0x00, 0xAA] with | .ok q => decide (q = (.addi 5 0 7, [0xAA])) | .error _ => false) = true := by decide +kernel

/-! ## Well-formed terms: one ill-formed term for each kind of check -/

theorem test_wf_good : (Instr.addi 5 0 7).wf = true ∧ (Instr.mma 3 2 0 1).wf = true ∧ (Instr.swr 0 5 19).wf = true ∧ (Instr.beq 10 11 8).wf = true := by decide
theorem test_wf_register : (Instr.addi 32 0 7).wf = false ∧ (Instr.ld 8 32 16).wf = false ∧ (Instr.amocasD 0 8 6 32).wf = false := by decide
theorem test_wf_offset : (Instr.beq 10 11 7).wf = false ∧ (Instr.jal 1 3).wf = false := by decide
theorem test_wf_shift : (Instr.slli 5 5 64).wf = false ∧ (Instr.slliw 5 5 32).wf = false := by decide
theorem test_wf_stall : (Instr.fadd 8 5 6 7).wf = false ∧ (Instr.halt 8).wf = false := by decide
theorem test_wf_system : (Instr.srd 0 5 20).wf = false ∧ (Instr.swr 0 5 31).wf = false := by decide
theorem test_wf_selectors : (Instr.vadd 0 0 16 1).wf = false ∧ (Instr.mzero 0 8).wf = false ∧ (Instr.semw 0 8).wf = false ∧ (Instr.pset 0 9 8).wf = false ∧
    (Instr.bfmt 0 3 7).wf = false ∧ (Instr.route 0 16 0 1).wf = false ∧ (Instr.cloop 0 4 1).wf = false ∧ (Instr.sdrain 0 256).wf = false := by decide
theorem test_wf_fields : (Instr.ldaW 0 10 6 512).wf = false ∧ (Instr.waitw 0 5 7 6 8).wf = false ∧ (Instr.fpack 0 5 6 32).wf = false := by decide
theorem test_wf_events : (Instr.partitionEnable 64).wf = false ∧ (Instr.functionLevelReset 65).wf = false ∧ (Instr.launchPlacement 64).wf = false ∧
    (Instr.cxlLinkDown 8).wf = false ∧ (Instr.mrtEnable 64).wf = false ∧ (Instr.copyGranule 4 0 0).wf = false ∧ (Instr.contextSwap 4096).wf = false ∧
    (Instr.streamPrefetch 0 0 8).wf = false ∧ (Instr.swapThresholdReached 0 64).wf = false ∧ (Instr.endpointBind 0x10000 0).wf = false ∧
    (Instr.commandWindowWrite 0 0 0 []).wf = false ∧ (Instr.commandWindowWrite 1 16 0 []).wf = false := by decide

/-! ## Integer instructions and scalar floats -/

/-- x5 = 7, x6 = 2^63, x7 = −1, x8 = 3 and x9 = −2 as FP32 numbers. -/
def a0 : Ctx := cx [(5, 7), (6, 2 ^ 63), (7, 2 ^ 64 - 1), (8, 0x40400000), (9, 0xC0000000)]

theorem test_addi_negative : regs (.addi 5 5 (-8)) (st a0) [5] = [2 ^ 64 - 1] := by decide +kernel
theorem test_x0_stays : regs (.addi 0 5 1) (st a0) [0] = [0] := by decide +kernel
theorem test_lui_sign : regs (.lui 5 0x80000) (st a0) [5] = [0xFFFFFFFF80000000] := by decide +kernel
theorem test_auipc : regs (.auipc 5 1) (st a0) [5] = [0x2000] := by decide +kernel
theorem test_sltu_immediate : regs (.sltiu 5 5 (-1)) (st a0) [5] = [1] ∧ regs (.slti 5 5 (-1)) (st a0) [5] = [0] := by decide +kernel
theorem test_srai_sign : regs (.srai 5 6 63) (st a0) [5] = [2 ^ 64 - 1] ∧ regs (.srli 5 6 63) (st a0) [5] = [1] := by decide +kernel
theorem test_shift_amount : regs (.sll 5 5 7) (st a0) [5] = [2 ^ 63] ∧ regs (.sllw 5 5 7) (st a0) [5] = [0xFFFFFFFF80000000] := by decide +kernel
theorem test_sub_wraps : regs (.sub 5 0 5) (st a0) [5] = [2 ^ 64 - 7] ∧ regs (.subw 5 0 5) (st a0) [5] = [2 ^ 64 - 7] := by decide +kernel
theorem test_addiw : regs (.addiw 5 7 1) (st a0) [5] = [0] := by decide +kernel
theorem test_mulh : regs (.mulh 5 7 7) (st a0) [5] = [0] ∧ regs (.mulhu 5 7 7) (st a0) [5] = [2 ^ 64 - 2] ∧ regs (.mulhsu 5 7 7) (st a0) [5] = [2 ^ 64 - 1] := by
  decide +kernel
/-- R308: a divide lands from its unit; the most negative number over −1, and a division by 0. -/
theorem test_divide : ((after (exec (.divideResultLand 3) (after (exec (.div 5 6 7) (st a0))))).ctx 3 2).reg 5 = { val := 2 ^ 63, dirty := true } ∧
    ((after (exec (.divideResultLand 3) (after (exec (.remu 5 5 0) (st a0))))).ctx 3 2).reg 5 = { val := 7, dirty := true } := by decide +kernel
theorem test_branch : ((after (exec (.blt 7 5 (-8)) (st a0))).ctx 3 2).pc = 0xFF8 ∧ ((after (exec (.bltu 7 5 (-8)) (st a0))).ctx 3 2).pc = 0x1004 := by decide +kernel
/-- R297: the source is read before the link is written; bit 0 of the target is dropped. -/
theorem test_jalr : ((after (exec (.jalr 5 5 0x2FA) (st a0))).ctx 3 2).pc = 0x300 ∧ regs (.jalr 5 5 0x2FA) (st a0) [5] = [0x1004] := by decide +kernel
theorem test_fadd : regs (.fadd 0 5 8 9) (st a0) [5] = [0x3F800000] ∧ flags (.fadd 0 5 8 9) (st a0) = 0 := by decide +kernel
theorem test_fmul : regs (.fmul 0 5 8 9) (st a0) [5] = [0xC0C00000] := by decide +kernel
theorem test_fmac : regs (.fmac 0 9 8 8) (st a0) [9] = [0x40E00000] := by decide +kernel
/-- R316: 1/3 rounds and is inexact (R156: NX is bit 4). -/
theorem test_frcp : regs (.frcp 0 5 8) (st a0) [5] = [0x3EAAAAAB] ∧ flags (.frcp 0 5 8) (st a0) = 16 := by decide +kernel
theorem test_fmin_zero : regs (.fmin 0 5 0 9) (st a0) [5] = [0xC0000000] := by decide +kernel
theorem test_fclass : regs (.fclass 0 5 9) (st a0) [5] = [2] ∧ regs (.fclass 0 5 0) (st a0) [5] = [16] := by decide +kernel
theorem test_fcvt : regs (.fcvtws 0 5 9) (st a0) [5] = [2 ^ 64 - 2] ∧ regs (.fcvtsl 0 5 7) (st a0) [5] = [0xBF800000] := by decide +kernel
theorem test_fsgnjx : regs (.fsgnjx 0 5 9 9) (st a0) [5] = [0x40000000] := by decide +kernel
/-- R142, R319: 3 is 0x44 in E4M3 (bias 7: exponent 8, mantissa 100). -/
theorem test_fpack : regs (.fpack 0 5 8 4) (st a0) [5] = [0x44] ∧ regs (.funpk 0 5 5 4) (st (cx [(5, 0x44)])) [5] = [0x40400000] := by decide +kernel

theorem wit_IntegerResults : Obligations.IntegerResults →
    runs (.addi 5 6 (-1)) (st a0) ∧ runs (.mulhsu 0 6 7) (st a0) ∧ runs (.lui 31 0x80000) (st a0) ∧ runs (.sraw 7 7 0) (st a0) := fun h =>
  ⟨runs_of (h _ _ u0 [6] _ _ _ [2 ^ 63] rfl rfl ⟨rd (by decide +kernel), trivial⟩ (wr (by decide +kernel))),
   runs_of (h _ _ u0 [6, 7] _ _ _ [2 ^ 63, -1] rfl rfl ⟨rd (by decide +kernel), rd (by decide +kernel), trivial⟩ wr0),
   runs_of (h _ _ u0 [] _ _ _ [] rfl rfl trivial (wr (by decide +kernel))),
   runs_of (h _ _ u0 [7, 0] _ _ _ [-1, 0] rfl rfl ⟨rd (by decide +kernel), rd0, trivial⟩ (wr (by decide +kernel)))⟩
theorem wit_UnitInstructionsIssue : Obligations.UnitInstructionsIssue →
    (runs (.div 5 6 7) (st a0) ∧ runs (.remuw 5 5 0) (st a0)) ∧ runs (.fdiv 7 5 8 9) (st a0) ∧ runs (.fsqrt 0 0 9) (st a0) := fun h =>
  ⟨⟨runs_of (h.1 _ _ u0 _ 6 7 _ (2 ^ 63) (-1) rfl rfl ⟨rd (by decide +kernel), rd (by decide +kernel), trivial⟩ (wr (by decide +kernel))),
    runs_of (h.1 _ _ u0 _ 5 0 _ 7 0 rfl rfl ⟨rd (by decide +kernel), rd0, trivial⟩ (wr (by decide +kernel)))⟩,
   runs_of (h.2 _ _ u0 _ [8, 9] _ _ [0x40400000, 0xC0000000] rfl rfl ⟨rd (by decide +kernel), rd (by decide +kernel), trivial⟩ (wr (by decide +kernel))),
   runs_of (h.2 _ _ u0 _ [9] _ _ [0xC0000000] rfl rfl ⟨rd (by decide +kernel), trivial⟩ wr0)⟩
theorem wit_ControlTransfers : Obligations.ControlTransfers →
    (runs (.beq 5 5 (-4096)) (st a0) ∧ runs (.bne 5 5 6) (st a0) ∧ runs (.bgeu 7 5 8) (st a0)) ∧ runs (.jal 1 (-4096)) (st a0) ∧ runs (.jalr 5 5 1) (st a0) := fun h =>
  ⟨⟨runs_of ((h.1 _ _ u0 5 5 (-4096) _ 7 7 rfl rfl ⟨rd (by decide +kernel), rd (by decide +kernel), trivial⟩).1 (by decide +kernel) (by decide +kernel)),
    runs_of ((h.1 _ _ u0 5 5 6 _ 7 7 rfl rfl ⟨rd (by decide +kernel), rd (by decide +kernel), trivial⟩).2 (by decide +kernel)),
    runs_of ((h.1 _ _ u0 7 5 8 _ (-1) 7 rfl rfl ⟨rd (by decide +kernel), rd (by decide +kernel), trivial⟩).1 (by decide +kernel) (by decide +kernel))⟩,
   runs_of ((h.2 (st a0) u0 1 rfl (wr (by decide +kernel))).1 (-4096) (by decide +kernel)),
   runs_of ((h.2 (st a0) u0 5 rfl (wr (by decide +kernel))).2 5 1 7 (rd (by decide +kernel)) (by decide +kernel))⟩
theorem wit_MisalignedTraps : Obligations.MisalignedTraps →
    (runs (.beq 5 5 2) (st a0) ∧ runs (.jal 1 2) (st a0) ∧ runs (.jalr 1 5 (-1)) (st a0)) ∧ runs (.ld 8 5 0) (st a0) ∧ runs (.sh 5 7 2) (st a0) := fun h =>
  ⟨⟨runs_eq ((h.1 (st a0) u0 rfl).1 _ 5 5 2 _ 7 7 rfl ⟨rd (by decide +kernel), rd (by decide +kernel), trivial⟩ (by decide +kernel) (by decide +kernel)),
    runs_eq ((h.1 (st a0) u0 rfl).2.1 1 2 (wr (by decide +kernel)) (by decide +kernel)),
    runs_eq ((h.1 (st a0) u0 rfl).2.2 1 5 (-1) 7 (wr (by decide +kernel)) (rd (by decide +kernel)) (by decide +kernel))⟩,
   runs_eq ((h.2 (st a0) u0 rfl).1 _ 8 5 8 0 _ 7 rfl (rd (by decide +kernel)) (wr (by decide +kernel)) (by decide +kernel)),
   runs_eq ((h.2 (st a0) u0 rfl).2 _ 5 7 2 2 7 (-1) rfl ⟨rd (by decide +kernel), rd (by decide +kernel), trivial⟩ (by decide +kernel))⟩
theorem wit_ScalarFloatResults : Obligations.ScalarFloatResults →
    runs (.fadd 7 5 8 9) (st a0) ∧ runs (.fmac 0 9 8 8) (st a0) ∧ runs (.fpack 0 0 8 17) (st a0) ∧ runs (.frsq 1 5 0) (st a0) := fun h =>
  ⟨runs_of (h _ _ u0 _ [8, 9] _ _ _ [0x40400000, 0xC0000000] rfl rfl ⟨rd (by decide +kernel), rd (by decide +kernel), trivial⟩ (wr (by decide +kernel))),
   runs_of (h _ _ u0 _ [8, 8, 9] _ _ _ [0x40400000, 0x40400000, 0xC0000000] rfl rfl ⟨rd (by decide +kernel), rd (by decide +kernel), rd (by decide +kernel), trivial⟩ (wr (by decide +kernel))),
   runs_of (h _ _ u0 _ [8] _ _ _ [0x40400000] rfl rfl ⟨rd (by decide +kernel), trivial⟩ wr0),
   runs_of (h _ _ u0 _ [0] _ _ _ [0] rfl rfl ⟨rd0, trivial⟩ (wr (by decide +kernel)))⟩
/-- The largest E4M3 number, and a stochastic or reserved rounding mode, which rounds nothing. -/
theorem wit_FormatsRoundTrip : Obligations.FormatsRoundTrip → Num.encode 4 5 (Num.decode 4 0x7E).1 = (0x7E, 0) ∧ Num.encode 0 7 (Num.decode 0 0x3F800000).1 = (0x3F800000, 0) := fun h =>
  ⟨by refine h 4 0x7E 5 _ ?_ ?_ ?_ ?_ ?_ ?_ <;> decide +kernel, by refine h 0 0x3F800000 7 _ ?_ ?_ ?_ ?_ ?_ ?_ <;> decide +kernel⟩

/-! ## Operand traps, configuration, streams, vectors and matrices -/

/-- A context with segment 0 over partition memory and segment 1 over its own scratchpad, both with every right. -/
def seg0 : Fixed Seg 8 := ((Fixed.fill 8 {}).set 0 ⟨0x1700000000000000, 0x10000000000000⟩).set 1 ⟨0x2700000000000000, 0x60000⟩
/-- Page 0 of ASID 0 on frame 0, with every right. -/
def page0 : Xlat := { asid := 0, sub := false, page := 0, frame := 0, r := true, w := true, x := true }
/-- Its tile, with that page in the TLB. -/
def tile0 : Tile := { tlb := [page0], asids := [⟨0, 1, 0, 0, []⟩] }
/-- An address in the tile's own scratchpad through segment 1, and byte 0 of the scratchpad of tile 3. -/
def sp (off : Nat) : Nat := 0x2000000000000000 + off
def pad : Nat := spadPa 3 0
/-- Bytes of memory from pa on. -/
def bytesAt : Nat → List Nat → List Host.Cell
  | _, [] => []
  | pa, v :: l => (pa, BitVec.ofNat 8 v) :: bytesAt (pa + 1) l
/-- A memory whose bytes are these. -/
def memOf (l : List Host.Cell) : State := { mem := { cells := l }, pf := [(0x8000, -1), (0x8040, 17), (0xB000, 0x10000)] }

/-- x5 = 0x3FF, x6 = 0x40 (a reserved bit), x7 = 3000, x9 = 0; pointers p0 to bank 0 and p1 to bank 1. -/
def a1 : Ctx := { cx [(5, 0x1F), (6, 0x40), (7, 3000), (10, sp 0x80)] with ptr := (Fixed.fill 8 0).set 1 1, seg := seg0 }

theorem test_setvl : regs (.setvl 0 5 7) (st a1) [5] = [2048] ∧ ((after (exec (.setvl 0 5 7) (st a1))).ctx 3 2).vl = 2048 := by decide +kernel
theorem test_bfmt : ((after (exec (.bfmt 0 1 5) (st a1))).tile 3).bank.getD 1 0 = 0x1F ∧ ((after (exec (.bfmt 0 1 6) (st a1))).tile 3).bank.getD 1 0 = 0x3F80000000000000 := by
  decide +kernel

theorem wit_OperandTraps : Obligations.OperandTraps →
    (runs (.fpack 0 5 8 18) (st a1) ∧ runs (.funpk 0 5 8 31) (st a1)) ∧ (runs (.bfmt 0 1 6) (st a1) ∧ runs (.setvl 0 5 0) (st a1)) ∧
    (runs (.fempty 0 0) (st a1) ∧ runs (.fempty 0 31) (st { a1 with qmap := 1 })) := fun h =>
  ⟨⟨runs_eq (h.1 (st a1) u0 0 5 8 18 rfl (by decide)).1, runs_eq (h.1 (st a1) u0 0 5 8 31 rfl (by decide)).2⟩,
   ⟨runs_eq ((h.2.1 (st a1) u0 0 1 5 6 0x40 rfl (rd (by decide +kernel))).1 (by decide)),
    runs_eq ((h.2.1 (st a1) u0 0 1 5 0 0 rfl rd0).2 rfl (wr (by decide +kernel)))⟩,
   runs_eq (h.2.2.1 (st a1) u0 0 0 rfl (by decide)), runs_eq (h.2.2.1 (st { a1 with qmap := 1 }) u0 0 31 rfl (by decide +kernel))⟩

theorem wit_ConfigurationResults : Obligations.ConfigurationResults →
    runs (.bfmt 7 2 5) (st a1) ∧ runs (.pset 0 7 7) (st a1) ∧ runs (.pget 0 0 1) (st a1) ∧ runs (.setvl 0 7 7) (st a1) := fun h =>
  ⟨runs_of ((h (st a1) u0 7 rfl).1 2 5 0x1F (rd (by decide +kernel)) (by decide) (by decide)),
   runs_of ((h (st a1) u0 0 rfl).2.1 7 7 3000 (rd (by decide +kernel)) (by decide +kernel)),
   runs_of ((h (st a1) u0 0 rfl).2.2.1 0 1 wr0 (by decide +kernel)),
   runs_of ((h (st a1) u0 0 rfl).2.2.2 7 7 3000 (rd (by decide +kernel)) (wr (by decide +kernel)) (by decide))⟩

/-- The n low bytes of v. -/
def le (v n : Nat) : List Nat := (List.range n).map fun i => v / 2 ^ (8 * i) % 256
/-- A block of SBIND at scratchpad offset 0x80: base 0x40, FP32, input, counts 4 1 1 1, strides 64 0 0 0, POS 3. -/
def block0 : List Nat := le (sp 0x40) 8 ++ le 0 4 ++ [(4, 64), (1, 0), (1, 0), (1, 0)].flatMap (fun q => le q.1 4 ++ le q.2 4) ++ le 3 4
/-- That stream, bound. -/
def str0 : Stream := { bound := true, base := sp 0x40, dims := [(4, 64), (1, 0), (1, 0), (1, 0)], pos := 3 }
def s1 : State := st a1 tile0 (memOf (bytesAt (pad + 0x80) block0))
/-- The SBIND waits, its block read at its home. -/
def s1r : State := after (execHomeLoad 1 (after (execSbind 0 10 2 s1)))
theorem test_sbind : let s := after (exec (.loadResultLand 1) s1r)
    (s.ctx 3 2).str.getD 2 {} = { str0 with unit := true } ∧ (s.ctx 3 2).pc = 0x1004 ∧ (s1r.ctx 3 2).park = 2 := by decide +kernel
/-- Context a1 with stream 2 bound. -/
def a2 : Ctx := { a1 with str := (Fixed.fill 8 {}).set 2 { str0 with unit := true } }
theorem wit_StreamInstructions : Obligations.StreamInstructions →
    (runs (.sbind 0 10 7) s1 ∧ runs (.loadResultLand 1) s1r) ∧ (runs (.sunbind 0 3) (st a2) ∧ runs (.sunbind 0 2) (st a2)) ∧ runs (.sdrain 0 0) (st a2) := fun h =>
  ⟨⟨runs_of (h.1.1 s1 s1 (match s1.bindReqs 3 2 7 (sp 0x80) 0 48 2 with | .inl x => x | .inr _ => {}) u0 0 10 7 (BitVec.ofNat 64 (sp 0x80)) rfl (rd (by decide +kernel))
      (by decide) (by decide +kernel) (by decide +kernel) rfl (by decide +kernel) (ok_ex (by decide +kernel)) (by decide +kernel) rfl),
    runs_of (h.1.2 s1r (s1r.reqs.headD (s1r.reqOf 3 2 .load 0 0 0 none)) { insn := 0x123, pc := 0x1000 } _ (by decide +kernel) (ev (by decide +kernel)) (by decide +kernel)
      (ev (by decide +kernel)) (by decide +kernel) (by decide +kernel) (ev (by decide +kernel)) (by decide +kernel) (by decide +kernel) (ev (by decide +kernel)) rfl rfl rfl (by decide +kernel))⟩,
   ⟨runs_of ((h.2 (st a2) u0 0 rfl).1 3 (by decide +kernel)), runs_of ((h.2 (st a2) u0 0 rfl).2.1 2 (by decide) (by decide +kernel))⟩,
   runs_of ((h.2 (st a2) u0 0 rfl).2.2 0 (by decide +kernel))⟩

/-- p0, p1 and p2 to vectors 0 of banks 0, 1 and 2 with stride 0, stream 2 bound; x1 = 5. -/
def a3 : Ctx := { cx [(1, 5)] with ptr := ((Fixed.fill 8 0).set 1 1).set 2 2, seg := seg0, str := (Fixed.fill 8 {}).set 2 { str0 with unit := true } }
/-- Banks in INT8 (R142: code 11), accumulators 0 and 7 owned by context 2. -/
def tile1 : Tile := { bank := Fixed.fill 3 11, acc := ((Fixed.fill 8 {}).set 0 { owner := some 2 }).set 7 { owner := some 2 } }
def op0 : VOp := { ctx := 2, gen := 0, vop := 0, d := 2, a := 0, b := 1 }
/-- A VSET of x0 through p2 in the vector queue, VL 2. -/
def op1 : VOp := { ctx := 2, gen := 0, vop := 16, d := 2, vl := 2, fmts := [11, 11, 11] }
/-- Vector 0 of banks 0 and 1 hold 64 ones and 64 twos. -/
def s2 : State := st a3 tile1 (memOf (bytesAt pad (List.replicate 64 1) ++ bytesAt (pad + 0x20000) (List.replicate 64 0xFE)))

/-- The same context in a cluster group of two tiles, its p0 to bank 0 of the other (role 1); an output stream of INT8 in s1, with room; p3 to no bank. -/
def a3f : Ctx := { a3 with
  ptr := (a3.ptr.set 0 12).set 3 3
  str := a3.str.set 1 { bound := true, out := true, fmt := 11, base := sp 0x40, dims := [(4, 64), (1, 0), (1, 0), (1, 0)], unit := true } }
def s2f : State :=
  st a3f { tile1 with grp := some ⟨1, 0⟩ }
    { launches := [(1, { part := 0, num := 1, st := .running, groups := [(0, { tile := 3 }), (1, { tile := 4 })], r := { tiles := 2, trole := [0, 1], crole := [0], drole := [0] } })] }
theorem alone {s : State} (h : (s.tile 3).vq = [] ∧ (s.tile 3).vrun = none ∧ s.reqs = []) :
    (∀ o ∈ (s.tile u0.tile).vq, o.ctx ≠ u0.ctx) ∧ (∀ r, (s.tile u0.tile).vrun = some r → r.ctx ≠ u0.ctx) ∧
    ∀ r ∈ s.reqs, ¬(r.tile = u0.tile ∧ r.ctx = u0.ctx ∧ isSpad r.pa = true) :=
  ⟨fun o ho => absurd (h.1 ▸ ho : o ∈ []) (by simp), fun r hr => absurd ((show (s.tile u0.tile).vrun = none from h.2.1) ▸ hr : none = some r) (by simp),
   fun r hr => absurd (h.2.2 ▸ hr : r ∈ []) (by simp)⟩
/-- Bank 0 in a block format (R142: code 18). -/
def tileB : Tile := { tile1 with bank := tile1.bank.set 0 18 }
theorem block_ex {e : Except Nat (List Operand × Option Operand)} (h : (match e with | .ok q => q.1.any (fun o => Num.isBlock o.fmt.code) | .error _ => true) = true) :
    ∀ os dst, e = .ok (os, dst) → ∃ o ∈ os, Num.isBlock o.fmt.code = true := by
  rintro os dst rfl
  simpa [List.any_eq_true] using h
theorem far0 : s2f.remoteTile 3 2 0 = some 4 := by decide +kernel
theorem wit_VectorIssues : Obligations.VectorIssues →
    (runs (.vadd 7 2 0 1) (st a3 tile1) ∧ runs (.vscl 0 2 1 0) (st a3 tile1) ∧ runs (.vreds 0 15 1) (st a3)) ∧
    (runs (.vadd 0 2 10 1) (st a3 tile1) ∧ runs (.vcpy 0 2 0) (st a3 tile1 { mem := { poison := [pad / 64] } }) ∧
     runs (.vcpy 0 2 0) s2f ∧ runs (.vreds 0 15 10) s2f ∧ runs (.vcpy 0 9 1) s2f ∧ runs (.vcpy 0 2 0) (st a3 tileB)) := fun h =>
  ⟨⟨runs_of (h.1 _ _ u0 _ 0 2 0 1 0 _ _ rfl rfl (by decide) rfl (fun q => absurd q (by decide)) (fun q => absurd q (by decide)) ⟨by decide +kernel, by decide⟩ (by decide) rfl (by decide +kernel)),
    runs_of (h.1 _ _ u0 _ 12 2 0 1 0 _ _ rfl rfl (by decide) rfl (fun _ => ⟨5, rd (by decide +kernel)⟩) (fun q => absurd q (by decide)) ⟨by decide +kernel, by decide⟩ (by decide) rfl
      (by decide +kernel)),
    runs_of (h.1 _ _ u0 _ 18 15 1 0 0 _ _ rfl rfl (by decide) rfl (fun q => absurd q (by decide)) (fun _ => wr (by decide +kernel)) ⟨by decide +kernel, by decide⟩ (by decide) rfl
      (by decide +kernel))⟩,
   ⟨runs_of (h.2 _ (st a3 tile1) u0 _ 0 2 10 1 0 rfl rfl (by decide) rfl (fun q => absurd q (by decide)) (fun q => absurd q (by decide)) (fun _ q => absurd q (by decide))
      (by decide +kernel) (fun _ => alone ⟨rfl, rfl, rfl⟩) (.inr (.inl ⟨10, by decide, .inl (by decide)⟩))),
    runs_of (h.2 _ (st a3 tile1 { mem := { poison := [pad / 64] } }) u0 _ 15 2 0 0 0 rfl rfl (by decide) rfl (fun q => absurd q (by decide)) (fun q => absurd q (by decide)) (fun _ q => absurd q (by decide))
      (by decide +kernel) (fun _ => alone ⟨rfl, rfl, rfl⟩) (.inl (by decide +kernel))),
    runs_of (h.2 _ s2f u0 _ 15 2 0 0 0 rfl rfl (by decide) rfl (fun q => absurd q (by decide)) (fun q => absurd q (by decide)) (fun _ q => absurd q (by decide))
      (by decide +kernel) (fun _ => alone ⟨rfl, rfl, rfl⟩) (.inr (.inl ⟨0, by decide, .inr (fun q => absurd (far0.symm.trans q) (by decide))⟩))),
    runs_of (h.2 _ s2f u0 _ 18 15 10 0 0 rfl rfl (by decide) rfl (fun q => absurd q (by decide)) (fun _ => wr (by decide +kernel)) (fun q => absurd q (by decide))
      (by decide +kernel) (fun _ => alone ⟨rfl, rfl, rfl⟩) (.inr (.inl ⟨10, by decide, .inl (by decide)⟩))),
    runs_of (h.2 _ s2f u0 _ 15 9 1 0 0 rfl rfl (by decide) rfl (fun q => absurd q (by decide)) (fun q => absurd q (by decide)) (fun _ _ => by decide +kernel)
      (by decide +kernel) (fun _ => alone ⟨rfl, rfl, rfl⟩) (.inr (.inr (.inl (by decide))))),
    runs_of (h.2 _ (st a3 tileB) u0 _ 15 2 0 0 0 rfl rfl (by decide) rfl (fun q => absurd q (by decide)) (fun q => absurd q (by decide)) (fun _ q => absurd q (by decide))
      (by decide +kernel) (fun _ => alone ⟨rfl, rfl, rfl⟩) (.inr (.inr (.inr (block_ex (by decide +kernel))))))⟩⟩
/-- R333: 0x01010101 + 0xFEFEFEFE = −1 in INT32 (R142: code 9). -/
theorem test_vadd : let s := st a3 { bank := Fixed.fill 3 9 } s2
    (after (exec (.vectorUnitStart 3) (after (exec (.vadd 0 2 0 1) s)))).peek (pad + 0x40000) = 0xFF := by decide +kernel
/-- A VSUB of INT4 elements (R142: code 13) in range: 3 − (−4). -/
def k13 : VCtx := { op := { op0 with vop := 1, fmts := [13, 13, 13] }, srcs := [], dst := none, int := true, same := false }
def o13 : Operand := { sel := 0, fmt := { code := 13 }, at_ := .stream 0 }
def f13 : OFmt := { code := 13 }
theorem wit_VectorSetZeroes : Obligations.VectorSetZeroes →
    runs (.vectorUnitStart 3) (st a3 { tile1 with vq := [op1] }) ∧ (s2.vecElems k13 [(o13, [(3, 0, 0)]), (o13, [(12, 0, 0)])] f13)[0]?.isSome = true ∧
    reduceAll 18 0 0 true [1, -1] = (0, 0) := fun h =>
  ⟨runs_of (h.1 (st a3 { tile1 with vq := [op1] }) 3 op1 _ 2 0 0 (by decide) (by decide) (by decide) rfl rfl (by decide +kernel) rfl rfl rfl rfl (by decide)
      (by decide) (by intro _ q; cases q) rfl (noWait rfl) rfl rfl rfl (by decide) (by decide) rfl),
   (h.2.1 s2 k13 [(o13, [(3, 0, 0)]), (o13, [(12, 0, 0)])] f13 0 rfl rfl (by decide) (by decide) (by decide) (by decide) (by decide) (by decide) (by decide)).elim
     fun _ q => by rw [q.1]; rfl,
   ((h.2.2 0 0 1 [-1]).1 (by decide) (by decide)).trans (by decide)⟩
/-- R339: a word becomes 64 × 1 × (−2). -/
theorem test_mma : (((after (exec (.matrixStepLand 3) { after (exec (.mma 0 0 0 1) s2) with cyc := 132 })).tile 3).acc.getD 0 {}).els.getD 37 0 = 0xFFFFFF80 := by
  decide +kernel
theorem mayStep0 {v : Tile} {b : State} {n : Nat} (h : v.mrun = none ∧ v.mfree = 0 ∧ (st a3 v b).bankBusy 3 2 = false ∧ (v.acc.getD n {}).owner = some 2 ∧
    ((st a3 v b).tile 3).ownTurn 2 100 = true) : Says.mayStep (st a3 v b) u0 n :=
  ⟨rfl, h.2.2.2.2, h.1, by show v.mfree ≤ 100; omega, h.2.2.1, h.2.2.2.1⟩
/-- Stream 2, an FP32 input, as a matrix operand, and its 16 vectors in the operand buffer. -/
def o10 : Operand := { sel := 10, fmt := { code := 0 }, at_ := .stream 2 }
def s2b : State := st a3 { tile1 with mbuf := some { ctx := 2, pc := 0x1000, a := List.replicate 16 (1, false), b := List.replicate 16 (2, false), ready := true } }
theorem source10 (f : OFmt → Nat) : Says.stepSource s2 u0 10 f o10 ∧ Says.stepSource s2b u0 10 f o10 :=
  ⟨⟨by decide +kernel, by decide, o10, rfl, rfl⟩, by decide +kernel, by decide, o10, rfl, rfl⟩
theorem wit_MatrixMultiplies : Obligations.MatrixMultiplies →
    (runs (.mma 7 7 0 1) s2 ∧ runs (.mma 0 0 1 1) s2) ∧
    (runs (.mma 0 0 10 10) s2 ∧ runs (.mma 0 0 10 10) s2b) ∧ (mmaOf 0 true [0x7FFFFFFF] [[⟨.nan, 1, false⟩]] [[⟨.nan, 1, false⟩]]).1.getD 0 0 = 0x80000000 ∧
    ((mmaOf 16 true [0x7FFFFFFF] [[⟨.nan, 1, false⟩]] [[⟨.nan, 1, false⟩]]).1.getD 0 0).toInt = 2 ^ 31 - 1 ∧
    ((mmaOf 16 true [0x80000000] [[⟨.nan, 1, false⟩]] [[⟨.nan, -1, false⟩]]).1.getD 0 0).toInt = -(2 ^ 31 : Int) := fun h =>
  ⟨⟨runs_of (h.1 s2 u0 7 7 0 1 _ _ _ _ rfl (mayStep0 (by decide +kernel)) ⟨by decide, by decide, fun _ => rfl, rfl, rfl⟩ ⟨by decide, by decide, fun _ => rfl, rfl, rfl⟩
      (by decide +kernel) (by decide +kernel) rfl rfl),
    runs_of (h.1 s2 u0 0 0 1 1 _ _ _ _ rfl (mayStep0 (by decide +kernel)) ⟨by decide, by decide, fun _ => rfl, rfl, rfl⟩ ⟨by decide, by decide, fun _ => rfl, rfl, rfl⟩
      (by decide +kernel) (by decide +kernel) rfl rfl)⟩,
   ⟨runs_of ((h.2.2 s2 u0 0 0 10 10 o10 o10 rfl (mayStep0 (by decide +kernel)) (source10 _).1 (source10 _).1 (.inl (.inl (by decide))) rfl rfl).1 (by decide +kernel)
      (fun m q => by cases (show (none : Option MBuf) = some m from q))),
    runs_of ((h.2.2 s2b u0 0 0 10 10 o10 o10 rfl (mayStep0 (by decide +kernel)) (source10 _).2 (source10 _).2 (.inl (.inl (by decide))) rfl rfl).2 _ _ _ _ _ rfl rfl rfl rfl rfl
      (ok_eq₂ ({}, []) (by decide +kernel)) (ok_eq₂ ({}, []) (by decide +kernel)))⟩,
   ((h.2.1 0 [0x7FFFFFFF] [[⟨.nan, 1, false⟩]] [[⟨.nan, 1, false⟩]] 0 0 (by decide) (by decide) (by decide) (by decide)).2.1 (by decide) (by decide)).1,
   ((h.2.1 16 [0x7FFFFFFF] [[⟨.nan, 1, false⟩]] [[⟨.nan, 1, false⟩]] 0 0 (by decide) (by decide) (by decide) (by decide)).2.2.2 (by decide) (by decide)).1,
   ((h.2.1 16 [0x80000000] [[⟨.nan, 1, false⟩]] [[⟨.nan, -1, false⟩]] 0 0 (by decide) (by decide) (by decide) (by decide)).2.2.1 (by decide) (by decide)).1⟩
theorem wit_MatrixZero : Obligations.MatrixZero → (runs (.mzero 0 7) s2 ∧ runs (.mzero 0 1) s2) ∧ (∃ e, decodeWord 0x010010AB = .error e ∨ decodeWord 0x010101AB = .error e) := fun h =>
  ⟨⟨runs_of (h.1 s2 u0 0 7 rfl (mayStep0 (by decide +kernel))),
    runs_eq (h.2.1 s2 u0 0 1 rfl (by decide) (by decide +kernel) rfl (by decide) (by decide +kernel) (by decide +kernel))⟩,
   (h.2.2.1 0 0 1 0 1 (by decide) (by decide) (by decide) (by decide) (by decide) (by decide)).imp fun _ q => .inr (by simpa using q)⟩
/-- Stream 1, an INT8 output over scratchpad vectors, with room for the four vectors of an accumulator. -/
def o9 : Operand := { sel := 9, fmt := { code := 11 }, at_ := .stream 1 }
def s2d : State := st a3f tile1
theorem drains (k : Nat) (h : k < 4) : s2d.farAway 3 a3f.seg ((a3f.str.getD 1 {}).addr (0 + k)) = false ∧
    ∃ d off, s2d.segCheck 3 a3f.seg ((a3f.str.getD 1 {}).addr (0 + k)) 64 false true false = .ok (.spad d off) := by
  obtain rfl | rfl | rfl | rfl : k = 0 ∨ k = 1 ∨ k = 2 ∨ k = 3 := by omega
  all_goals exact ⟨by decide +kernel, 3, _, rfl⟩
theorem mayStepF {n : Nat} (h : (tile1.acc.getD n {}).owner = some 2) : Says.mayStep s2d u0 n :=
  ⟨rfl, by decide +kernel, rfl, by decide, by decide +kernel, h⟩
/-- A drain about to land: all ones in vector 0 of bank 2, and in the last one of bank 1. -/
def run0 : MRun := { ctx := 2, acc := 0, till := 100, drain := [(spadLine 3 2 0, 2 ^ 512 - 1, 512), (spadLine 3 1 2047, 1, 8)] }
def s2m : State := st a3 { tile1 with mrun := some run0 }
theorem wit_MatrixMoves : Obligations.MatrixMoves →
    (runs (.mload 0 7 1) s2 ∧ runs (.mload 0 0 10) s2 ∧ runs (.mload 0 0 10) s2b) ∧ (runs (.mdrain 0 0 2 1) s2 ∧ runs (.matrixStepLand 3) s2m) ∧ runs (.mdrain 0 7 9 0) s2d := fun h =>
  ⟨⟨(h.1 s2 u0 0 7 1 _ _ rfl (mayStep0 (by decide +kernel)) ⟨by decide, by decide, fun _ => rfl, rfl, rfl⟩ (by decide +kernel)).imp fun _ ⟨_, q, _⟩ => q,
    runs_of ((h.2.2.1 s2 u0 0 0 10 o10 rfl (mayStep0 (by decide +kernel)) (source10 _).1 (.inl (by decide))).1 (by decide +kernel)
      (fun m q => by cases (show (none : Option MBuf) = some m from q))),
    runs_of₂ ((h.2.2.1 s2b u0 0 0 10 o10 rfl (mayStep0 (by decide +kernel)) (source10 _).2 (.inl (by decide))).2 _ _ _ rfl rfl rfl rfl rfl (ok_eq₂ ({}, []) (by decide +kernel)))⟩,
   ⟨runs_of₂ (h.2.1.1 s2 u0 0 0 2 1 _ 2 0 0 rfl (mayStep0 (by decide +kernel)) rfl (by decide) (by decide +kernel) rfl rfl rfl rfl),
    runs_of (h.2.1.2 s2m 3 run0 (by decide) rfl (by decide) rfl (noWait rfl) (by decide) (by decide +kernel))⟩,
   runs_of₂ (h.2.2.2 s2d u0 0 7 9 0 o9 rfl (mayStepF (by decide +kernel)) rfl (by decide) (by decide) (by decide +kernel) rfl rfl rfl rfl (by decide) (by decide) (by decide) drains)⟩
theorem wit_AccumulatorOwnership : Obligations.AccumulatorOwnership →
    runs (.macq 0 1 0) s2 ∧ (runs (.macq 0 7 1) s2 ∧ runs (.mstat 0 7 0) s2 ∧ runs (.mstat 0 7 1) s2) ∧ runs (.macq 0 0 0) s2 ∧
    runs (.macq 0 2 0) (st a3 { acc := (Fixed.fill 8 {}).set 2 { owner := some 9 } }) ∧ runs (.mstat 0 1 0) s2 := fun h =>
  ⟨runs_of ((h s2 u0 0 1 rfl).1 (by decide) (by decide +kernel)),
   let q := (h s2 u0 0 7 rfl).2.1 (by decide +kernel) (by intro m hm; have : (s2.tile 3).mrun = none := rfl; simp [u0, this] at hm)
   ⟨runs_of q.1, runs_of q.2.1, runs_of q.2.2⟩,
   runs_of ((h s2 u0 0 0 rfl).2.2.1 (by decide) (by decide +kernel)),
   runs_eq ((h _ u0 0 2 rfl).2.2.2.1 9 (by decide) (by decide) (by decide +kernel)),
   runs_eq ((h s2 u0 0 1 rfl).2.2.2.2 (by decide +kernel)).2.1⟩

/-! ## Memory and synchronization -/

/-- x5 = address 0x100 in partition memory, x6 = scratchpad address 0x140, x7 = −1, x8 = 64; features 0 to 31; partition 0 holds clusters 0 to 63 and the 8 low MiB of each vault. -/
def a4 : Ctx := { cx [(5, 0x100), (6, sp 0x140), (7, 2 ^ 64 - 1), (8, 64), (9, 3)] with seg := seg0 }
def b0 : State := { feats := 2 ^ 32 - 1, pf := [(0x8000, -1), (0x8040, 17), (0xB000, 0x10000)] }
def s3 : State := st a4 tile0 b0
theorem opt {α : Type} {o : Option α} {p : α → Bool} (h : o.all p = true) : ∀ e, o = some e → p e = true := by intro e he; simpa [he] using h

theorem wit_AddressChecks : Obligations.AddressChecks → (page0.pa 0x100 = 0x100 ∧ (s3.ctx 3 2).seg.getD 0 {} ≠ {}) ∧ pad + 0x140 ≤ pad + 393216 - 8 := fun h =>
  let p := h s3 s3 3 2 0x100 8 0x100 true false false false (some page0) rfl
  let q := h s3 s3 3 2 (sp 0x5FFF8) 8 (pad + 0x5FFF8) true true false true none rfl
  ⟨⟨by decide, by decide +kernel⟩, by have := p.1; have := q.1; decide⟩

theorem wit_LoadsStoresIssue : Obligations.LoadsStoresIssue →
    (runs (.ld 10 5 (-8)) s3 ∧ runs (.lbu 0 6 7) s3) ∧ runs (.sd 5 7 8) s3 ∧ runs (.sb 6 7 (-1)) s3 := fun h =>
  ⟨⟨runs_of₂ (h.1 _ s3 s3 u0 10 5 8 0xF8 (-8) _ 0x100 (some page0) rfl rfl (rd (by decide +kernel)) (wr (by decide +kernel)) ⟨by decide, rfl⟩ (by decide +kernel)),
    runs_of₂ (h.1 _ s3 s3 u0 0 6 1 (pad + 0x147) 7 _ (BitVec.ofNat 64 (sp 0x140)) none rfl rfl (rd (by decide +kernel)) wr0 ⟨by decide, rfl⟩ (by decide +kernel))⟩,
   runs_of₂ (h.2 _ s3 s3 u0 5 7 8 0x108 8 0x100 (-1) (some page0) rfl rfl ⟨rd (by decide +kernel), rd (by decide +kernel), trivial⟩ ⟨by decide, rfl⟩ (by decide +kernel)
     (by decide +kernel)),
   runs_of₂ (h.2 _ s3 s3 u0 6 7 1 (pad + 0x13F) (-1) (BitVec.ofNat 64 (sp 0x140)) (-1) none rfl rfl ⟨rd (by decide +kernel), rd (by decide +kernel), trivial⟩ ⟨by decide, rfl⟩
     (by decide +kernel) (by decide +kernel))⟩
/-- R301, R186: the low four bytes of the source, low byte first, at the home of the address. -/
theorem test_sw : (List.range 5).map ((after (exec (.homeStoreApply 1) (after (exec (.sw 5 7 8) s3)))).peek <| 0x107 + ·) = [0, 255, 255, 255, 255] := by decide +kernel
/-- R299: a byte with its sign. -/
theorem test_lb : ((after (exec (.loadResultLand 1) (after (exec (.homeLoad 1) (after (exec (.lb 9 5 1) { s3 with mem := { cells := [(0x101, 0x80)] } })))))).ctx 3 2).reg 9 =
    { val := 2 ^ 64 - 128, dirty := true } := by decide +kernel

theorem wit_WaitingLoadsIssue : Obligations.WaitingLoadsIssue →
    (runs (.ldaW 0 30 5 511) s3 ∧ runs (.ldaN 7 0 5) s3) ∧ runs (.waitw 0 9 5 7 3) s3 ∧ runs (.waitc 0 0 6 8 0) s3 := fun h =>
  ⟨⟨runs_of₂ ((h.1 s3 s3 u0 0 30 5 0x100 0x100 (some page0) rfl (by decide) (by decide) (by decide) (rd (by decide +kernel)) (wr (by decide +kernel)) (wr (by decide +kernel))
      ⟨by decide, rfl⟩ (by decide +kernel)).1 511),
    runs_of₂ (h.1 s3 s3 u0 7 0 5 0x100 0x100 (some page0) rfl (by decide) (by decide) (by decide) (rd (by decide +kernel)) wr0 (wr (by decide +kernel))
      ⟨by decide, rfl⟩ (by decide +kernel)).2⟩,
   runs_of₃ (h.2 s3 s3 u0 0 9 5 7 3 0x100 0x100 (-1) (some page0) _ _ rfl (.inl ⟨rfl, rfl⟩) ⟨rd (by decide +kernel), rd (by decide +kernel), trivial⟩ (wr (by decide +kernel))
     ⟨by decide, rfl⟩ (by decide +kernel) (by intro _ q; cases q)),
   runs_of₃ (h.2 s3 s3 u0 0 0 6 8 0 (pad + 0x140) (BitVec.ofNat 64 (sp 0x140)) 64 none _ _ rfl (.inr ⟨rfl, rfl⟩) ⟨rd (by decide +kernel), rd (by decide +kernel), trivial⟩ wr0
     ⟨by decide, rfl⟩ (by decide +kernel) (by intro _ q; cases q))⟩

/-- Commutative range 0 of partition 0: INT32, add, over lines 0 to 255. -/
def s4 : State := st a4 tile0 { b0 with pf := b0.pf ++ [(0x20000, 0x21), (0x20008, 0x3FC0)] }
/-- The same with two releases out: the port holds stores. -/
def s4h : State := st { a4 with fences := [{ id := 0, kind := .query, loads := false }] } tile0 { b0 with pf := b0.pf ++ [(0x20000, 0x21), (0x20008, 0x3FC0)], nextId := 1 }
theorem wit_AtomicsAndCombinesIssue : Obligations.AtomicsAndCombinesIssue →
    (runs (.stc 0 5 7) s3 ∧ runs (.stc 0 6 7) s3 ∧ runs (.stc 7 5 7) s4 ∧ runs (.stc 0 5 7) s4h) ∧ (runs (.amocasD 0 7 5 8) s3 ∧ runs (.amofmax 0 0 6 7) s3) ∧
    runs (.elect 0 9 5) s3 := fun h =>
  ⟨⟨runs_of₂ ((h.1 s3 s3 u0 0 5 7 0x100 0x100 (-1) (some page0) rfl (by decide) ⟨rd (by decide +kernel), rd (by decide +kernel), trivial⟩ ⟨by decide, rfl⟩ (by decide +kernel)
      (by decide +kernel)).1 (.inr ⟨page0, rfl, .inr (by decide +kernel)⟩) (by decide +kernel)),
    runs_of₂ ((h.1 s3 s3 u0 0 6 7 (pad + 0x140) (BitVec.ofNat 64 (sp 0x140)) (-1) none rfl (by decide) ⟨rd (by decide +kernel), rd (by decide +kernel), trivial⟩ ⟨by decide, rfl⟩
      (by decide +kernel) (by decide +kernel)).1 (.inl rfl) (by decide +kernel)),
    runs_of₂ (((h.1 s4 s4 u0 7 5 7 0x100 0x100 (-1) (some page0) rfl (by decide) ⟨rd (by decide +kernel), rd (by decide +kernel), trivial⟩ ⟨by decide, rfl⟩ (by decide +kernel)
      (by decide +kernel)).2 page0 2 0 rfl rfl (by decide +kernel) (by decide +kernel)).1 (by decide +kernel)),
    runs_of₂ (((h.1 s4h s4h u0 0 5 7 0x100 0x100 (-1) (some page0) rfl (by decide) ⟨rd (by decide +kernel), rd (by decide +kernel), trivial⟩ ⟨by decide, rfl⟩ (by decide +kernel)
      (by decide +kernel)).2 page0 2 0 rfl rfl (by decide +kernel) (by decide +kernel)).2 (by decide +kernel))⟩,
   ⟨runs_of₂ ((h.2 s3 s3 u0 0x100 0x100 (some page0) rfl (by decide +kernel)).1 _ 0 7 5 8 4 8 64 (-1) rfl ⟨rd (by decide +kernel), rd (by decide +kernel), trivial⟩
      (fun _ => rd (by decide +kernel)) (wr (by decide +kernel)) ⟨by decide, rfl⟩ (by decide)),
    runs_of₂ ((h.2 s3 s3 u0 (pad + 0x140) (BitVec.ofNat 64 (sp 0x140)) none rfl (by decide +kernel)).1 _ 0 0 6 7 9 4 (-1) 0 rfl
      ⟨rd (by decide +kernel), rd (by decide +kernel), trivial⟩ (fun q => absurd q (by decide)) wr0 ⟨by decide, rfl⟩ (by decide))⟩,
   runs_of₂ ((h.2 s3 s3 u0 0x100 0x100 (some page0) rfl (by decide +kernel)).2 0 9 5 (rd (by decide +kernel)) (wr (by decide +kernel)) ⟨by decide, rfl⟩ (by decide))⟩
/-- R348: two INT32 elements of −1 combine with two more; memory is as it was. -/
theorem test_stc : ((Tbl.find? ((after (exec (.stc 0 5 7) { after (exec (.stc 0 5 7) s4) with cur := some u0 })).tile 3).parts 4).map (·.els)) = some [(0, 0xFFFFFFFE), (4, 0xFFFFFFFE)] ∧
    ((after (exec (.stc 0 5 7) s4)).mem = {}) := by decide +kernel
/-- R350: AMOADD.W returns the old word sign-extended and the word wraps. -/
theorem test_amoadd : let s := after (exec (.homeAtomic 1) (after (exec (.amoaddW 0 9 5 7) s3)))
    s.peekN 0x100 8 = 0xFFFFFFFF ∧ ((after (exec (.loadResultLand 1) s)).ctx 3 2).reg 9 = { val := 0, dirty := true } := by decide +kernel

/-- A load of context 2 is out. -/
def r0 : Req := { id := 1, tile := 3, ctx := 2, gen := 0, kind := .load, pa := 0x100, dst := 10, insn := 0x123 }
theorem fillD (r : Nat) : (Fixed.fill 4 false : Fixed Bool 4).getD r false = false := by rcases r with _ | _ | _ | _ | r <;> rfl
theorem quiet0 {x : Ctx} {v : Tile} {b : State}
    (h : b.reqs = [] ∧ b.barWait = [] ∧ (st x v b).unitBusy 3 2 b.nextId = false ∧ x.fences = [] ∧ x.closed = Fixed.fill 4 false ∧ x.clearing = Fixed.fill 4 false) : Says.quiet (st x v b) u0 :=
  ⟨by intro r hr; have : (st x v b).reqs = b.reqs := rfl; simp [this, h.1] at hr, h.2.2.1, h.2.2.2.1,
   fun r => ⟨(show (st x v b).ctx 3 2 = x from rfl) ▸ h.2.2.2.2.1 ▸ fillD r, (show (st x v b).ctx 3 2 = x from rfl) ▸ h.2.2.2.2.2 ▸ fillD r⟩,
   by intro w hw; have : (st x v b).barWait = b.barWait := rfl; simp [this, h.2.1] at hw⟩
theorem wit_OrderingInstructions : Obligations.OrderingInstructions →
    (runs (.fenceS 7 0) s3 ∧ runs (.fenceS 0 1) { s3 with reqs := [r0], nextId := 2 } ∧ runs (.acq 0 5) s3 ∧ runs (.rel 0) s3 ∧ runs (.fenceS 0 5) s3) ∧
    (runs (.wbr 0 5 0) s3 ∧ runs (.invr 0 6 8) s3 ∧ runs (.wbr 0 5 8) s3 ∧ runs (.invr 0 5 8) s3) := fun h =>
  ⟨⟨runs_of (h.1 s3 u0 7 rfl).1, runs_of (h.1 { s3 with reqs := [r0], nextId := 2 } u0 0 rfl).2.1, runs_of ((h.1 s3 u0 0 rfl).2.2.1 5),
    runs_of ((h.1 s3 u0 0 rfl).2.2.2 (by decide) _ (.inl rfl)),
    runs_of ((h.1 s3 u0 0 rfl).2.2.2 (by decide) _ (.inr ⟨5, by decide, rfl⟩))⟩,
   runs_of ((h.2 s3 u0 0 5 0 0x100 0 _ true rfl rfl ⟨rd (by decide +kernel), rd0, trivial⟩).1 (.inl rfl)),
   runs_of ((h.2 s3 u0 0 6 8 (BitVec.ofNat 64 (sp 0x140)) 64 _ false rfl rfl ⟨rd (by decide +kernel), rd (by decide +kernel), trivial⟩).1 (.inr ⟨3, 0x140, rfl⟩)),
   runs_of ((h.2 s3 u0 0 5 8 0x100 64 _ true rfl rfl ⟨rd (by decide +kernel), rd (by decide +kernel), trivial⟩).2 0x100 (by decide) rfl (by decide +kernel) (by decide +kernel) (by intro _ q; cases q)
     (fun l hl e he => by
       have := List.all_eq_true.1 (show (lineRange 0x100 64).all (fun l => (s3.rangePage 3 l).all (·.r)) = true by decide +kernel) l hl
       exact opt (p := (·.r)) this e he)),
   runs_of ((h.2 s3 u0 0 5 8 0x100 64 _ false rfl rfl ⟨rd (by decide +kernel), rd (by decide +kernel), trivial⟩).2 0x100 (by decide) rfl (by decide +kernel) (by decide +kernel) (by intro _ q; cases q)
     (fun l hl e he => by
       have := List.all_eq_true.1 (show (lineRange 0x100 64).all (fun l => (s3.rangePage 3 l).all (fun e => e.w && !e.mig)) = true by decide +kernel) l hl
       simpa using opt (p := fun e => e.w && !e.mig) this e he))⟩

theorem test_fest : regs (.fest 0 9 10) (st { a4 with x := a4.x.set 10 { st := .open } }) [9] = [2] ∧
    regs (.fest 0 9 10) (st { a4 with x := a4.x.set 10 { poison := true } }) [9] = [4] := by decide +kernel
theorem wit_FullEmptyInstructions : Obligations.FullEmptyInstructions →
    runs (.fempty 0 31) s3 ∧ (runs (.fest 0 9 31) s3 ∧ runs (.fest 0 0 0) s3) ∧ runs (.fest 0 9 31) (st { a4 with qmap := 1 }) ∧ runs (.fest 0 9 30) (st { a4 with qmap := 1 }) := fun h =>
  ⟨((h s3 u0 0 rfl).1 31 (by decide) (by decide) (wr (by decide +kernel))).elim fun _ q => runs_of q.1,
   ⟨runs_of ((h s3 u0 0 rfl).2.1 9 31 (wr (by decide +kernel)) (fun m => absurd m (by decide +kernel))), runs_of ((h s3 u0 0 rfl).2.1 0 0 wr0 (fun m => absurd m (by decide +kernel)))⟩,
   let q := (h (st { a4 with qmap := 1 }) u0 0 rfl).2.2 9 (.inr ⟨fun _ => by decide, by decide +kernel⟩) (by decide +kernel)
   ⟨runs_of q.1, runs_of q.2⟩⟩

/-- A barrier object at scratchpad offset 0x140 with GEN 15, PENDING 1 and RELOAD 2. -/
def s5 : State := st a4 tile0 { b0 with mem := { cells := bytesAt (pad + 0x140) [0x1F, 0, 0x20, 0, 0, 0, 0, 0, 0, 0, 0, 0, 0, 0, 0, 0] } }
theorem quiet5 : Says.quiet s5 u0 := quiet0 (by decide +kernel)
/-- R228: the last arrival raises GEN, which wraps, and reloads PENDING. -/
theorem test_barrive : (after (exec (.barrive 0 6) s5)).barrier ((pad + 0x140) / 64) = { gen := 0, pending := 2, reload := 2 } := by decide +kernel
/-- Context 9 waits for semaphore 3. -/
def s6 : State := { s3 with
  tiles := [(3, { s3.tile 3 with
    semWait := [(3, 9)], sem := (Fixed.fill 8 0).set 7 (2 ^ 32 - 1)
    ctxs := [(2, a4), (9, { state := .slotted, pc := 0x2000, latch := some { pc := 0x2000 }, park := 4 })] })] }
theorem quiet6 : Says.quiet s6 u0 := ⟨by decide, by decide +kernel, rfl, fun r => ⟨fillD r, fillD r⟩, by decide⟩
theorem wit_BarriersAndSemaphores : Obligations.BarriersAndSemaphores →
    (runs (.barinit 0 6 8) s5 ∧ runs (.barinit 0 6 0) s5 ∧ runs (.barrive 0 6) s5 ∧ runs (.barwait 0 6 9) s5) ∧
    (runs (.semw 0 7) s6 ∧ runs (.semp 0 7) s6 ∧ runs (.semp 0 3) s6 ∧ runs (.semp 0 0) s6) := fun h =>
  ⟨⟨runs_of ((h.1 s5 u0 0 6 (BitVec.ofNat 64 (sp 0x140)) rfl quiet5 (noWait rfl)).1 8 ((pad + 0x140) / 64) 64 ⟨rd (by decide +kernel), rd (by decide +kernel), trivial⟩ (by decide)
      ⟨by decide, by decide +kernel, 3, 0x140, rfl, rfl, by decide, by decide +kernel⟩),
    runs_of ((h.1 s5 u0 0 6 (BitVec.ofNat 64 (sp 0x140)) rfl quiet5 (noWait rfl)).1 0 ((pad + 0x140) / 64) 0 ⟨rd (by decide +kernel), rd0, trivial⟩ (by decide)
      ⟨by decide, by decide +kernel, 3, 0x140, rfl, rfl, by decide, by decide +kernel⟩),
    runs_of ((h.1 s5 u0 0 6 (BitVec.ofNat 64 (sp 0x140)) rfl quiet5 (noWait rfl)).2.1 ((pad + 0x140) / 64) (rd (by decide +kernel))
      ⟨by decide, by decide +kernel, 3, 0x140, rfl, rfl, by decide, by decide +kernel⟩ (by decide +kernel)),
    runs_of ((h.1 s5 u0 0 6 (BitVec.ofNat 64 (sp 0x140)) rfl quiet5 (noWait rfl)).2.2 9 ((pad + 0x140) / 64) 3 ⟨rd (by decide +kernel), rd (by decide +kernel), trivial⟩ (by decide)
      ⟨by decide, by decide +kernel, 3, 0x140, rfl, rfl, by decide, by decide +kernel⟩ (by decide +kernel))⟩,
   runs_of ((h.2 s6 u0 0 7 rfl (by decide)).1 (by decide +kernel) (by decide +kernel)),
   runs_eq ((h.2 s6 u0 0 7 rfl (by decide)).2.1 quiet6 (by decide +kernel)),
   runs_of ((h.2 s6 u0 0 3 rfl (by decide)).2.2.1 quiet6 (by decide +kernel) 9 _ rfl (by decide) rfl rfl rfl),
   runs_of ((h.2 s6 u0 0 0 rfl (by decide)).2.2.2 quiet6 (by decide +kernel) (by decide +kernel))⟩
theorem wit_BarrierTraps : Obligations.OperandTraps →
    runs (.barrive 0 6) (st a4 tile0 { mem := { cells := bytesAt (pad + 0x140) (List.replicate 16 0) } }) ∧ runs (.barrive 0 6) (st a4 tile0 { mem := { poison := [(pad + 0x140) / 64] } }) ∧
    runs (.barinit 0 6 7) s5 ∧ runs (.barwait 0 6 8) s5 := fun h =>
  ⟨runs_eq ((h.2.2.2 _ u0 0 6 0 ((pad + 0x140) / 64) (BitVec.ofNat 64 (sp 0x140)) 0 rfl).1 (quiet0 (by decide +kernel)) (rd (by decide +kernel))
     ⟨by decide, by decide +kernel, 3, 0x140, rfl, rfl, by decide, by decide +kernel⟩ (by decide +kernel)),
   runs_eq ((h.2.2.2 _ u0 0 6 0 0 (BitVec.ofNat 64 (sp 0x140)) 0 rfl).2.1 3 0x140 (rd (by decide +kernel)) (by decide) (by decide +kernel) rfl (by decide +kernel)),
   runs_eq (((h.2.2.2 s5 u0 0 6 7 0 (BitVec.ofNat 64 (sp 0x140)) (-1) rfl).2.2 ⟨rd (by decide +kernel), rd (by decide +kernel), trivial⟩).1 (by decide)),
   runs_eq (((h.2.2.2 s5 u0 0 6 8 0 (BitVec.ofNat 64 (sp 0x140)) 64 rfl).2.2 ⟨rd (by decide +kernel), rd (by decide +kernel), trivial⟩).2 (by decide))⟩

/-! ## Contexts, system registers and traps -/

/-- A launch of partition 0 on tile 3: 64 contexts, a handler, 4 ranks of which it is 1. -/
def l0 : Launch := { part := 0, num := 1, st := .running, groups := [(0, { tile := 3 })]
                     r := { ctx := 64, handler := 0x8000, nranks := 4, myrank := 1, seg := seg0, trole := [0], crole := [0], drole := [0, 1, 2, 3] } }
/-- Its crown issues; its tile holds these other contexts. -/
def cr (v : List (Nat × Nat)) (rest : Table Ctx := []) (t : Tile := {}) (b : State := b0) : State :=
  { b with
    cyc := 100, cur := some ⟨3, 0, 0x123⟩, launches := [(1, l0)]
    tiles := [(3, { t with grp := some ⟨1, 0⟩, tlb := [page0], ctxs := (0, { cx v with slot := some 0, seg := seg0 }) :: rest })] }
def uc : Cur := ⟨3, 0, 0x123⟩

theorem wit_SystemRegisterReads : Obligations.SystemRegisters →
    (runs (.srd 0 9 2) s3 ∧ runs (.srd 7 0 12) s3 ∧ runs (.srd 0 9 19) (cr [])) ∧ runs (.rdcyc 0 9) s3 := fun h =>
  ⟨⟨runs_of ((h.1 s3 u0 0 9 rfl (wr (by decide +kernel))).1 2 (by decide) (fun q => absurd q (by decide)) (fun _ => by decide +kernel)),
    runs_of ((h.1 s3 u0 7 0 rfl wr0).1 12 (by decide) (fun q => absurd q (by decide)) (fun q => absurd q (by decide))),
    runs_of ((h.1 (cr []) uc 0 9 rfl (wr (by decide +kernel))).1 19 (by decide) (fun _ => rfl) (fun q => absurd q (by decide)))⟩,
   runs_of (h.1 s3 u0 0 9 rfl (wr (by decide +kernel))).2⟩
/-- R379: CTX_ID of the crown: context 0, generation 0, group 0, launch 1; CYC counts the reference clock. -/
theorem test_srd : regs (.srd 0 9 9) (st a4 { grp := some ⟨1, 0⟩ } { b0 with launches := [(1, l0)], ref6 := 605 }) [9] = [2 + 2 ^ 32] ∧
    regs (.srd 0 9 10) (st a4 { grp := some ⟨1, 0⟩ } { b0 with launches := [(1, l0)], ref6 := 605 }) [9] = [100] := by decide +kernel

/-- x5 = 32, x6 = 0x1F, x7 = −1, x8 = 0xFEDCBA9876543210, x9 = 2. -/
def a5 : Ctx := cx [(5, 32), (6, 0x1D), (7, 2 ^ 64 - 1), (8, 0xFEDCBA9876543210), (9, 2), (10, 1)]
def c5 : State := cr [(5, 32), (6, 0x1D), (7, 2 ^ 64 - 1), (8, 0xFEDCBA9876543210), (9, 2)]
theorem wit_SystemRegisterWrites : Obligations.SystemRegisters →
    (runs (.swr 0 6 1) (st a5) ∧ runs (.swr 0 5 1) (st a5)) ∧ (runs (.swr 0 8 14) c5 ∧ runs (.swr 0 7 13) (cr [(7, 2 ^ 64 - 1)] [] { rotHi := 0 }) ∧ runs (.swr 0 5 16) c5 ∧ runs (.swr 0 9 16) c5) ∧
    runs (.rotationTableApply 3) (cr [] [] { rotNext := some (1, 2), rotAt := 100 }) ∧
    (runs (.qcfg 0 0) (st a5) ∧ runs (.swr 0 10 6) (st a5) ∧ runs (.qcfg 0 9) (st a5) ∧ runs (.qdest 0 7) (st a5) ∧ runs (.swr 0 7 7) (st a5)) := fun h =>
  ⟨⟨runs_of (h.2.1 (st a5) u0 0 6 1 0x1D rfl (rd (by decide +kernel)) (by decide)),
    runs_eq (h.2.1 (st a5) u0 0 5 1 32 rfl (rd (by decide +kernel)) (by decide))⟩,
   ⟨runs_of (((h.2.2.1.1 c5 uc 0 8 0xFEDCBA9876543210 rfl rfl (rd (by decide +kernel))).1 true _ _ rfl).1 (by decide +kernel)),
    runs_eq (((h.2.2.1.1 (cr [(7, 2 ^ 64 - 1)] [] { rotHi := 0 }) uc 0 7 (-1) rfl rfl (rd (by decide +kernel))).1 false _ _ rfl).2 (by decide +kernel)),
    runs_of ((h.2.2.1.1 c5 uc 0 5 32 rfl rfl (rd (by decide +kernel))).2.1 (by decide)),
    runs_eq ((h.2.2.1.1 c5 uc 0 9 2 rfl rfl (rd (by decide +kernel))).2.2 (by decide))⟩,
   runs_of (h.2.2.1.2 (cr [] [] { rotNext := some (1, 2), rotAt := 100 }) 3 0 1 2 rfl (by decide)),
   runs_of (((h.2.2.2 (st a5) u0 0 0 0 rfl rd0 rfl (by decide +kernel)).1 (.qcfg 0 0) (by decide) (fun _ => by decide +kernel)).1 (by decide) (by decide +kernel)),
   runs_of (((h.2.2.2 (st a5) u0 0 10 1 rfl (rd (by decide +kernel)) rfl (by decide +kernel)).1 (.swr 0 10 6) (by decide) (fun _ => by decide +kernel)).2.1 (by decide) (by decide +kernel)),
   runs_eq (((h.2.2.2 (st a5) u0 0 9 2 rfl (rd (by decide +kernel)) rfl (by decide +kernel)).1 (.qcfg 0 9) (by decide) (fun _ => by decide +kernel)).2.2 (by decide)),
   runs_of ((h.2.2.2 (st a5) u0 0 7 (-1) rfl (rd (by decide +kernel)) rfl (by decide +kernel)).2 (.qdest 0 7) (by decide)),
   runs_of ((h.2.2.2 (st a5) u0 0 7 (-1) rfl (rd (by decide +kernel)) rfl (by decide +kernel)).2 (.swr 0 7 7) (by decide))⟩
theorem test_swr_reserved : ((after (exec (.swr 0 5 1) (st a5))).ctx 3 2).state = .stopped ∧ ((after (exec (.swr 0 5 1) (st a5))).ctx 3 2).rnd = 0 := by decide +kernel

theorem wit_IllegalAndPrivileged : Obligations.IllegalAndPrivileged →
    runs (.illegalInstruction 0xF) s3 ∧ (runs (.srd 0 9 20) s3 ∧ runs (.swr 0 9 31) s3) ∧ runs (.swr 0 9 12) s3 ∧ runs (.swr 0 9 19) (cr []) ∧
    (runs (.srd 0 9 13) s3 ∧ runs (.swr 0 9 16) s3 ∧ runs (.tret 0 9) s3 ∧ runs (.spawnDie 0 9 5) s3) ∧ runs (.spawnDie 0 9 5) (st a5) := fun h =>
  let q := (h s3 u0 rfl).2.2.2.2.1 (by decide) 0 9 9 5
  ⟨runs_eq ((h s3 u0 rfl).1 0xF), ⟨runs_eq ((h s3 u0 rfl).2.1 0 9 20 (by decide)).1, runs_eq ((h s3 u0 rfl).2.1 0 9 31 (by decide)).2⟩,
   runs_eq ((h s3 u0 rfl).2.2.1 0 9 12 (by decide)), runs_eq ((h (cr []) uc rfl).2.2.2.1 0 9 19 rfl (by decide)),
   ⟨runs_eq (q.1 13 (by decide) (by decide)), runs_eq (q.2.1 16 (by decide)), runs_eq (q.2.2.1 (.tret 0 9) (by decide)),
    runs_eq ((((h s3 u0 rfl).2.2.2.2.1 (by decide) 0 9 5 0).2.2.2) (by decide +kernel))⟩,
   runs_eq ((h (st a5) u0 rfl).2.2.2.2.2 0 9 5 (by decide +kernel))⟩

theorem wit_IterationInstructions : Obligations.IterationInstructions → runs (.iterset 0 7) (st a5) ∧ runs (.iterinc 0 9) (st { a5 with iter := 0xFFFFFFFF }) := fun h =>
  ⟨runs_of ((h.1 (st a5) u0 0 rfl).1 7 (-1) (rd (by decide +kernel))), runs_of ((h.1 (st { a5 with iter := 0xFFFFFFFF }) u0 0 rfl).2 9 (wr (by decide +kernel)))⟩
theorem test_iterinc_wraps : regs (.iterinc 0 9) (st { a5 with iter := 0xFFFFFFFF }) [9] = [0] ∧ ((after (exec (.iterset 0 7) (st a5))).ctx 3 2).iter = 0xFFFFFFFF := by decide +kernel

/-- x5 = an entry, x6 = context 63 as a staging context, x7 = context 9; a segment image at scratchpad offset 0. -/
def c6 : State := cr [(5, 0x4000), (6, 64 + 63), (7, 9), (8, 9 * 8 + 7), (9, sp 0), (11, 0x77), (12, 5)] [(9, { state := .halted, gen := 3 })] {}
  { b0 with mem := { cells := bytesAt pad [0, 1, 0, 0, 0, 0, 0, 0x17, 0, 0, 1, 0, 0, 0, 0, 0] } }
theorem wit_ContextsStart : Obligations.ContextsStart →
    (runs (.spawn 0 10 5 7) c6 ∧ runs (.spawn 0 10 5 6) c6) ∧ runs (.spawnDie 0 10 9) c6 ∧ runs (.segld 0 8 9) c6 := fun h =>
  ⟨⟨by refine runs_of ((h.1 c6 uc 0 10 5 7 9 0x4000 9 rfl rfl ⟨rd ?_, rd ?_, trivial⟩ (wr ?_) ?_ rfl ?_ ?_
      ?_ ?_ ?_).1 ?_) <;> decide +kernel,
    by refine runs_of ((h.1 c6 uc 0 10 5 6 63 0x4000 127 rfl rfl ⟨rd ?_, rd ?_, trivial⟩ (wr ?_) ?_ rfl ?_ ?_
      ?_ ?_ ?_).2 ?_) <;> decide +kernel⟩,
   runs_of₂ ((h.2 c6 uc 0 10 9 0 (BitVec.ofNat 64 (sp 0)) 0 rfl rfl).1 (by decide +kernel) (rd (by decide +kernel)) (wr (by decide +kernel)) (by decide +kernel) (by decide +kernel)),
   runs_of ((h.2 c6 uc 0 0 8 9 79 (BitVec.ofNat 64 (sp 0)) rfl rfl).2 _ _ ⟨rd (by decide +kernel), rd (by decide +kernel), trivial⟩ (by decide) (by decide +kernel) (by decide)
     (blk_ok (by decide +kernel)) (by decide +kernel))⟩
/-- R381: generation 1 and number 63; x11 goes over, x5 does not. -/
theorem test_spawn : let s := after (exec (.spawn 0 10 5 6) c6)
    ((s.ctx 3 0).reg 10).val = 256 + 63 ∧ (s.ctx 3 63).pc = 0x4000 ∧ ((s.ctx 3 63).reg 11).val = 0x77 ∧ ((s.ctx 3 63).reg 5).val = 0 ∧ (s.ctx 3 63).role = 1 := by decide +kernel

/-- A flit for generation 3 of context 9, which is free or halted, of generation gen. -/
def fm0 : FlitMsg := { id := 1, launch := 1, srcGroup := 0, dstGroup := 0, dstCtx := 9, f := { srcTile := 3, srcCtx := 0, gen := 3, val := 7 } }
def f0 (free : Bool) (gen : Nat) : State := { cr [] [(9, { state := if free then .free else .halted, gen := gen })] with flits := [fm0], nextId := 2 }
theorem wit_ReapFrees : Obligations.ReapFrees →
    (runs (.reap 0 9 0) c6 ∧ runs (.reap 0 10 7) c6 ∧ runs (.reap 0 10 12) c6) ∧ runs (.reap 0 9 7) s3 ∧ (runs (.flitArrive 1) (f0 true 3) ∧ runs (.flitArrive 1) (f0 false 4)) := fun h =>
  ⟨⟨runs_eq ((h.1 c6 uc 0 9 0 0 rfl rfl rd0 (wr (by decide +kernel))).1 (.inl rfl)),
    runs_of (((h.1 c6 uc 0 10 7 9 rfl rfl (rd (by decide +kernel)) (wr (by decide +kernel))).2 (by decide) (by decide) (by decide +kernel)).1 (by decide +kernel)),
    runs_of (((h.1 c6 uc 0 10 12 5 rfl rfl (rd (by decide +kernel)) (wr (by decide +kernel))).2 (by decide) (by decide) (by decide +kernel)).2 (by decide +kernel))⟩,
   runs_eq (h.2.1 s3 u0 0 9 7 rfl (by decide)),
   runs_of (h.2.2.1 (f0 true 3) fm0 3 rfl (by decide +kernel) rfl (.inl (by decide +kernel))), runs_of (h.2.2.1 (f0 false 4) fm0 3 rfl (by decide +kernel) rfl (.inr (by decide +kernel)))⟩

/-- Context 2 issues while context 9 is cached and ready. -/
def s7 : State := { st a5 {} with tiles := [(3, { ctxs := [(2, a5), (9, { state := .cached })] })] }
theorem wit_YieldHaltCkpt : Obligations.YieldHaltCkpt →
    (runs (.yield 0) c5 ∧ runs (.yield 0) (st a5)) ∧ runs (.yield 0) s7 ∧ runs (.halt 0) (st a5) ∧ (runs (.ckpt 0 5) (st a5) ∧ runs (.ckpt 0 6) (st a5)) := fun h =>
  ⟨⟨runs_of ((h c5 uc 0 rfl).1 (.inl rfl)), runs_of ((h (st a5) u0 0 rfl).1 (.inr (.inr (.inr (by decide +kernel)))))⟩,
   runs_of ((h s7 u0 0 rfl).2.1 (by decide) (by decide) (by decide +kernel) (by decide +kernel)),
   runs_of ((h (st a5) u0 0 rfl).2.2.1 (by decide +kernel)),
   runs_of (((h (st a5) u0 0 rfl).2.2.2 5 32 (rd (by decide +kernel))).1 (by decide)), runs_eq (((h (st a5) u0 0 rfl).2.2.2 6 0x1D (rd (by decide +kernel))).2 (by decide))⟩
theorem wit_UserTraps : Obligations.UserTraps → runs (.trap 7 7) (st a5) ∧ (s3.pendOf 3 2 { cause := 27, addr := -1 }).taddr = -1 := fun h =>
  ⟨runs_eq (h.1 (st a5) u0 7 7 (-1) rfl (rd (by decide +kernel))), (h.2.1 s3 3 2 { cause := 27, addr := -1 }).1 rfl⟩

/-- A terminal trap of context 2 and a replayable one of the crown. -/
def i0 : TrapInfo := { cause := causeUser, pc := 0x1000, addr := 7, insn := 0x123 }
def i1 : TrapInfo := { cause := causeSegLimit, pc := 0x1000, addr := 7, insn := 0x123 }
/-- A pending trap of context 9, replayable or not, and the crown in its handler for it, its group migrating or not. -/
def q0 (rep : Bool) : PendTrap := { tfpc := 0x2000, taddr := 7, tcause := if rep then 0x1000903 else 0x90B, addr := 7 }
def h0 (rep mig : Bool) : State :=
  { cr [(6, 1)] [(9, { state := .stopped, park := 10, latch := some { insn := 5, pc := 0x2000, aux := 3 } })]
      { inH := true, inHTrap := some (q0 rep), tepc := 0x1234, tfpc := 0x2000, taddr := 7, tcause := (q0 rep).tcause } with
    launches := [(1, { l0 with groups := [(0, { tile := 3, place := if mig then .migrating else .running })] })] }
/-- R258: a trap pended in one cycle with one of context 9 stands before it where its context is lower. -/
theorem wit_TrapTaken : Obligations.TrapsAndTheirQueue →
    pendAdd ([] ++ [{ q0 false with tcause := 0x90B }]) { q0 false with tcause := 0x20B } = [{ q0 false with tcause := 0x20B }, { q0 false with tcause := 0x90B }] ∧
    (∃ x, Says.stoppedBy ((cr [] [(2, a4)]).ctx 3 2) x 100 i0) ∧ (∃ x, Says.stoppedBy ((cr []).ctx 3 0) x 100 i1) := fun h =>
  ⟨h.1.1 { q0 false with tcause := 0x20B } [] [{ q0 false with tcause := 0x90B }] nofun (by decide),
   ((h.1.2 (cr [] [(2, a4)]) 3 2 i0 l0 rfl rfl).1 ⟨by decide, by decide, by decide, by decide +kernel⟩).imp fun _ q => q.2,
   ⟨_, ((h.1.2 (cr []) 3 0 i1 l0 rfl rfl).2 (fun q => q.2.1 rfl) (by decide) (by decide) rfl).1⟩⟩
/-- The crown waits, its CWAIT in the latch. -/
def pt0 : State := { cr [] [] { pend := [q0 true, q0 false] } with
  tiles := [(3, { (cr [] [] { pend := [q0 true, q0 false] }).tile 3 with ctxs := [(0, { cx [] with slot := some 0, seg := seg0, park := 4, latch := some { pc := 0x1000, insn := 9 } })] })] }
theorem wit_CrownEntersHandler : Obligations.CrownEntersHandler → runs (.crownTakeTrap 3) (cr [] [] { pend := [q0 true] }) ∧ runs (.crownTakeTrap 3) pt0 := fun h =>
  ⟨runs_of (h _ 3 (q0 true) [] l0 rfl rfl rfl (by decide +kernel) rfl rfl), runs_of (h _ 3 (q0 true) [q0 false] l0 rfl rfl rfl (by decide +kernel) rfl rfl)⟩
/-- In the handler, x7 = 2. -/
def h7 : State := { h0 true false with tiles := [(3, { (h0 true false).tile 3 with ctxs := [(0, { cx [(7, 2)] with slot := some 0 })] })] }
theorem wit_HandlerReturns : Obligations.HandlerReturns →
    (runs (.tret 0 0) c6 ∧ runs (.tret 0 7) h7) ∧ runs (.tret 0 0) (h0 true false) ∧ (runs (.tret 0 0) (h0 false false) ∧ runs (.tret 0 6) (h0 true false)) ∧
    runs (.tret 0 0) (h0 false true) ∧ runs (.tret 0 6) (h0 true true) := fun h =>
  ⟨⟨runs_eq ((h c6 uc 0 0 0 rfl rfl rd0).1 (.inl rfl)),
    runs_eq ((h h7 uc 0 7 2 rfl rfl (rd (by decide +kernel))).1
      (.inr (by decide)))⟩,
   runs_of (((h (h0 true false) uc 0 0 0 rfl rfl rd0).2 rfl (by decide) _ 9 rfl (by decide) (by decide)).1 rfl (by decide)),
   ⟨runs_of ((((h (h0 false false) uc 0 0 0 rfl rfl rd0).2 rfl (by decide) _ 9 rfl (by decide) (by decide)).2 (.inl (by decide)) _ _ rfl rfl).1 (by decide +kernel)),
    runs_of ((((h (h0 true false) uc 0 6 1 rfl rfl (rd (by decide +kernel))).2 rfl (by decide) _ 9 rfl (by decide) (by decide)).2 (.inr rfl) _ _ rfl rfl).1 (by decide +kernel))⟩,
   runs_of₄ ((((h (h0 false true) uc 0 0 0 rfl rfl rd0).2 rfl (by decide) _ 9 rfl (by decide) (by decide)).2 (.inl (by decide)) _ _ rfl rfl).2 (by decide +kernel) _ rfl),
   runs_of₄ ((((h (h0 true true) uc 0 6 1 rfl rfl (rd (by decide +kernel))).2 rfl (by decide) _ 9 rfl (by decide) (by decide)).2 (.inr rfl) _ _ rfl rfl).2 (by decide +kernel) _ rfl)⟩
/-- R258: the crown goes on at the handler, and TRET brings it back and replays context 9. -/
theorem test_trap : let s := after (exec (.crownTakeTrap 3) (cr [] [] { pend := [q0 true] }))
    (s.ctx 3 0).pc = 0x8000 ∧ (s.tile 3).tepc = 0x1000 ∧ (s.tile 3).tfpc = 0x2000 ∧
    ((after (exec (.tret 0 0) (h0 true false))).ctx 3 0).pc = 0x1234 ∧ ((after (exec (.tret 0 0) (h0 true false))).ctx 3 9).state = .cached := by decide +kernel

/-! ## Engines, routes and collectives: the instructions -/

/-- A block that was read, and a result that is there. -/
theorem blk_is {b : Block} {v : Nat} (h : (match b with | .bytes _ w q => decide (w = v) && !q | .stop _ => false) = true) : b = .bytes (blkSt b) v false := by
  cases b with
  | bytes s w q => simp at h; simp [blkSt, h.1, h.2]
  | stop _ => simp at h
/-- Context 2 of the launch's tile issues. -/
def ct (x : Ctx) (t : Tile := {}) (b : State := b0) : State :=
  { b with cyc := 100, cur := some u0, launches := [(1, l0)], tiles := [(3, { t with grp := some ⟨1, 0⟩, tlb := [page0], ctxs := [(2, { x with seg := seg0 })] })] }
/-- A command vector at vector 0 of bank 0, with its shape block at vector 1 and its barrier object at vector 2; a shape that copies 4 FP32 elements
from memory to offset 0x20000 of the scratchpad. -/
def cmd0 : List Nat := le 0x200 8 ++ le 0x400 8 ++ le (sp 0x100) 8 ++ le 9 8 ++ le 0 32
def shape0 : List Nat := le 0x80 8 ++ le (sp 0x20000) 8 ++ [0, 0, 1, 0] ++ le 0 12 ++ le 4 4 ++ le 0 20 ++ le 0 8
def x8 (w : Nat) : Ctx := cx [(5, w), (6, 0)]
def m8 (bar : Nat) : State := { b0 with mem := { cells := bytesAt pad (cmd0 ++ shape0 ++ le bar 16) } }
def copy0 (id : Nat) : CopyCmd := { id, die := 0, eng := 0, q := 0, part := 0, launch := 1, group := 0, tile := 3, ctx := 2, cword := 0, cval := 0, rnd := 0, iter := 0, segs := seg0 }
theorem names0 : Says.names 0 1 ∧ Says.names 512 1 ∧ Says.names 1024 1 := by refine ⟨⟨?_, ?_, ?_, ?_⟩, ⟨?_, ?_, ?_, ?_⟩, ⟨?_, ?_, ?_, ?_⟩⟩ <;> decide
/-- Thirty-two commands in the queue. -/
def full8 (b : State) : State := { b with queues := [(0, (List.range 32).map fun i => copy0 (1000 + i))] }
theorem noBar {s : State} {u : Cur} (h : s.barWait = []) : Says.noBarWait s u := by intro w hw; simp [h] at hw
theorem wit_CopyCommandsLeave : Obligations.CopyCommandsLeave →
    (runs (.copy 0 5 6) (ct (x8 0x1C0) {} (m8 0)) ∧ runs (.copy 0 5 6) (ct (x8 0) {} (full8 (m8 0))) ∧ runs (.copy 0 5 6) (ct (x8 0x200) {} (m8 0))) ∧
    (runs (.copy 0 5 6) (ct (x8 0x200) {} (m8 (0xFFFFFFFF * 2 ^ 36))) ∧ runs (.copy 0 5 6) (ct (x8 0x200) {} { m8 0 with mem := { (m8 0).mem with poison := [pad / 64 + 2] } })) ∧
    (runs (.qfence 0 5 6) (ct (x8 0x3FC00) {} (m8 0)) ∧ runs (.qfence 0 5 6) (ct (x8 0x3FC00) {} (full8 (m8 0)))) := fun h =>
  let f := fun (w : Nat) (b : State) (hw hs hh hb hd hp) => h (ct (x8 w) {} b) u0 0 5 6 0 (bytesNum cmd0) (BitVec.ofNat 64 w) 0 rfl ⟨rd hs, rd hh, trivial⟩ hw hd hb ⟨names0.1, hp⟩
  let sb : ∀ w b, (ct (x8 w) {} b).ptrBlock 3 512 1 = (bytesNum shape0, false) → Says.holds (ct (x8 w) {} b) 3 512 1 (bytesNum shape0) := fun _ _ q => ⟨names0.2.1, q⟩
  ⟨⟨(((f 0x1C0 (m8 0) (by decide) (by decide +kernel) (by decide +kernel) (by decide +kernel) (by decide +kernel) (by decide +kernel)).1 (bytesNum shape0) (bytesNum shape0) (by decide) (sb _ _ (by decide +kernel))
        (sb _ _ (by decide +kernel))).1 (by decide) (by decide +kernel)).elim fun _ q => runs_of q.1,
    runs_of (((f 0 (full8 (m8 0)) (by decide) (by decide +kernel) (by decide +kernel) (by decide +kernel) (by decide +kernel) (by decide +kernel)).1 (bytesNum shape0) (bytesNum shape0) (by decide) (sb _ _ (by decide +kernel))
        (sb _ _ (by decide +kernel))).2.1 (by decide) (by decide +kernel) (by intro _ q; cases q)),
    runs_of₂ (((((f 0x200 (m8 0) (by decide) (by decide +kernel) (by decide +kernel) (by decide +kernel) (by decide +kernel) (by decide +kernel)).1 (bytesNum shape0) (bytesNum shape0) (by decide) (sb _ _ (by decide +kernel))
        (sb _ _ (by decide +kernel))).2.2 (by decide) names0.2.2).2 (by decide +kernel) true (by decide +kernel)).1 (by decide +kernel) (by decide +kernel) (by decide +kernel) (by decide) (noWait rfl) (noBar rfl)
        (by decide +kernel) (by decide +kernel))⟩,
   ⟨runs_eq (((((f 0x200 (m8 (0xFFFFFFFF * 2 ^ 36)) (by decide) (by decide +kernel) (by decide +kernel) (by decide +kernel) (by decide +kernel) (by decide +kernel)).1 (bytesNum shape0) (bytesNum shape0) (by decide)
        (sb _ _ (by decide +kernel)) (sb _ _ (by decide +kernel))).2.2 (by decide) names0.2.2).2 (by decide +kernel) true (by decide +kernel)).2 (by decide +kernel)),
    runs_eq ((((h (ct (x8 0x200) {} { m8 0 with mem := { (m8 0).mem with poison := [pad / 64 + 2] } }) u0 0 5 6 0 (bytesNum cmd0) 0x200 0 rfl ⟨rd (by decide +kernel), rd (by decide +kernel), trivial⟩
        (by decide) rfl (by decide +kernel) ⟨names0.1, by decide +kernel⟩).1 (bytesNum shape0) (bytesNum shape0) (by decide) ⟨names0.2.1, by decide +kernel⟩
        ⟨names0.2.1, by decide +kernel⟩).2.2 (by decide) names0.2.2).1 (by decide +kernel))⟩,
   (((f 0x3FC00 (m8 0) (by decide) (by decide +kernel) (by decide +kernel) (ev (by decide +kernel)) (by decide +kernel) (by decide +kernel)).2 (by decide)).1 (by decide +kernel)).elim fun _ q => runs_of q.1,
   runs_of (((f 0x3FC00 (full8 (m8 0)) (by decide) (by decide +kernel) (by decide +kernel) (ev (by decide +kernel)) (by decide +kernel) (by decide +kernel)).2 (by decide)).2 (by decide +kernel))⟩

/-- n bytes from a on, in one walk over the list. -/
def walk : List Host.Cell → Nat → Nat → Option Nat
  | _, _, 0 => some 0
  | [], _, _ + 1 => none
  | (b, v) :: cs, a, n + 1 => if b = a then (walk cs (a + 1) n).map fun r => v.toNat + 256 * r else if b < a then walk cs a (n + 1) else none
theorem walk_ok {s : State} (cs : List Host.Cell) : ∀ a n r, (∀ k, a ≤ k → Tbl.find? s.mem.cells k = Tbl.find? cs k) →
    (∀ k, a ≤ k → k < a + n → s.cached (k / 64) = none ∧ s.memKey k = some k ∧ (isSpad k && decide (0x60000 ≤ k % 0x80000)) = false) → walk cs a n = some r → s.peekN a n = r := by
  induction cs with
  | nil => intro a n r _ _ h; cases n with
    | zero => simpa [walk, State.peekN] using h
    | succ n => simp [walk] at h
  | cons q cs ih =>
    obtain ⟨b, v⟩ := q
    intro a n r hf hn h
    cases n with
    | zero => simpa [walk, State.peekN] using h
    | succ n =>
      unfold walk at h
      split at h
      · rename_i e; subst e
        simp only [Option.map_eq_some_iff] at h
        obtain ⟨x, hx, rfl⟩ := h
        have hp : s.peek b = v := by
          have := hn b (by omega) (by omega)
          have e := hf b (by omega)
          simp only [State.peek, State.memByte, this.1, this.2.1, this.2.2, e]
          simp [Tbl.find?]
        have := ih (b + 1) n x (fun k hk => by rw [hf k (by omega)]; simp [Tbl.find?, show b ≠ k by omega, show ¬k < b by omega]) (fun k h1 h2 => hn k (by omega) (by omega)) hx
        simp only [State.peekN, hp, this]
      · split at h
        · exact ih a (n + 1) r (fun k hk => by rw [hf k hk]; simp [Tbl.find?, show b ≠ k by omega, show ¬k < b by omega]) hn h
        · simp at h
theorem line_of {s : State} {l r : Nat} (h : walk s.mem.cells (64 * l) 64 = some r) (hs : spadPa 0 0 ≤ 64 * l ∧ 64 * l < 0x1080000000 ∧ 64 * l % 0x80000 < 0x60000) :
    s.line l = BitVec.ofNat 512 r := by
  have : s.peekN (64 * l) 64 = r := by
    refine walk_ok _ _ _ _ (fun _ _ => rfl) (fun k h1 h2 => ⟨?_, ?_, ?_⟩) h
    · have : ¬0x1000000000000 ≤ 64 * (k / 64) := by omega
      simp [State.cached, isCxl, Config.cxlBase, this]
    · have : isSpad k = true := by
        have b : Config.spadBase = 0x1000000000 := rfl
        simp only [spadPa] at hs
        exact Bool.and_eq_true_iff.2 ⟨decide_eq_true (by omega), decide_eq_true (by omega)⟩
      simp [State.memKey, this]
    · have : ¬0x60000 ≤ k % 0x80000 := by omega
      simp [this]
  simp [State.line, this]
/-- The block a pointer names, read so. -/
theorem block_of {s : State} {t p n v : Nat}
    (h : (∀ i < n, spadPa 0 0 ≤ 64 * spadLine t (pBank p) (pVidx p + i) ∧ 64 * spadLine t (pBank p) (pVidx p + i) < 0x1080000000 ∧
      64 * spadLine t (pBank p) (pVidx p + i) % 0x80000 < 0x60000 ∧ (walk s.mem.cells (64 * spadLine t (pBank p) (pVidx p + i)) 64).isSome = true ∧
      s.poisoned (spadLine t (pBank p) (pVidx p + i)) = false) ∧
      ((List.range n).map fun i => BitVec.ofNat 512 ((walk s.mem.cells (64 * spadLine t (pBank p) (pVidx p + i)) 64).getD 0)).foldr (fun (x : Vec) acc => x.toNat + 2 ^ 512 * acc) 0 = v) :
    s.ptrBlock t p n = (v, false) := by
  have e : s.vecs t (pBank p) (pVidx p) n =
      (List.range n).map fun i => (BitVec.ofNat 512 ((walk s.mem.cells (64 * spadLine t (pBank p) (pVidx p + i)) 64).getD 0), false) := by
    simp only [State.vecs]
    refine List.map_congr_left fun i hi => ?_
    have q := h.1 i (by simpa using hi)
    obtain ⟨r, hr⟩ := Option.isSome_iff_exists.1 q.2.2.2.1
    simp [State.vec, line_of hr ⟨q.1, q.2.1, q.2.2.1⟩, q.2.2.2.2, hr]
  rw [State.ptrBlock, e, ← h.2, List.foldr_map, List.foldr_map]
  congr 1
  simp

/-- Route values in which slot 0 of row 0 names target 5, the map entry of that target, and a target registration and its row. -/
def rv0 : List Nat := [5, 255, 255, 255] ++ le 0 12 ++ le 0x3F800000 16 ++ (List.replicate 15 ([255, 255, 255, 255] ++ le 0 28)).flatten
def ent0 : Nat := 2 ^ 63 + 0xFFFF0000
def img0 : Nat := 5 + 2 ^ 8 + 2 ^ 16 * 2 + 2 ^ 32 + 2 ^ 48 * 0x800
def hdr0 : Nat := 0xFFFF + 2 ^ 16 + 2 ^ 48 * 3 + 2 ^ 56 * 9 + 2 ^ 80
def tgt0 : RtTgt := { valid := true, tgt := 5, cap := 2, wmax := 1, ring := 0x800, tail := 1 }
def desc0 : List Nat := le 0x40 8 ++ le 0x80 8 ++ le 0 24 ++ le 0x100 8 ++ le 0 16
/-- p1 to bank 1, p2 to bank 2; x5 a deadline with width 1, x6 the registration's image, x7 target 5. -/
def x9 : Ctx := { cx [(5, 2 ^ 32 + 4096), (6, sp 0x100), (7, 5), (8, sp 0x120)] with ptr := ((Fixed.fill 8 0).set 1 1).set 2 2, rtmap := BitVec.ofNat 64 (sp 0x1000) }
def cells9 : List Host.Cell := bytesAt (pad + 0x1028) (le ent0 8) ++ bytesAt (pad + 0x20000) rv0
def m9 : State := { b0 with mem := { cells := cells9 } }
def m9s : State := { b0 with mem := { cells := bytesAt (pad + 0x100) (le img0 32 ++ le 5 32) ++ bytesAt (pad + 0x40000) desc0 } }
def t9 (e : Reasm) (g : RtTgt := {}) : Tile := { reasm := (Fixed.fill 16 {}).set 15 e, rttgt := (Fixed.fill 8 {}).set 0 g }
def e9 : Reasm := { state := 1, gen := 9, wvec := 1, desc := [0x40, 0x80, 0, 0, 0, 0x100, 0, 0] }
/-- The ring's first row in bank 1 in place of the route values. -/
def m10 : State := { b0 with mem := { cells := bytesAt (pad + 0x100) (le img0 32 ++ le 5 32) ++ bytesAt (pad + 0x20000) (le hdr0 16) } }
def rt9 (s : State) (u : Cur) : Except Iss (State × List (Nat × Nat × Nat)) := s.readMap u.tile u.ctx (s.ctx u.tile u.ctx).rtmap.toNat (Says.usedSlots (bytesNum rv0))
def s9 : State := ct x9 (t9 e9) m9
theorem rt9_ok : rt9 s9 u0 = .ok ((got ({}, []) (rt9 s9 u0)).1, (got ({}, []) (rt9 s9 u0)).2) := by
  apply ok_eq₂; decide +kernel
theorem rt9_plan : ∀ p ∈ (got ({}, []) (rt9 s9 u0)).2, mapBad l0 p.2.2 = none ∧ (s9.entry u0.tile 15).word (1 + p.1 % 4) ≠ 0 := by decide +kernel
theorem rt9_launch : (got ({}, []) (rt9 s9 u0)).1.launchOf u0.tile = some l0 := by decide +kernel
theorem runs_route (h : Obligations.RouteInstructions) : runs (.route 0 15 0 1) s9 :=
  by refine runs_of ((h.1 s9 u0 0 15 0 1 rfl ?_ ?_ ?_).2 _ (bytesNum rv0) _ l0 ?_ ?_ ?_ ?_
    ⟨?_, ?_, ?_, ?_⟩ ⟨⟨?_, ?_, ?_, ?_⟩, block_of ?_⟩ ?_
    rt9_ok rt9_launch (noBar ?_) rt9_plan) <;> decide +kernel
def s10 : State := ct x9 (t9 {} tgt0) m10
theorem runs_rtret (h : Obligations.RouteInstructions) (drop : Bool) : runs (if drop then .rtretDrop 0 7 else .rtret 0 7 0) s10 :=
  by
  refine runs_of₂ ((h.2 s10 u0 0 7 5 rfl ?_).2.2 0 l0 drop 0 hdr0 (rd ?_) ?_ ?_ ?_ ?_ ?_ ?_ ?_ fun _ => ⟨?_, ?_, ?_, ?_⟩) <;> decide +kernel
theorem wit_RouteInstructions : Obligations.RouteInstructions →
    (runs (.rtopen 0 15 5 2) (ct x9 {} m9s) ∧ runs (.route 0 15 0 1) s9) ∧ runs (.rtstat 0 0 15) (ct x9 {} m9s) ∧
    (runs (.rttgt 0 6) (ct x9 {} m9s) ∧ runs (.rttgt 0 8) (ct x9 (t9 {} { tgt0 with tail := 0 }) m9s)) ∧ (runs (.rtret 0 7 0) s10 ∧ runs (.rtretDrop 0 7) s10) := fun h =>
  ⟨⟨((h.1 (ct x9 {} m9s) u0 0 15 5 2 rfl (by decide) (by decide) (by decide +kernel)).1 (BitVec.ofNat 64 (2 ^ 32 + 4096)) (bytesNum desc0) (rd (by decide +kernel))
        ⟨⟨by decide, by decide, by decide, by decide⟩, by decide +kernel⟩ (.inl (by decide +kernel)) (by decide) (by decide) (by decide) (by decide +kernel) (by decide +kernel)).elim
        fun _ q => runs_of q.1, runs_route h⟩,
   runs_of ((h.2 (ct x9 {} m9s) u0 0 0 0 rfl (by decide)).1 0 15 (by decide) wr0),
   ⟨runs_of (((h.2 (ct x9 {} m9s) u0 0 6 (BitVec.ofNat 64 (sp 0x100)) rfl (by decide)).2.1 _ img0 (rd (by decide +kernel)) (by decide) (blk_is (by decide +kernel))).1 0 (by decide +kernel)
        (by unfold Says.goodTarget; decide +kernel) (by decide +kernel) (by decide) (by decide +kernel) (by decide +kernel)),
    runs_of (((h.2 (ct x9 (t9 {} { tgt0 with tail := 0 }) m9s) u0 0 8 (BitVec.ofNat 64 (sp 0x120)) rfl (by decide)).2.1 _ 5 (rd (by decide +kernel)) (by decide) (blk_is (by decide +kernel))).2 0 l0 (by decide)
      (by decide +kernel) (by decide +kernel) (by decide +kernel))⟩,
   runs_rtret h false, runs_rtret h true⟩

/-- A collective block at scratchpad offset 0x2000: CID 7, sum of FP32, 2 chunks of 64 bytes, lc0 = 1, STATE 1; the cuff, on whose tile it is current. -/
def blk0 : List Nat := le 7 4 ++ [0, 0, 2, 0] ++ le 64 4 ++ le 0 4 ++ le (sp 0x4000) 8 ++ le 0 8 ++ le (sp 0x5000) 8 ++ le 1 16 ++ [255, 1] ++ le 0 70
def cu (v : List (Nat × Nat)) : State :=
  { b0 with
    cyc := 100, cur := some ⟨3, 15, 0x123⟩, launches := [(1, l0)], mem := { cells := bytesAt (pad + 0x2000) blk0 }, collCur := [⟨1, 0, 128, 7⟩]
    tiles := [(3, { grp := some ⟨1, 0⟩, tlb := [page0], ctxs := [(15, { cx v with slot := some 15, seg := seg0 })] })] }
/-- x5 the block; x6 chunks 0 to 1 and x7 the peer behind it by lc0; x8 both peers; x9 the last chunk alone. -/
def cu0 : State := cu [(5, sp 0x2000), (6, 64), (7, 8), (8, 262152), (9, 65)]
def uk : Cur := ⟨3, 15, 0x123⟩
theorem peer0 : Says.peer 8 4 1 (fun j => Says.block cu0 3 128 (0x28 + 4 * j) 4) 2 ∧ Says.peer 4 4 1 (fun j => Says.block cu0 3 128 (0x28 + 4 * j) 4) 2 := by
  constructor
  · exact ⟨by decide, by decide, by decide, by decide, .inl ⟨by decide, by decide⟩⟩
  · exact ⟨by decide, by decide, by decide, by decide, .inl ⟨by decide, by decide +kernel⟩⟩
theorem wit_CollectiveInstructions : Obligations.CollectiveInstructions →
    runs (.cset 0 5) cu0 ∧ (runs (.csend 0 6 7) cu0 ∧ runs (.crecv 0 9 0) cu0 ∧ runs (.crrs 0 6 8) cu0 ∧ runs (.ccopy 0 9 8) cu0) ∧ runs (.cwait 0) cu0 ∧
    (runs (.cloop 0 0 (-3)) cu0 ∧ runs (.cloop 0 3 (-256)) cu0) := fun h =>
  ⟨by refine runs_of ((h cu0 uk 0 rfl rfl ?_ (noBar ?_)).1 _ 5 0x2000 (BitVec.ofNat 64 (sp 0x2000)) ⟨1, 0⟩ ?_ (rd ?_) ?_ rfl ?_ ?_ ?_ ?_ ?_ rfl ?_ ?_ ?_ rfl ?_ (noWait ?_) (noBar ?_)) <;>
      decide +kernel,
   ⟨(h cu0 uk 0 rfl rfl (by decide) (noBar rfl)).2.1 _ 1 6 7 64 8 ⟨1, 0⟩ l0 ⟨1, 0, 128, 7⟩ (.inl ⟨rfl, rfl⟩) ⟨rd (by decide +kernel), rd (by decide +kernel), trivial⟩ rfl rfl (by decide) rfl (by decide)
      (by decide +kernel) (noWait rfl) (by decide +kernel) (by decide +kernel) (by decide +kernel) (by decide) (by decide) (by decide) (by decide +kernel) (by decide)
      ⟨fun _ => ⟨⟨2, peer0.1⟩, by decide, by decide⟩, fun q => absurd q (by decide), fun q => absurd q (by decide)⟩ |> runs_of₂,
    (h cu0 uk 0 rfl rfl (by decide) (noBar rfl)).2.1 _ 2 9 0 65 0 ⟨1, 0⟩ l0 ⟨1, 0, 128, 7⟩ (.inr (.inl ⟨rfl, rfl⟩)) ⟨rd (by decide +kernel), rd0, trivial⟩ rfl rfl (by decide) rfl (by decide)
      (by decide +kernel) (noWait rfl) (by decide +kernel) (by decide +kernel) (by decide +kernel) (by decide) (by decide) (by decide) (by decide +kernel) (by decide)
      ⟨fun q => absurd q (by decide), fun _ => ⟨rfl, by decide⟩, fun q => absurd q (by decide)⟩ |> runs_of₂,
    (h cu0 uk 0 rfl rfl (by decide) (noBar rfl)).2.1 _ 3 6 8 64 262152 ⟨1, 0⟩ l0 ⟨1, 0, 128, 7⟩ (.inr (.inr (.inl ⟨rfl, rfl⟩))) ⟨rd (by decide +kernel), rd (by decide +kernel), trivial⟩ rfl rfl
      (by decide) rfl (by decide) (by decide +kernel) (noWait rfl) (by decide +kernel) (by decide +kernel) (by decide +kernel) (by decide) (by decide) (by decide) (by decide +kernel) (by decide)
      ⟨fun q => absurd q (by decide), fun q => absurd q (by decide), fun _ => ⟨⟨2, peer0.1⟩, ⟨2, peer0.2⟩, by decide⟩⟩ |> runs_of₂,
    (h cu0 uk 0 rfl rfl (by decide) (noBar rfl)).2.1 _ 4 9 8 65 262152 ⟨1, 0⟩ l0 ⟨1, 0, 128, 7⟩ (.inr (.inr (.inr ⟨rfl, rfl⟩))) ⟨rd (by decide +kernel), rd (by decide +kernel), trivial⟩ rfl rfl
      (by decide) rfl (by decide) (by decide +kernel) (noWait rfl) (by decide +kernel) (by decide +kernel) (by decide +kernel) (by decide) (by decide) (by decide) (by decide +kernel) (by decide)
      ⟨fun q => absurd q (by decide), fun q => absurd q (by decide), fun _ => ⟨⟨2, peer0.1⟩, ⟨2, peer0.2⟩, by decide⟩⟩ |> runs_of₂⟩,
   runs_of ((h cu0 uk 0 rfl rfl (by decide) (noBar rfl)).2.2.1 (by decide +kernel)),
   runs_of ((h cu0 uk 0 rfl rfl (by decide) (noBar rfl)).2.2.2 0 (-3) ⟨1, 0⟩ ⟨1, 0, 128, 7⟩ (by decide) rfl rfl (by decide) (by decide +kernel) (noWait rfl) (by decide +kernel) (by decide +kernel)),
   runs_of ((h cu0 uk 0 rfl rfl (by decide) (noBar rfl)).2.2.2 3 (-256) ⟨1, 0⟩ ⟨1, 0, 128, 7⟩ (by decide) rfl rfl (by decide) (by decide +kernel) (noWait rfl) (by decide +kernel) (by decide +kernel))⟩
/-- R376: lc0 falls to 0 and the loop ends; lc3 was 0 and wraps, so it goes back. -/
theorem test_cloop : ((after (exec (.cloop 0 0 (-3)) cu0)).ctx 3 15).pc = 0x1004 ∧ ((after (exec (.cloop 0 3 (-3)) cu0)).ctx 3 15).pc = 0xFF4 := by decide +kernel

def fl0 : Flit := { srcTile := 7, val := 40 }
/-- x31 has a flit of 40; x30 sends to context 63 of the tile's own group. -/
def x10 : Ctx := { cx [(5, 2), (30, 0)] with qmap := 1, rxq := [fl0, {}], qdest := 63 }
theorem rdq {x : Ctx} {n r : Nat} {v : Word} (h : r ≠ 0 ∧ r ≠ 30 ∧ r ≠ 31 ∧ (x.reg r).st = .full ∧ (x.reg r).poison = false ∧ x.schk = false ∧ v = (x.reg r).seen n) :
    Says.readable x n r v := .inr ⟨h.1, fun _ => ⟨h.2.1, h.2.2.1⟩, h.2.2.2.1, h.2.2.2.2.1, fun m => by simp [h.2.2.2.2.2.1] at m, h.2.2.2.2.2.2⟩
theorem wit_QueueRegistersUsed : Obligations.QueueRegistersUsed → (runs (.add 5 31 31) (ct x10) ∧ runs (.sub 0 5 31) (ct x10)) ∧ runs (.addi 30 5 1) (ct x10) := fun h =>
  ⟨⟨runs_of ((h _ (ct x10) u0 [31, 31] 5 _ _ [40, 40] rfl rfl (by decide +kernel)).1 fl0 [{}] rfl rfl (by decide) ⟨.inl ⟨rfl, rfl⟩, .inl ⟨rfl, rfl⟩, trivial⟩
      (.inr ⟨fun _ => by decide, by decide +kernel⟩)),
    runs_of ((h _ (ct x10) u0 [5, 31] 0 _ _ [2, 40] rfl rfl (by decide +kernel)).1 fl0 [{}] rfl rfl (by decide) ⟨.inr ⟨by decide, rdq (by decide +kernel)⟩, .inl ⟨rfl, rfl⟩, trivial⟩ wr0)⟩,
   runs_of ((h _ (ct x10) u0 [5] 30 _ _ [2] rfl rfl (by decide +kernel)).2 ⟨1, 0⟩ 0 rfl ⟨rdq (by decide +kernel), trivial⟩ rfl (by decide +kernel) rfl
     (by unfold Says.goodDest; decide +kernel) rfl)⟩
theorem test_x31_once : regs (.add 5 31 31) (ct x10) [5] = [80] ∧ ((after (exec (.add 5 31 31) (ct x10))).ctx 3 2).rxq = [{}] := by decide +kernel

/-! ## Units, streams and slots -/

theorem ln {s : State} {t c d : Nat} (h : 0 < d ∧ d < 32 ∧ (s.ctx t c).mapped = false) : Says.lands s t c d :=
  ⟨h.1, h.2.1, fun m => by simp [h.2.2] at m⟩
def t11 (r : VRun) : Tile :=
  { divq := [⟨2, 0, 1, 5, 0⟩], fdivq := [⟨2, 0, 31, 0x7FC00000, 16⟩, ⟨2, 0, 4, 0, 0⟩], vrun := some r, mrun := some { ctx := 2, acc := 7, flags := 1, till := 100 } }
def s11 : State := st (cx []) (t11 { ctx := 2, gen := 0, dst := some (9, 3), flags := 2, till := 100 })
def s11f : State := st (cx []) (t11 { ctx := 2, gen := 0, flags := 8, till := 99 })
theorem wit_UnitResultsLand : Obligations.UnitResultsLand →
    (runs (.divideResultLand 3) s11 ∧ runs (.fpDivideResultLand 3) s11) ∧ (runs (.vectorResultLand 3) s11 ∧ runs (.vectorResultLand 3) s11f) ∧ runs (.matrixStepLand 3) s11 := fun h =>
  ⟨⟨runs_of (((h s11 3).1 ⟨2, 0, 1, 5, 0⟩ [] (by decide +kernel) (ln (by decide +kernel))).1 rfl),
    runs_of (((h s11 3).1 ⟨2, 0, 31, 0x7FC00000, 16⟩ [⟨2, 0, 4, 0, 0⟩] (by decide +kernel) (ln (by decide +kernel))).2 rfl)⟩,
   ⟨runs_of (((h s11 3).2.1 _ rfl (by decide) (by decide +kernel)).1 9 3 rfl (ln (by decide +kernel))),
    runs_of (((h s11f 3).2.1 _ rfl (by decide) (by decide +kernel)).2 rfl)⟩,
   runs_of ((h s11 3).2.2 _ rfl (by decide) (by decide) rfl)⟩

/-- Streams: 0 an input of 16 vectors at scratchpad offset 0x100 with none ahead, 1 an output whose oldest vector is bound for memory line 3. -/
def in0 : Stream := { bound := true, base := sp 0x100, dims := [(16, 64), (1, 0), (1, 0), (1, 0)], unit := true }
def out0 : Stream := { bound := true, out := true, base := 0xC0, dims := [(4, 64), (1, 0), (1, 0), (1, 0)], unit := true, ahead := [{ data := 7, pa := 0xC0 }] }
theorem there {s : State} {pa : Nat} (h : s.offline pa = false ∧ s.offline (64 * (pa / 64)) = false ∧ (isSpad pa = true → pa % 0x80000 < 0x60000)) : Says.there s pa := h
def a11 : Ctx := { cx [] with seg := seg0, str := ((Fixed.fill 8 {}).set 0 in0).set 1 out0, busy := true, latch := some { insn := 0x011000AB#32, pc := 0x1000 } }
/-- The unit of stream 0 has run four vectors ahead. -/
def a14 : Ctx := { a11 with str := a11.str.set 0 { in0 with ahead := List.replicate 4 { data := 1 } } }
/-- A remote read that closes, and a matrix instruction whose operand lies in a bank (p1) or a stream (s0). -/
def rr0 : RemoteRead := { id := 5, tile := 3, bank := 0, first := 0, stride := 1, count := 2, users := [(3, 2)], openAt := 36 }
def t12 (x : Ctx) (i : W32) : State :=
  { st { x with latch := some { insn := i, pc := 0x1000 } } { tile0 with mbuf := some { ctx := 2, pc := 0x1000, insn := i } } b0 with rreads := [rr0] }
def isOk {ε α : Type} : Except ε α → Bool | .ok _ => true | .error _ => false
theorem operands0 : ∀ q ∈ Says.matSels 0x601020AB, isOk ((t12 a11 0x601020AB).operand 3 2 q ((t12 a11 0x601020AB).tile 3).bank.els 0) = true := by decide +kernel
theorem operands1 : ∀ q ∈ Says.matSels 0x020810AB, isOk ((t12 a14 0x020810AB).operand 3 2 q ((t12 a14 0x020810AB).tile 3).bank.els 0) = true := by decide +kernel
def o8 : Operand := { sel := 8, fmt := { code := 0 }, at_ := .stream 0 }
theorem wit_StreamUnits : Obligations.StreamsAndSlots →
    (runs (.streamPrefetch 3 2 0) (t12 a11 0) ∧ runs (.streamPrefetch 3 2 0) (t12 a14 0) ∧ runs (.streamOutputDrain 3 2 1) (t12 a11 0)) ∧ runs (.remoteReadClose 5) (t12 a11 0) ∧
    (runs (.matrixOperandFill 3) (t12 a11 0x601020AB) ∧ runs (.matrixOperandFill 3) (t12 a14 0x020810AB)) := fun h =>
  ⟨⟨runs_of ((h.1 (t12 a11 0) 3 2).1 0 _ _ _ (by decide) rfl rfl rfl (by decide) (by decide +kernel) rfl),
    runs_eq ((h.1 (t12 a14 0) 3 2).2.1 0 _ _ _ (by decide) rfl rfl rfl (by decide) (by decide +kernel) rfl),
    runs_of ((h.1 (t12 a11 0) 3 2).2.2.1 1 { data := 7, pa := 0xC0 } [] (by decide) rfl rfl rfl rfl rfl rfl (by decide +kernel) (noWait rfl) (there (by decide +kernel)) (by decide +kernel) (by decide +kernel)
      (fun q => absurd q (by decide)))⟩,
   runs_of ((h.1 (t12 a11 0) 3 2).2.2.2.1 rr0 (by decide +kernel) rfl (by decide) (by decide +kernel)),
   ⟨runs_of (((h.1 (t12 a11 0x601020AB) 3 2).2.2.2.2 { ctx := 2, pc := 0x1000, insn := 0x601020AB } rfl rfl rfl (by decide +kernel)
        (fun q hq => ok_ex (operands0 q hq)) (by decide +kernel)).1 (by decide +kernel)),
    runs_of (((h.1 (t12 a14 0x020810AB) 3 2).2.2.2.2 { ctx := 2, pc := 0x1000, insn := 0x020810AB } rfl rfl rfl (by decide +kernel)
        (fun q hq => ok_ex (operands1 q hq)) (by decide +kernel)).2 8 o8 _ _ (by decide +kernel) (by decide) rfl
      (ok_eq₂ ({}, []) (by decide +kernel)))⟩⟩

/-- The launch with a save area. -/
def lsave : Launch := { l0 with r := { l0.r with save := 0x10000, saveLen := 0x90000 } }
/-- Partition 0 with the page tables of ASID 0: page 0 is on frame 0 with every right; a dirty register's record goes to PVA 0x10000 of it. -/
def pg (cells : List Host.Cell := []) : State :=
  { b0 with cyc := 5000, pf := b0.pf ++ [(0x100000, 0x4001)], launches := [(1, lsave)]
            mem := { cells := [(0x4000, 0x01), (0x4001, 0x80), (0x8000, 0x01), (0x8001, 0xC0), (0xC000, 0x0F)] ++ cells } }
/-- Its tile 3 with these contexts. -/
def sl (l : Table Ctx) (v : Tile := {}) (b : State := pg) : State := { b with tiles := [(3, { v with grp := some ⟨1, 0⟩, tlb := [page0], ctxs := l })] }
def ca (b : Ctx := {}) : Ctx := { b with state := .cached, seg := seg0 }
/-- Contexts in slots 1 to 14, the one in slot 14 swap-eligible. -/
def full : Table Ctx := (List.range 14).map fun i => (i + 16, { cx [] { seg := seg0, swapNow := decide (i = 13), park := 7 } with slot := some (i + 1) })
theorem wit_Slots : Obligations.StreamsAndSlots →
    runs (.swapThresholdReached 3 2) (sl [(2, cx [] { park := 7, parkedAt := 904 })]) ∧
    (runs (.contextSwap 3) (sl [(2, ca)] { swap := some ⟨4, 2, 5000⟩ }) ∧ runs (.contextSwap 3) (sl [(2, ca)]) ∧ runs (.contextSwap 3) (sl ((2, ca) :: full))) ∧
    runs (.contextRecordWriteback 3 2) (sl [(2, ca (cx [] { x := (Fixed.fill 32 {}).set 5 { val := 7, dirty := true } }))]) ∧
    (runs (.instructionCacheFill 3 2) (sl [(2, { cx [] with pc := 0x2000000000000000, seg := seg0 })]) ∧
     runs (.instructionCacheFill 3 2) (sl [(2, { cx [] with seg := seg0 })] {} { pg with mem := { (pg []).mem with poison := [0x40] } }) ∧
     runs (.instructionCacheFill 3 2) (sl [(2, { cx [] with seg := seg0 })] {} (pg [(0x10000, 7)]))) := fun h =>
  ⟨runs_of ((h.2 (sl [(2, cx [] { park := 7, parkedAt := 904 })]) 3 2).1 rfl (by decide) (by decide) (by decide) (by decide +kernel)),
   ⟨runs_of ((h.2 (sl [(2, ca)] { swap := some ⟨4, 2, 5000⟩ }) 3 2).2.1 _ rfl (by decide) rfl rfl),
    runs_of ((h.2 (sl [(2, ca)]) 3 2).2.2.1 1 rfl (by decide +kernel) rfl rfl (by decide) (by decide) (by decide +kernel) (fun k h1 h2 => by omega)),
    runs_of ((h.2 (sl ((2, ca) :: full)) 3 2).2.2.2.1 29 14 rfl (by decide +kernel) rfl
      (fun k h1 h2 => (by decide +kernel : ∀ k < 15, 1 ≤ k → ((sl ((2, ca) :: full)).tile 3).slotTaken k = true) k (by omega) h1) (by decide +kernel) (by decide) (by decide +kernel))⟩,
   runs_of ((h.2 (sl [(2, ca (cx [] { x := (Fixed.fill 32 {}).set 5 { val := 7, dirty := true } }))]) 3 2).2.2.2.2.2.1 ⟨1, 0⟩ _ _ _ _ rfl rfl rfl (by decide +kernel) rfl (by decide +kernel) (seg_ok (by decide +kernel))),
   ⟨runs_eq (((h.2 (sl [(2, { cx [] with pc := 0x2000000000000000, seg := seg0 })]) 3 2).2.2.2.2.2.2 (by decide +kernel) rfl rfl).1 _ rfl),
    runs_eq ((((h.2 (sl [(2, { cx [] with seg := seg0 })] {} { pg with mem := { (pg []).mem with poison := [0x40] } }) 3 2).2.2.2.2.2.2 (by decide +kernel) rfl rfl).2 0x1000 page0 _ rfl).2.1
      rfl (by decide +kernel)),
    runs_of ((((h.2 (sl [(2, { cx [] with seg := seg0 })] {} (pg [(0x10000, 7)])) 3 2).2.2.2.2.2.2 (by decide +kernel) rfl rfl).2 0x1000 page0 _ rfl).2.2 rfl (by decide +kernel))⟩⟩

/-! ## Copies and messages -/

/-- A copy of 16 FP32 elements from PVA 0x10000 to 0x20000 by context 2 of tile 3, on queue 5 of engine 1 of die 0. -/
def c12 : CopyCmd :=
  { id := 9, die := 0, eng := 1, q := 5, launch := 1, tile := 3, ctx := 2, segs := seg0, widths := [32, 32]
    shape := { src := 0x10000, dst := 0x20000, ndim := 1, dims := [(16, 0, 0)] } }
def k12 : Nat := queueKey 0 1 5
def l12 : Latch := { insn := 0x04B5007B, pc := 0x1000 }
def x12 : Ctx := { cx [] with seg := seg0, busy := true, latch := some l12 }
/-- These commands are on their way, and these queued; the barrier object at vector 2 of bank 0 of tile 3 stands at zero, and at each 64-byte step of memory lies a 5. -/
def s12 (m q : List CopyCmd) : State :=
  { sl [(2, x12)] {} (pg ([(0x10000, 5)] ++ bytesAt (pad + 128) (le 0 16))) with copyMsgs := m, queues := [(k12, q)] }
def f12 : CopyCmd := { c12 with fence := true, after := [2], shape := {} }
/-- Its group is displaced. -/
def gone (s : State) : State := { s with launches := [(1, { lsave with groups := [(0, { tile := 3, place := .displaced })] })] }
/-- Its context has asked for releases that are not complete. -/
def fenced (s : State) : State := { s with tiles := [(3, { s.tile 3 with ctxs := [(2, { x12 with fences := [⟨3, .query, false, 0, false⟩] })] })] }
theorem wit_CopiesEnter : Obligations.CopiesServed →
    runs (.copyMergeClose 9) (s12 [{ c12 with openTill := 5000 }] []) ∧
    (runs (.copyCommandEnqueue 9) (fenced (s12 [c12] [])) ∧ runs (.copyCommandEnqueue 9) (gone (s12 [c12] []))) ∧
    runs (.copyCommandEnqueue 9) (s12 [c12] []) ∧ runs (.copyCommandEnqueue 9) (s12 [f12] [c12]) := fun h =>
  ⟨runs_of ((h (s12 [{ c12 with openTill := 5000 }] []) 0 1 5 { c12 with openTill := 5000 }).1 rfl (by decide) (by decide)),
   ⟨runs_eq (((h (fenced (s12 [c12] [])) 0 1 5 c12).2.1 rfl rfl rfl rfl).1 rfl ⟨⟨3, .query, false, 0, false⟩, by decide +kernel, .inl rfl, by decide⟩),
    runs_eq (((h (gone (s12 [c12] [])) 0 1 5 c12).2.1 rfl rfl rfl rfl).2.1 rfl rfl)⟩,
   (((h (s12 [c12] []) 0 1 5 c12).2.1 rfl rfl rfl rfl).2.2 (by decide +kernel)).elim fun _ q => runs_eq q.1,
   (((h (s12 [f12] [c12]) 0 1 5 f12).2.1 rfl rfl rfl rfl).2.2 (by decide +kernel)).elim fun _ q => runs_eq q.1⟩
/-- A copy that fills register 7 of context 2 of the group of role 0. -/
def fl12 : CopyCmd := { c12 with shape := { c12.shape with cfill := true }, status := 3, cword := 0x47 }
theorem wit_CopiesEnd : Obligations.CopiesServed →
    runs (.copyGranule 0 1 5) (s12 [] [c12]) ∧
    (runs (.copyComplete 0 1 5) (s12 [] [{ c12 with done := 64 }]) ∧ runs (.copyComplete 0 1 5) (s12 [] [{ c12 with status := 3, cword := 0x30 }]) ∧
     runs (.copyComplete 0 1 5) (s12 [] [fl12])) ∧
    (runs (.qfenceRelease 0 1 5) (s12 [] [f12]) ∧ runs (.qfenceRelease 0 1 5) (s12 [] [{ f12 with cword := 0x30 }, c12])) := fun h =>
  ⟨by
    have r : ∀ va pa w, ((s12 [] [c12]).copyAddr c12 va 1 w = .ok pa (some page0)) → (s12 [] [c12]).copyAddr c12 va 64 w = .ok pa (some page0) → pa % 64 = 0 →
        Says.reaches (s12 [] [c12]) c12 va 64 pa w (some page0) := fun _ _ _ a b c => ⟨a, b, c⟩
    refine runs_of ((h (s12 [] [c12]) 0 1 5 c12).2.2.1 0x10000 0x20000 16 0 (some page0) (some page0) ?_ rfl rfl ?_ rfl rfl rfl rfl (by decide) rfl rfl ?_ ?_ ?_ ?_ ?_ ?_ ?_ ?_ rfl
      ⟨?_, fun x e => ?_⟩ (r _ _ _ ?_ ?_ ?_) (r _ _ _ ?_ ?_ ?_) ⟨?_, ?_, rfl⟩ ?_ (noWait rfl) (by unfold Says.noPartials; decide +kernel) ?_ (there ?_))
    case refine_12 => cases e; exact ⟨rfl, rfl⟩
    all_goals decide +kernel,
   ⟨runs_of (((h (s12 [] [{ c12 with done := 64 }]) 0 1 5 _).2.2.2.1 0 rfl (by decide +kernel) rfl rfl rfl rfl (by decide +kernel)).1 rfl),
    runs_of₂ (((h (s12 [] [{ c12 with status := 3, cword := 0x30 }]) 0 1 5 _).2.2.2.1 3 rfl (by decide +kernel) rfl rfl rfl rfl (by decide +kernel)).2 (by decide) (by decide)),
    runs_of₂ ((h (s12 [] [fl12]) 0 1 5 fl12).2.2.2.2.1 3 0 rfl (by decide +kernel) rfl rfl rfl (by decide +kernel) (by decide +kernel))⟩,
   ⟨runs_of (((h (s12 [] [f12]) 0 1 5 f12).2.2.2.2.2 [] rfl rfl rfl (by decide +kernel) rfl rfl (by decide +kernel)).1 rfl),
    runs_of₂ (((h (s12 [] [{ f12 with cword := 0x30 }, c12]) 0 1 5 { f12 with cword := 0x30 }).2.2.2.2.2 [c12] rfl rfl rfl (by decide +kernel) rfl rfl (by decide +kernel)).2
      (by decide) (by decide))⟩⟩

/-- Completion words on their way: 0x30 of PVA page 0, and with a status; one through segments to an address with no right to write. -/
def w13 (st : Option Nat) (a : Word := 0x10038) : CWord := { id := 4, part := 0, launch := 1, addr := a, val := 77, status := st }
def s13 (w : List CWord) (f : List FlitMsg) (x : Ctx) : State := { sl [(2, x)] with cwords := w, flits := f }
def m13 (f : Flit := { srcTile := 9, srcCtx := 5, val := 40 }) : FlitMsg := { id := 6, launch := 1, dstGroup := 0, dstCtx := 2, f }
def x13 : Ctx := { cx [] with x := (Fixed.fill 32 {}).set 8 { st := .open } }
/-- A fill of a copy, which ends in queue k12. -/
def mf14 : FlitMsg := { m13 { fill := true, freg := 8, val := 3 } with copy := some (k12, 9, 0) }
def sf14 : State := { s13 [] [mf14] x13 with queues := [(k12, [c12])] }
theorem wit_MessagesDelivered : Obligations.MessagesDelivered →
    (runs (.completionWordWrite 4) (s13 [w13 none] [] {}) ∧ runs (.completionWordWrite 4) (s13 [w13 (some 8)] [] {}) ∧
     runs (.completionWordWrite 4) (s13 [w13 none 0x10000000000000] [] {})) ∧
    (runs (.flitArrive 6) (s13 [] [m13] x13) ∧ runs (.flitArrive 6) (s13 [] [m13] { x13 with rxq := List.replicate 8 {} }) ∧
     runs (.registerFill 6) (s13 [] [m13 { fill := true, freg := 8, val := 3 }] x13)) ∧
    runs (.registerFill 6) sf14 ∧
    (runs (.sendRetry 9 5) (s13 [] [{ m13 with since := some 4744 }] x13) ∧
     runs (.sendRetry 3 2) (s13 [] [] { x13 with park := 11, parkedAt := 4744, latch := some l12 })) ∧
    runs (.orphanNotice 6) (s13 [] [{ m13 with notice := true }] x13) := fun h =>
  ⟨⟨runs_of (((((h (s13 [w13 none] [] {}) 3).1 (w13 none) 0x10038 (some page0) rfl rfl (fun _ => rfl) (fun _ q => nomatch q)).1 (by decide +kernel)).1 rfl).2 rfl rfl rfl rfl (by decide +kernel)
      (noWait rfl) (by unfold Says.noPartials; decide +kernel) (there (by decide +kernel)) (by decide) ⟨(by decide +kernel), fun x e => by cases e; exact ⟨rfl, rfl⟩⟩),
    runs_eq ((((h (s13 [w13 (some 8)] [] {}) 3).1 (w13 (some 8)) 0x10038 (some page0) rfl rfl (fun _ => rfl) (fun _ q => nomatch q)).1 (by decide +kernel)).2 8 0x10040 (some page0) rfl
      (by decide +kernel) (by decide +kernel)),
    runs_eq (((h (s13 [w13 none 0x10000000000000] [] {}) 3).1 (w13 none 0x10000000000000) 0 none rfl rfl (fun _ => rfl) (fun _ q => nomatch q)).2 causeSegLimit rfl (by decide +kernel))⟩,
   ⟨runs_of (((h (s13 [] [m13] x13) 3).2.1 m13 rfl rfl (by decide +kernel) (by decide +kernel) (by decide +kernel) (by decide +kernel) (by decide +kernel)).1 rfl (by decide)),
    runs_of (((h (s13 [] [m13] { x13 with rxq := List.replicate 8 {} }) 3).2.1 m13 rfl rfl (by decide +kernel) (by decide +kernel) (by decide +kernel) (by decide +kernel) (by decide +kernel)).2.1 rfl (by decide +kernel)),
    runs_of (((h (s13 [] [m13 { fill := true, freg := 8, val := 3 }] x13) 3).2.1 (m13 { fill := true, freg := 8, val := 3 }) rfl rfl (by decide +kernel) (by decide +kernel) (by decide +kernel) (by decide +kernel) (by decide +kernel)).2.2 rfl (by decide +kernel)
      (ln (by decide +kernel)))⟩,
   runs_of ((h sf14 3).2.2.1 mf14 k12 9 0 rfl rfl rfl (by decide +kernel) (by decide +kernel) (by decide +kernel) (by decide +kernel) (by decide +kernel) (by decide +kernel) (ln (by decide +kernel)) (by decide +kernel)),
   ⟨runs_of ((h (s13 [] [{ m13 with since := some 4744 }] x13) 3).2.2.2.1 _ 4744 (List.mem_singleton.2 rfl) rfl (by decide)),
    runs_of ((h (s13 [] [] { x13 with park := 11, parkedAt := 4744, latch := some l12 }) 3).2.2.2.2.1 2 l12 rfl rfl (by decide +kernel) (by decide))⟩,
   runs_of ((h (s13 [] [{ m13 with notice := true }] x13) 3).2.2.2.2.2 { m13 with notice := true } rfl rfl (by decide +kernel) (by decide +kernel))⟩

/-! ## Routes and collective steps -/

/-- A row of one vector for target 5 of its own group, from row 1, slot 2 of entry 3 of generation 9. -/
def m14 : RouteMsg := { id := 6, kind := 0, part := 0, skey := 1, dkey := 1, launch := 1, entry := 3, gen := 9, rs := 0x21, tgt := 5, data := [(7, false)] }
def x14 : Ctx := { cx [] with seg := seg0, busy := true, latch := some l12 }
def e14 : Reasm := { state := 3, gen := 9, expect := 2 ^ 6 + 1, wvec := 1, desc := [0, 0, 0, 0x10400, 0, 0, 0, 0], due := some 5000 }
def s14 (m : RouteMsg) (x : Ctx) (g : RtTgt) (e : Reasm := {}) (u : Option RouteUnit := none) : State :=
  { sl [(0, cx [] { seg := seg0 }), (2, x)] { rttgt := (Fixed.fill 8 {}).set 0 g, reasm := (Fixed.fill 16 {}).set 3 e, route := u } with rmsgs := [m], nextId := 20 }
def u14 (held : Bool) : RouteUnit := { ctx := 2, gen := 0, entry := 3, pc := 0x1000, waiting := some 6, held }
def g14 : RtTgt := { tgt0 with tail := 0 }
theorem accepts : Says.accepting { e14 with due := none } { m14 with kind := 2 } 6 := by refine ⟨?_, ?_, ?_, ?_, ?_, ?_, ?_, ?_⟩ <;> decide
theorem isSome_eq {α : Type} {o : Option α} (h : o.isSome = true) : o = some (o.get h) := by simp
/-- Its row is for a group that the launch does not have. -/
def mu14 : RouteMsg := { m14 with dgroup := 7 }
theorem sendable14 {s : State} {m : RouteMsg} (h : s.originTile m = some 3) : Says.sendable s m := fun _ => by simp [h]
theorem wit_RowsArrive : Obligations.RoutesCarry →
    (runs (.routeRowArrive 6) (s14 m14 {} g14) ∧ runs (.routeRowArrive 6) (s14 m14 {} { tgt0 with tail := 2 }) ∧ runs (.routeRowArrive 6) (s14 m14 {} {}) ∧
     runs (.routeRowArrive 6) (s14 mu14 {} g14)) ∧
    (runs (.routeRowArrive 6) (s14 m14 x14 { tgt0 with tail := 2, wait := true } {} (some (u14 false))) ∧
     runs (.routeHandoutResume 3) (s14 m14 { x14 with park := 12 } g14 {} (some (u14 true)))) := fun h =>
  ⟨⟨by refine runs_of ((h (s14 m14 {} g14) m14 rfl rfl (by decide)).1 3 0 rfl (sendable14 ?_) ?_ ?_ ?_ (noWait rfl) ?_ ?_ ?_ ?_ ?_ ?_) <;> decide +kernel,
    runs_of₂ ((h (s14 m14 {} { tgt0 with tail := 2 }) m14 rfl rfl (by decide)).2.1 3 (some 0) lsave rfl (sendable14 (by decide +kernel)) (by decide +kernel) (by decide +kernel) rfl),
    runs_of₂ ((h (s14 m14 {} {}) m14 rfl rfl (by decide)).2.1 3 none lsave rfl (sendable14 (by decide +kernel)) (by decide +kernel) (by decide +kernel) rfl),
    runs_of₂ ((h (s14 mu14 {} g14) mu14 rfl rfl (by decide)).2.2.1 lsave rfl (sendable14 (by decide +kernel)) (by decide +kernel) rfl)⟩,
   ⟨runs_of (((h (s14 m14 x14 { tgt0 with tail := 2, wait := true } {} (some (u14 false))) m14 rfl rfl (by decide)).2.2.2.1 3 (u14 false) l12 (by decide +kernel) rfl rfl rfl rfl).1 rfl
      (by decide +kernel) rfl),
    runs_of (((h (s14 m14 { x14 with park := 12 } g14 {} (some (u14 true))) m14 rfl rfl (by decide)).2.2.2.1 3 (u14 true) l12 (by decide +kernel) rfl rfl rfl rfl).2
      (by decide +kernel) rfl rfl)⟩⟩
theorem wit_RowsReturn : Obligations.RoutesCarry →
    (runs (.routeDropNotice 6) (s14 { m14 with kind := 2 } {} {} { e14 with due := none }) ∧ runs (.routeReturnArrive 6) (s14 { m14 with kind := 1 } {} {} { e14 with due := none })) ∧
    (runs (.reassemblyDeadline 3 3) (s14 m14 {} {} { e14 with state := 1 }) ∧ runs (.reassemblyDeadline 3 3) (s14 m14 {} {} e14)) := fun h =>
  ⟨⟨runs_of (((h (s14 { m14 with kind := 2 } {} {} { e14 with due := none }) { m14 with kind := 2 } rfl rfl (by decide)).2.2.2.2.1 lsave 3 6
      ⟨(by decide +kernel), (by decide +kernel), (by decide +kernel)⟩ (by decide) (by decide) accepts nofun (by decide +kernel) (by decide +kernel)).1 rfl),
    runs_of (((h (s14 { m14 with kind := 1 } {} {} { e14 with due := none }) { m14 with kind := 1 } rfl rfl (by decide)).2.2.2.2.1 lsave 3 6
      ⟨(by decide +kernel), (by decide +kernel), (by decide +kernel)⟩ (by decide) (by decide) accepts nofun (by decide +kernel) (by decide +kernel)).2 _ rfl (isSome_eq (by decide +kernel)))⟩,
   ⟨runs_of (((h (s14 m14 {} {} { e14 with state := 1 }) m14 rfl rfl (by decide)).2.2.2.2.2 3 3 5000 (by decide) rfl (by decide) rfl rfl).1 rfl),
    runs_of (((h (s14 m14 {} {} e14) m14 rfl rfl (by decide)).2.2.2.2.2 3 3 5000 (by decide) rfl (by decide) rfl rfl).2 (.inr rfl))⟩⟩

/-- A posted step of chunk 0 of block 128 of the group on tile 3. -/
def x15 (k : Nat) (todo acks : List Nat) : CollStep :=
  { id := 4, launch := 1, group := 0, blk := 128, kind := k, num := 2, cid := 7, lbuf := 0x10000, arr := 0x10400, todo, acks, segs := seg0, pc := 0x1000 }
def q15 : Contribution :=
  { part := 0, launch := 1, cid := 7, step := 2, chunk := 0, src := 3, expect := 1, op := 0, fmt := 0, data := List.replicate 64 9 }
def m15 : TxMsg := { id := 5, ep := 0, dst := 0, sent := true, carries := .chunk 4 0 }
def k15 : KeyEntry := { limit := 4096, rights := 2 }
def s15 (x : List CollStep) (a : List Contribution := []) (v : Tile := {}) (x15 : Ctx := {}) : State :=
  { sl [(15, x15)] v with
      parts := [(0, { enabled := true })], steps := x, arrived := a, tx := [m15], nextId := 20, pf := pg.pf.take 3 ++ [(0x40018, 0x100000000)] ++ pg.pf.drop 3
      boot := { ethLanes := [1] }, endpoints := [(0, { cache := [(0, k15)] })] }
theorem checked15 {s : State} {c : Contribution}
    (h : s.ethUp c.port = true ∧ s.epBound c.ep = true ∧ s.authenticAt c.ep c.sealed c.kid c.icv = true ∧ s.feature 16 = true ∧
      s.partLive ((s.epPart c.ep).getD 0) = true ∧ s.pdcs.length < 65536 ∧ ((Says.flowed s c).keyEntry c.ep c.key).2 = k15 ∧ k15.fails c.key 1 c.off c.data.length = false) :
    Says.checked s c ((Says.flowed s c).keyEntry c.ep c.key).1 k15 :=
  ⟨h.1, h.2.1, h.2.2.1, h.2.2.2.1, h.2.2.2.2.1, fun _ => h.2.2.2.2.2.1, by rw [← h.2.2.2.2.2.2.1], h.2.2.2.2.2.2.2⟩
theorem goes₁ {s : State} {dst : BitVec 128} (h : s.peerMask = 0 ∧ ((List.range 8).filter fun k => s.ethUp k) = [0]) (ev : Nat) : s.egress s.cabling dst ev ≠ none := by
  have e : s.cabling.1 = 0 := h.1
  have n : (List.range 8).find? (fun k => bit s.cabling.1 k && nth s.cabling.2 k 0 = dst) = none := by simp [e, bit, List.find?_eq_none]
  unfold State.egress
  simp only [n]
  simp [e, bit, h.2, Nat.mod_one]

def w15 : SegGot := (s15 [x15 2 [0] []] [q15]).segWrite 0 3 (some seg0) 0 false 300 0x10000 64 (bytesNum (q15.data.map (·.toNat)))
def r15 : SegGot := (segSt w15).segRead 0 3 (some seg0) 3 0x10400 8
def v15 : SegGot := (segSt r15).segWrite 0 3 (some seg0) 0 false 3 0x10400 8 (segV r15 + 1)
theorem wit_StepsRun : Obligations.CollectivesRun →
    (runs (.collectiveStepStart 4) (s15 [x15 1 [0] []]) ∧ runs (.collectiveStepStart 4) (s15 [x15 2 [0] []] [q15])) := fun h =>
  ⟨runs_of₃ (((h (s15 [x15 1 [0] []])).1 (x15 1 [0] []) lsave 3 0 rfl rfl rfl (by decide +kernel) rfl rfl rfl rfl (by decide +kernel)).1 _ _ _ rfl (seg_ok (by decide +kernel))),
   runs_of (((h (s15 [x15 2 [0] []] [q15])).1 (x15 2 [0] []) lsave 3 0 rfl rfl rfl (by decide +kernel) rfl rfl rfl rfl (by decide +kernel)).2
      q15 (segSt w15) (segSt r15) (segSt v15) (segV w15) (segP w15) (segV v15) (segP v15) (segV r15) rfl rfl rfl rfl (by decide +kernel) rfl rfl rfl (by decide)
      (seg_ok (g := w15) (by decide +kernel)) (seg_ok₀ (g := r15) (by decide +kernel)) (seg_ok (g := v15) (by decide +kernel)))⟩
/-- The arrived set holds as many ranks as it can. -/
def crowd : List Contribution := List.replicate 64 { q15 with cid := 99, combined := true, ranks := 2 ^ 1024 - 1 }
theorem crowded : (ranksIn crowd).length = 65536 := by
  have e : (srcsOf { q15 with cid := 99, combined := true, ranks := 2 ^ 1024 - 1 }).length = 1024 := by decide +kernel
  simp [ranksIn, crowd, e]
/-- Its bytes are placed. -/
def p15 (s : State) : State := ((Says.flowed s q15).keyEntry 0 0).1
def isPlaced : EthAddr → Bool | .ok _ => true | _ => false
theorem placed_ok {g : EthAddr} (h : isPlaced g = true) : ∃ ps, g = .ok ps := by cases g <;> first | exact ⟨_, rfl⟩ | simp [isPlaced] at h
theorem wit_ContributionsArrive : Obligations.CollectivesRun →
    (runs (.collectiveContribution { q15 with cid := 8 }) (s15 [x15 2 [0] []]) ∧ runs (.collectiveContribution q15) (gone (s15 [x15 2 [0] []])) ∧
     runs (.collectiveContribution q15) (s15 [x15 2 [0] []] [q15]) ∧ runs (.collectiveContribution q15) (s15 [x15 2 [0] []] crowd) ∧
     runs (.collectiveContribution q15) (s15 [x15 2 [0] []])) ∧
    (runs (.collectiveSendAck 4 0 true) (s15 [x15 1 [] [0]]) ∧ runs (.collectiveSendAck 4 0 true) (s15 [x15 1 [] [0, 1]]) ∧
     runs (.collectiveSendAck 4 0 false) (s15 [x15 1 [] [0]] [] {} { cx [] with slot := some 15 })) := fun h =>
  ⟨⟨runs_eq (((h (s15 [x15 2 [0] []])).2.1 { q15 with cid := 8 } _ k15 (checked15 (by decide +kernel))).1 (by decide +kernel)),
    runs_eq (((h (gone (s15 [x15 2 [0] []]))).2.1 q15 _ k15 (checked15 (by decide +kernel))).2.1 1 0 (by decide +kernel) (by decide +kernel)),
    runs_eq ((((h (s15 [x15 2 [0] []] [q15])).2.1 q15 _ k15 (checked15 (by decide +kernel))).2.2 1 0 (by decide +kernel) (by decide +kernel)).1 ⟨3, ev (by decide +kernel), (by decide +kernel)⟩),
    runs_eq (((((h (s15 [x15 2 [0] []] crowd)).2.1 q15 _ k15 (checked15 (by decide +kernel))).2.2 1 0 (by decide +kernel) (by decide +kernel)).2 (by decide +kernel) (by unfold Says.expects; decide +kernel)).1
      (by have e : (ranksIn (((Says.flowed (s15 [x15 2 [0] []] crowd) q15).keyEntry 0 0).1).arrived).length = 65536 := crowded
          exact e ▸ (by decide +kernel))),
    (placed_ok (g := (p15 (s15 [x15 2 [0] []])).ethAddr 0 ((p15 (s15 [x15 2 [0] []])).keyTarget 0 k15 0 64) 64 true) (by decide +kernel)).elim fun ps e =>
      runs_eq (((((h (s15 [x15 2 [0] []])).2.1 q15 _ k15 (checked15 (by decide +kernel))).2.2 1 0 (by decide +kernel) (by decide +kernel)).2 (by decide +kernel) (by unfold Says.expects; decide +kernel)).2 (by decide +kernel) ps e)⟩,
   ⟨runs_of (((h (s15 [x15 1 [] [0]])).2.2.2 (x15 1 [] [0]) m15 0 3 rfl (List.mem_singleton.2 rfl) rfl rfl (by decide)).1 rfl rfl),
    runs_of (((h (s15 [x15 1 [] [0, 1]])).2.2.2 (x15 1 [] [0, 1]) m15 0 3 rfl (List.mem_singleton.2 rfl) rfl rfl (by decide)).2.1 (.inr ⟨1, by decide, by decide⟩)),
    runs_of (((h (s15 [x15 1 [] [0]] [] {} { cx [] with slot := some 15 })).2.2.2 (x15 1 [] [0]) m15 0 3 rfl (List.mem_singleton.2 rfl) rfl rfl (by decide)).2.2 (by decide +kernel) (by decide)
      (by decide) (by decide +kernel) (noWait rfl) (by decide +kernel) (by decide +kernel))⟩⟩
theorem wit_ContributionAnswered : Obligations.CollectivesRun → ((s15 []).answerContribution q15 .nakRetry).wire ≠ [] := fun h => by
  obtain ⟨_, _, _, _, e⟩ := (h (s15 [])).2.2.1 q15 .nakRetry rfl (goes₁ (by decide +kernel))
  rw [e]
  exact fun q => nomatch (List.append_eq_nil_iff.1 q).2

/-! ## Boot, power, ports -/

/-- A part in this phase of boot. -/
def bo (p : Nat) (w : Bool := false) : State := { boot := { phase := p, writing := w } }
theorem wit_Boot : Obligations.BootAndAttestation →
    runs .pfReset (bo 3) ∧ runs .bootVerifyDone (bo 1) ∧ (runs (.firmwareBringupDone true) (bo 2) ∧ runs (.firmwareBringupDone false) (bo 2)) ∧
    (runs (.recoveryBufferWrite 0xFFFFFF [1, 2]) (bo 4) ∧ runs (.recoveryGo 3) (bo 4) ∧ runs .recoveryVerifyDone (bo 5)) ∧
    (runs (.slotWriteDone true) (bo 2 true) ∧ runs (.slotWriteDone false) (bo 2 true)) := fun h =>
  ⟨runs_of (h.1 (bo 3)).1, runs_eq ((h.1 (bo 1)).2.1 rfl), ⟨runs_eq ((h.1 (bo 2)).2.2.1 true rfl), runs_eq ((h.1 (bo 2)).2.2.1 false rfl)⟩,
   ⟨((h.1 (bo 4)).2.2.2.1 0xFFFFFF [1, 2] (by decide)).elim fun _ q => runs_eq q.1, runs_eq ((h.1 (bo 4)).2.2.2.2.1 3), runs_eq ((h.1 (bo 5)).2.2.2.2.2.1 rfl)⟩,
   ⟨runs_eq ((h.1 (bo 2 true)).2.2.2.2.2.2 true rfl), runs_eq ((h.1 (bo 2 true)).2.2.2.2.2.2 false rfl)⟩⟩
/-- A request that offers the algorithms of the part. -/
def offers : List Byte := [0, 0, 1, 0, 0, 8, 0, 0, 0x20, 0, 0, 0]
theorem wit_Attestation : Obligations.BootAndAttestation →
    (runs .spdmGetVersion (bo 3) ∧ runs .spdmGetCapabilities (bo 3) ∧ (runs (.spdmNegotiateAlgorithms 2 offers) (bo 3) ∧ runs (.spdmNegotiateAlgorithms 2 []) (bo 3)) ∧
     runs .spdmGetDigests (bo 3)) ∧
    (runs (.spdmGetCertificate 1 0 1024) (bo 3) ∧ runs (.spdmChallenge 0 ⟨0xFF, []⟩) (bo 3) ∧ runs (.spdmChallenge 0 ⟨2, []⟩) (bo 3)) ∧
    ((runs (.spdmGetMeasurements ⟨1, 0, []⟩) (bo 3) ∧ runs (.spdmGetMeasurements ⟨0, 4, []⟩) (bo 3) ∧ runs (.spdmGetMeasurements ⟨1, 0xFF, []⟩) (bo 3)) ∧
     runs (.spdmGetMeasurements ⟨0, 0xFE, []⟩) (bo 3)) ∧ runs (.spdmUnsupportedRequest 0x85) (bo 3) := fun h =>
  let q := h.2 (bo 3) rfl
  let m := q.2.2.2.2.2.2.1
  ⟨⟨runs_eq q.1, runs_eq q.2.1, ⟨runs_eq ((q.2.2.1 2 offers).1 ⟨by decide, by decide⟩), runs_eq ((q.2.2.1 2 []).2 (by decide))⟩, runs_eq q.2.2.2.1⟩,
   ⟨runs_eq (q.2.2.2.2.1 1 0 1024), runs_eq ((q.2.2.2.2.2.1 0 0xFF []).1 rfl (by decide)), runs_eq ((q.2.2.2.2.2.1 0 2 []).2 (by decide))⟩,
   ⟨⟨runs_eq (((m 1 0 0 [] []).1 (.inl ⟨rfl, rfl, rfl⟩)).1 rfl (by decide)), runs_eq (((m 0 4 1 _ []).1 (.inr (.inl ⟨by decide, by decide, rfl, rfl⟩))).2 rfl),
     runs_eq (((m 1 0xFF 4 _ []).1 (.inr (.inr ⟨rfl, rfl, rfl⟩))).1 rfl (by decide))⟩, runs_eq ((m 0 0xFE 0 [] []).2 (by decide))⟩,
   runs_eq (q.2.2.2.2.2.2.2 0x85)⟩

/-- A power manager with this setting. -/
def pw (p : Power) : State := { power := p }
theorem unmapped (p : Power) (n : Nat) : (pw p).vaultMapped n = false := by
  have r : ∀ a, ((pw p).asidEntry a).root = 0 := fun a => by
    have : ¬(0xA000 ≤ 0x100000 + 128 * a ∧ 0x100000 + 128 * a < 0xA200) := by omega
    simp [State.asidEntry, State.pfr, pw, Tbl.getD, Tbl.find?, pfReset, this]; omega
  unfold State.vaultMapped
  rw [List.any_eq_false]
  intro a _
  simp [r, bit]
/-- Partition 0 is enabled, with vault parts; a page of it lies in that of cluster 0. -/
def pgOn : State := { pg with parts := [(0, { enabled := true })] }
theorem wit_PowerManaged : Obligations.PowerManaged →
    (runs (.powerWindow 104 1951) (pw { narrow := true }) ∧ runs (.powerWindow 105 0) (pw { target := 2 }) ∧ runs (.powerWindow 114 0) (pw {}) ∧ runs (.powerWindow 115 0) (pw {}) ∧ runs (.powerWindow 115 0) pgOn) ∧
    runs .thermalRecovery (pw { target := 2, coolWin := 10 }) ∧ runs .clockChangeComplete (pw { target := 1 }) ∧
    (runs (.clusterPowerGate (BitVec.ofNat 64 (2 ^ 63 + 2 ^ 62 + 511))) (pw {}) ∧ runs (.clusterPowerGate (BitVec.ofNat 64 (2 ^ 63 + 2 ^ 62 + 0))) pgOn ∧ runs (.clusterUngate (BitVec.ofNat 64 (2 ^ 63 + 3))) { gated := 8 }) ∧
    (runs .clusterGateComplete { gated := 8, gate := some (3, false) } ∧ runs .clusterGateComplete { gate := some (3, true) }) := fun h =>
  ⟨⟨runs_eq (((h (pw { narrow := true })).1 104 1951 rfl).1 (by decide)), runs_of (((h (pw { target := 2 })).1 105 0 rfl).2.1 (by decide) (by decide)),
    runs_eq (((h (pw {})).1 114 0 rfl).2.2.1 (by decide) (by decide) (by decide +kernel)), runs_eq (((h (pw {})).1 115 0 rfl).2.2.2.1 (by decide) (by decide +kernel)), runs_of (((h pgOn).1 115 0 rfl).2.2.2.2 (by decide))⟩,
   runs_eq ((h (pw { target := 2, coolWin := 10 })).2.1 rfl (by decide)), runs_eq (h (pw { target := 1 })).2.2.1,
   ⟨runs_eq (((h (pw {})).2.2.2.1 511 (by decide) rfl (by decide +kernel)).1 (by decide +kernel) (unmapped {} 511)),
    runs_eq (((h pgOn).2.2.2.1 0 (by decide) rfl (by decide +kernel)).2.1 (by decide +kernel) (by decide +kernel)),
    runs_eq (((h { gated := 8 }).2.2.2.1 3 (by decide) rfl (by decide +kernel)).2.2 (by decide +kernel))⟩,
   ⟨runs_eq ((h { gated := 8, gate := some (3, false) }).2.2.2.2.1 3 rfl (by decide +kernel)),
    runs_of ((h { gate := some (3, true) }).2.2.2.2.2 3 rfl (by decide +kernel) rfl)⟩⟩

/-- Range 0 at the start of CXL memory over port 0, with this MRT_CTL; a driver queue 3 of SSD 2; slice 5; CXL range 63 has nothing. -/
def mr (ctl : Word) (b : State := {}) : State := { b with pf := [(0x4000, 2 ^ 48), (0x4008, 2 ^ 30), (0x4010, 1), (0x4018, ctl)] }
def dq (d : DriverQ) : State := { driverQs := [(dqKey 2 3, d)], boot := { storBif := [1] } }
def nv : List Byte := 2 :: List.replicate 63 0
/-- An entry whose opcode is not of the command set. -/
def nx : List Byte := 5 :: List.replicate 63 0
theorem obeyed0 {d : DriverQ} (h : (d.subs.all fun e => decide (e.toNat % 256 ∈ [0, 1, 2, 9])) = true) : Says.obeyed d := by
  intro e he; simpa using List.all_eq_true.1 h e he
theorem wit_Ports : Obligations.PortsAndSlicesManaged →
    (runs (.mrtEnable 0) (mr 0) ∧ runs (.mrtEnable 63) (mr 0) ∧ runs (.mrtDisable 0) (mr 1) ∧ runs (.mrtDisableComplete 0) (mr 2) ∧ runs (.cxlLinkDown 7) (mr 1) ∧ runs (.cxlLinkDown 0) (mr 1)) ∧
    (runs (.driverQueueSubmit 2 3 true [1]) (dq { en := true }) ∧ runs (.driverQueueSubmit 2 3 true nv) (dq { en := true }) ∧ runs (.driverQueueSubmit 2 3 true nx) (dq { en := true }) ∧
     runs (.driverQueueCompletion 2 3 0 1 []) (dq { en := true, subs := [1] }) ∧ runs (.dqCtlWrite 2 3 5) (dq {}) ∧ runs (.dqClearDiscards 2 3) (dq {}) ∧ runs (.dqCqHeadWrite 2 3 1023) (dq {})) ∧
    (runs (.namespaceEntryWrite 9 1) (dq {}) ∧ runs (.namespaceEntryWrite 0 0) { pf := [(0x5000, 1)] }) := fun h =>
  let q := fun d => (h.1 (dq d)).2.2.2.2
  ⟨⟨runs_eq ((h.1 (mr 0)).1 0 (by decide) (by decide +kernel)), runs_eq ((h.1 (mr 0)).1 63 (by decide) (by decide +kernel)), runs_eq ((h.1 (mr 1)).2.1 0 (by decide) (by decide +kernel)),
    runs_of ((h.1 (mr 2)).2.2.1 0 (by decide) (by decide +kernel)), runs_of ((h.1 (mr 1)).2.2.2.1 7 (by decide) (by decide +kernel)),
    runs_of ((h.1 (mr 1)).2.2.2.1 0 (by decide) (by decide +kernel))⟩,
   ⟨runs_eq (((q { en := true }).1 2 3 true [1]).1 (.inr (.inr (.inl (by decide))))),
    runs_eq ((((q { en := true }).1 2 3 true nv).2 (by decide +kernel) rfl (by decide) (by decide +kernel)).1 (by decide +kernel)),
    runs_of ((((q { en := true }).1 2 3 true nx).2 (by decide +kernel) rfl (by decide) (by decide +kernel)).2 (by decide +kernel) (by decide +kernel) (obeyed0 (by decide +kernel)) ⟨(by decide +kernel), (by decide +kernel)⟩),
    runs_of ((q { en := true, subs := [1] }).2.1 2 3 0 1 [] 1 (by decide +kernel) (by decide +kernel) (by decide +kernel) (obeyed0 (by decide +kernel)) ⟨(by decide +kernel), (by decide +kernel)⟩ (by decide)),
    runs_eq ((q {}).2.2.1 2 3 5 (by decide +kernel) (obeyed0 (by decide +kernel)) (by decide)), runs_eq ((q {}).2.2.2.1 2 3),
    runs_eq ((q {}).2.2.2.2.1 2 3 1023 (by decide +kernel) (by decide +kernel) (obeyed0 (by decide +kernel)))⟩,
   ⟨runs_of (((q {}).2.2.2.2.2 9 1).1 (by decide +kernel)), runs_of (((h.1 { pf := [(0x5000, 1)] }).2.2.2.2.2.2.2.2.2 0 0).2 (by decide +kernel))⟩⟩

/-- A TSET register of partition 0, member 0; partition 0 holds slice 0 with its whole window. -/
def ts (v : Word) (b : State := {}) : State := { b with pf := b.pf ++ [(0x24000, v)] }
def bp : State := { b0 with pf := b0.pf ++ [(0xB800, 0x400)], parts := [(0, { enabled := true })] }
/-- Its partition has no slice but one that reaches the count, and a tile with a line in its L1 cache. -/
def kept : State := { bp with boot := { retireCe := 1 }, parts := [(0, { enabled := true, homes := [0] })] }
def lit : State := { tiles := [(3, { l1 := [(0, { data := 7 })] })] }
theorem wit_Slices : Obligations.PortsAndSlicesManaged →
    (runs (.tsetWrite 0 0 0x00FF0100) (ts 0) ∧ runs (.tsetWrite 0 0 0) (ts 0x00FF0100) ∧ runs (.tsetRangeSwitch 0 0) (ts 0x80FF0100 { tset := [(0, 0, 0)] })) ∧
    (runs (.correctableError 0) { boot := { retireCe := 2 } } ∧ runs (.correctableError 0) { boot := { retireCe := 1 } } ∧ runs (.correctableError 0) kept ∧ runs (.sliceStatClear 511) {}) ∧
    runs (.commutativeRangeWrite 0 15 1) b0 ∧ (runs (.stampSetRequest (BitVec.ofNat 64 (2 ^ 63 + 2 ^ 32 * 15 + 6))) bp ∧ runs .stampSetComplete { stset := true }) ∧
    ((runs (.uncorrectableError (.line 0)) bp ∧ runs (.uncorrectableError (.l1 3 0)) lit ∧ runs (.uncorrectableError (.flit 6)) {}) ∧
     runs (.nocHeaderError 0 ⟨false, .flit 6⟩) {} ∧ runs (.nocHeaderError 0 ⟨true, .hub 0⟩) bp) := fun h =>
  ⟨⟨runs_eq (((h.2 (ts 0)).1 0 0 0x00FF0100 (by decide +kernel)).1 (by decide +kernel)), runs_of (((h.2 (ts 0x00FF0100)).1 0 0 0 (by decide +kernel)).2 (by decide +kernel) (by decide +kernel)),
    runs_of ((h.2 (ts 0x80FF0100 { tset := [(0, 0, 0)] })).2.1 0 0 0 rfl)⟩,
   ⟨runs_eq ((h.2 { boot := { retireCe := 2 } }).2.2.1 0 (by decide +kernel)), runs_of ((h.2 { boot := { retireCe := 1 } }).2.2.2.1 0 (by decide +kernel) (by decide +kernel)),
    runs_of ((h.2 kept).2.2.2.2.1 0 0 (by decide +kernel) (by decide +kernel) (by decide +kernel) (by decide +kernel)), runs_eq ((h.2 {}).2.2.2.2.2.1 511 (by decide +kernel))⟩,
   runs_of ((h.2 b0).2.2.2.2.2.2.1 0 15 1 (by decide +kernel)),
   ⟨by refine runs_of ((h.2 bp).2.2.2.2.2.2.2.1 _ 0 16 16 rfl ?_ ?_ ?_ ?_ ?_ ?_ ?_) <;> decide +kernel,
    runs_eq ((h.2 { stset := true }).2.2.2.2.2.2.2.2.1 rfl)⟩,
   ⟨⟨runs_of ((h.2 bp).2.2.2.2.2.2.2.2.2.1 0 (by decide) (by decide +kernel)), runs_of ((h.2 lit).2.2.2.2.2.2.2.2.2.2.1 3 0 { data := 7 } (by decide +kernel)), runs_eq ((h.2 {}).2.2.2.2.2.2.2.2.2.2.2.1 6)⟩,
    runs_eq ((h.2 {}).2.2.2.2.2.2.2.2.2.2.2.2.1 0 6 false (by decide +kernel)), runs_of ((h.2 bp).2.2.2.2.2.2.2.2.2.2.2.2.2 0 0 (.hub 0) (by decide +kernel) (by decide))⟩⟩

/-! ## The host port and commands -/

/-- Partition 0 of VF 1 with page tables, its window 15 with these commands queued and this one running. -/
def hs (q : List Cmd) (r : Option Run := none) (b : State := pg) : State :=
  { b with parts := [(0, { enabled := true })], boot := { accepted := true, phase := 3, ethLanes := [1] }, windows := [(31, { q, run := r })], nextId := 50
           pf := b.pf.take 3 ++ [(0x400D8, BitVec.ofNat 64 (2 ^ 32))] ++ b.pf.drop 3 }
/-- A packet of these fields (byte offset, value). -/
def pk (l : List (Nat × Nat)) (rec_ : ReadRecord := .none) : Cmd := { uid := 11, bytes := BitVec.ofNat 512 (l.foldl (fun n q => n + q.2 * 2 ^ (8 * q.1)) 0), rec_ }
def b3 : State := { b0 with boot := { phase := 3 } }
theorem wit_HostPortWrites : Obligations.HostPortWrites →
    (runs (.featureAccept 5) (bo 3) ∧ runs (.partitionEnable 63) (bo 3) ∧ runs (.partitionDisable 0) b0 ∧ runs (.registerWrite 0 0x6800 8 5) b0) ∧
    (runs (.cqHeadWrite 1 7) b3 ∧ runs (.functionLevelReset 64) b3) ∧ (runs (.windowBRead 1 0x103C 4) (hs []) ∧ runs (.windowBRead 2 0 64) (hs [])) ∧
    (runs (.windowBWrite 1 0x1000 [1, 2]) (hs []) ∧ runs (.windowBWrite 64 0x3F [1]) (hs [])) ∧ runs (.commandWindowWrite 1 0 0 [1]) (bo 4) := fun h =>
  ⟨⟨runs_eq ((h (bo 3)).1 5 rfl rfl), runs_eq ((h (bo 3)).2.1 63 (by decide) (by decide +kernel)), runs_of ((h b0).2.2.1 0 (by decide) (by decide +kernel)),
    runs_eq ((h b0).2.2.2.1 0x6800 5 (by decide) (by decide) (by decide) (fun q => absurd q.2 (by decide)) (by decide +kernel) (by decide +kernel) (by decide))⟩,
   ⟨runs_eq ((h b3).2.2.2.2.1 1 7 rfl (by decide +kernel)), runs_of ((h b3).2.2.2.2.2.1 64 rfl (by decide) (by decide))⟩,
   ⟨runs_eq (((h (hs [])).2.2.2.2.2.2.1 1 0x103C 4 rfl (by decide) (by decide) (by decide)).1 0x103C page0 (by decide +kernel)).1,
    by refine runs_of (((h (hs [])).2.2.2.2.2.2.1 2 0 64 rfl ?_ ?_ ?_).2 ?_ ?_) <;> decide +kernel⟩,
   ⟨runs_eq (((h (hs [])).2.2.2.2.2.2.2.1 1 0x1000 [1, 2] rfl (by decide) (by decide) (by decide)).1 0x1000 page0 (by decide +kernel)),
    runs_of (((h (hs [])).2.2.2.2.2.2.2.1 64 0x3F [1] rfl (by decide) (by decide) (by decide)).2 (by decide +kernel) (by decide +kernel))⟩,
   runs_eq ((h (bo 4)).2.2.2.2.2.2.2.2.2 (by decide) 1 0 0 [1] (by decide)).1⟩

theorem hd (c : Cmd) (b : State := pg) (e : (hs [c] none b).ready 0 = true ∧ c.doom = 0 ∧ c.bad = false ∧ c.noHandle = false ∧ (∀ n ∈ c.names, ((hs [c] none b).handle 0 n.1).reg = true) ∧
    ((hs [c] none b).part 0).halted = false) : Says.heads (hs [c] none b) 1 15 c [] := ⟨rfl, rfl, e.2.2.2.2.2, e.1, e.2.1, e.2.2.1, e.2.2.2.1, e.2.2.2.2.1⟩
def cBad : Cmd := pk [(0, 7), (4, 9)]
def cL (r : ReadRecord) : Cmd := pk [(0, 1), (8, 0x10000)] r
def cA (n : Nat) : Cmd := pk [(0, 2), (8, 0x10000), (0x18, 64), (0x20, 64), (0x24, n), (0x28, 3)] (.ok l0.r [] [])
def cC : Cmd := pk [(0, 3), (8, 0x10000), (0x20, 0xFF), (0x21, 7)]
def cH (a : Nat) : Cmd := pk [(0, 4), (8, a), (0x0C, 65535), (0x10, 64), (0x18, 64)]
def cS (v : Nat) : Cmd := pk [(0, 5), (8, 2 ^ 51 - 8), (0x10, 77), (0x18, 1), (0x19, 8), (0x1A, v)]
def cW : Cmd := pk [(0, 6), (8, 0x10000), (0x10, 1), (0x18, 1), (0x24, 3)]
/-- A host copy's shape in host space; handle 65535 registered. -/
def pgc : State := pg [(0x10013, 1)]
def pgh : State := { pg with handles := [(65535, { reg := true })] }
theorem wit_Windows : Obligations.CommandsRun →
    (runs (.commandWindowWrite 1 15 0xF80 (List.replicate 64 0)) (hs []) ∧ runs (.commandWindowWrite 64 0 1 [0]) (hs [])) ∧ runs (.windowDiscardsClear 1 15) (hs []) ∧
    runs (.badOpCommand 1 15) (hs [cBad]) ∧ runs (.windowAbort 1 0x8001) (hs []) ∧ runs (.badOpCommand 1 15) (hs [{ cBad with doom := 13 }]) := fun h =>
  ⟨⟨runs_eq (((h (hs []) 1 15 rfl (by decide) (by decide) (by decide)).1 0xF80 (List.replicate 64 0) (by decide) (by decide)).1 (by decide) (by decide) (by decide +kernel)),
    runs_eq (((h (hs []) 64 0 rfl (by decide) (by decide) (by decide)).1 1 [0] (by decide) (by decide)).2 (.inl (by decide)))⟩,
   runs_eq (h (hs []) 1 15 rfl (by decide) (by decide) (by decide)).2.1,
   runs_eq (((h (hs [cBad]) 1 15 rfl (by decide) (by decide) (by decide)).2.2.1 cBad [] (hd _ _ (by decide +kernel))).1 (by decide +kernel) (.inr (by decide +kernel))),
   runs_of ((h (hs []) 1 15 rfl (by decide) (by decide) (by decide)).2.2.2.2.1 0x8001),
   by refine runs_eq ((h (hs [{ cBad with doom := 13 }]) 1 15 rfl ?_ ?_ ?_).2.2.2.2.2 { cBad with doom := 13 } ?_ ?_ ?_ ?_ ?_ ?_ ?_ ?_) <;> decide +kernel⟩
theorem wit_LaunchArm : Obligations.CommandsRun →
    (runs (.launch 1 15) (hs [cL (.ok l0.r [] [])]) ∧ runs (.launch 1 15) (hs [cL (.bad 8)])) ∧ (runs (.arm 1 15) (hs [cA 0]) ∧ runs (.arm 1 15) (hs [cA 2])) := fun h =>
  let f := fun (c : Cmd) (e) => (h (hs [c]) 1 15 rfl (by decide) (by decide) (by decide)).2.2.1 c [] (hd c pg e)
  ⟨⟨runs_of₃ ((f (cL (.ok l0.r [] [])) (by decide +kernel)).2.1 l0.r [] [] (by decide +kernel) (by decide +kernel) rfl (by decide +kernel)),
    runs_eq ((f (cL (.bad 8)) (by decide +kernel)).2.2.1 8 (by decide +kernel) (by decide +kernel) rfl)⟩,
   ⟨by refine runs_eq (((f (cA 0) ?_).2.2.2.1 ?_ ?_ ?_ ?_).1 ?_ ?_) <;> decide +kernel,
    (((f (cA 2) (by decide +kernel)).2.2.2.1 (by decide +kernel) (by decide +kernel) (by decide +kernel) (by decide +kernel)).2 l0.r [] [] (by decide +kernel) rfl (by decide +kernel)).elim fun _ q => runs_eq q.1⟩⟩
def g16 : SegGot := (Says.begun (hs [cC] none pgc) 1 15 cC []).shapeRead 0 (cC.fld 0x08 8)
theorem wit_CopyHandleSignal : Obligations.CommandsRun →
    runs (.hostCopy 1 15 0 0) (hs [cC] none pgc) ∧ (runs (.handleRegister 1 15) (hs [cH 1]) ∧ runs (.handleRetire 1 15) (hs [cH 2] none pgh)) ∧
    (runs (.signal 1 15 true) (hs [cS 0]) ∧ runs (.signal 1 15 true) (hs [cS 7])) ∧ runs (.waitv 1 15) (hs [cW]) := fun h =>
  let f := fun (c : Cmd) (b : State) (e) => (h (hs [c] none b) 1 15 rfl (by decide) (by decide) (by decide)).2.2.1 c [] (hd c b e)
  ⟨runs_of₂ ((f cC pgc (by decide +kernel)).2.2.2.2.1 0 0 (segSt g16) (segV g16) (by decide +kernel) (by decide +kernel) (.inl (by decide +kernel)) (by decide +kernel) (seg_ok₀ (g := g16) (by decide +kernel))
      (by decide +kernel)),
   ⟨by refine runs_eq ((f (cH 1) pg ?_).2.2.2.2.2.1 ?_ ?_ ?_ ?_ ?_) <;> decide +kernel,
    runs_eq ((f (cH 2) pgh (by decide +kernel)).2.2.2.2.2.2.1 (by decide +kernel) (by decide +kernel) (by decide +kernel))⟩,
   ⟨by refine runs_eq ((f (cS 0) pg ?_).2.2.2.2.2.2.2.1 ?_ ?_ ?_ ?_ ?_) <;> decide +kernel,
    by refine runs_eq ((f (cS 7) pg ?_).2.2.2.2.2.2.2.1 ?_ ?_ ?_ ?_ ?_) <;> decide +kernel⟩,
   runs_eq ((f cW pg (by decide +kernel)).2.2.2.2.2.2.2.2 0x10000 page0 (by decide +kernel) (by decide +kernel) (by decide +kernel) (by decide +kernel))⟩
/-- Its completion ring lies at host address 0x1000 with 64 entries, empty. -/
def pgr : State := { pgh with vfr := [(0x10040, 0x1000), (0x10048, 0x106)] }
theorem wit_CommandsEnd : Obligations.CommandsRun →
    (runs (.handleRetireComplete 1 15) (hs [] (some { cmd := cH 2 }) pgh) ∧ runs (.waitvTimeout 1 15) (hs [] (some { cmd := cW, start := 0 }) { pg with ref6 := 30000 })) ∧
    (((hs [] (some { cmd := cBad }) pgr).completeCmd 1 15 1 0).window 1 15).run = none := fun h =>
  ⟨⟨runs_eq (((h (hs [] (some { cmd := cH 2 }) pgh) 1 15 rfl (by decide) (by decide) (by decide)).2.2.2.1 { cmd := cH 2 } rfl rfl).1 (by decide +kernel) (by decide +kernel) (by decide +kernel)),
    runs_eq (((h (hs [] (some { cmd := cW, start := 0 }) { pg with ref6 := 30000 }) 1 15 rfl (by decide) (by decide) (by decide)).2.2.2.1 { cmd := cW, start := 0 } rfl rfl).2.1 (by decide +kernel)
      (by decide +kernel) (by decide +kernel))⟩,
   by
    have q := ((h (hs [] (some { cmd := cBad }) pgr) 1 15 rfl (by decide) (by decide) (by decide)).2.2.2.1 { cmd := cBad } rfl rfl).2.2 1 0 0 0 64
    refine (q ?_ ?_ ?_ ?_ ?_ ?_ ?_ ?_ ?_ ?_ ?_ ?_ ?_ ?_).1 <;> decide +kernel⟩
/-- R84: SEQ, window, OP, STATUS 1 and the phase bit of the first pass, at the ring's first entry. -/
theorem test_record : let s := (hs [] (some { cmd := cBad }) pgr).completeCmd 1 15 1 0
    [0, 4, 5, 6, 28].map (fun k => (s.peek (2 ^ 51 + 0x1000 + k)).toNat) = [9, 15, 7, 1, 1] := by decide +kernel

/-! ## Launches, migration and the trap queue -/

/-- A launch waiting for its tiles; a running class-1 launch where a class-0 one has no room; launches that have ended. -/
def lw (l : Launch) (b : State := {}) : State := { b0 with parts := [(0, { enabled := true })], launches := [(7, l)], boot := b.boot, tiles := b.tiles }
def lx : Launch := { part := 0, num := 7, r := { l0.r with cls := 1 }, startAt := some 0 }
/-- A class-0 launch waits; the only usable tile, 3, holds a group of a class-1 launch. -/
def ld : State := { lw lx with launches := [(1, { l0 with r := { l0.r with cls := 1 } }), (7, { lx with r := { lx.r with cls := 0 } })], boot := { tileHarv := 2 ^ 4096 - 1 - 8 } }
/-- One of class 1 waits there. -/
def lf : State := { ld with launches := [(1, { l0 with r := { l0.r with cls := 1 } }), (7, lx)] }
theorem pair_eq {α β : Type} {o : Option (α × β)} (h : o.isSome = true) : o = some ((o.get h).1, (o.get h).2) := isSome_eq h
theorem plc {s : State} {p k : Nat} {l : Launch} (h : s.partLive p = true ∧ s.nextLaunch p = some (k, l) ∧ s.chooseTiles p l.r (fun _ => true) ≠ none ∧
    ∀ q ∈ s.launches, q.2.part = p → q.2.st = .waiting → q.2.startAt.isSome = true ∨ s.depsOpen q.2.deps = true) : Says.placing s p k l := h
theorem wit_LaunchesRun : Obligations.LaunchesRun →
    (runs (.launchPlacement 0) (lw lx) ∧ runs (.launchPlacement 0) ld ∧ runs (.launchPlacement 0) lf) ∧ (runs (.launchComplete 0 7) (lw { lx with st := .running }) ∧ runs (.launchComplete 0 7) (lw { lx with st := .running, r := { lx.r with cword := 0x30 } })) := fun h =>
  ⟨⟨runs_of ((h (lw lx)).1 0 7 lx [0] (plc (by decide +kernel)) (by decide +kernel) (by decide)),
    runs_of₃ ((h ld).2.1 0 7 { lx with r := { lx.r with cls := 0 } } 1 0 _ _ (plc (by decide +kernel)) (by decide +kernel) rfl rfl (by decide +kernel) (pair_eq (by decide +kernel))),
    runs_eq ((h lf).2.2.1 0 7 lx (plc (by decide +kernel)) (by decide +kernel) (by decide))⟩,
   ⟨runs_of (((h (lw { lx with st := .running })).2.2.2 0 7 _ rfl (by decide +kernel) (by unfold Says.noPartials; decide +kernel)).1 rfl),
    runs_of₂ (((h (lw { lx with st := .running, r := { lx.r with cword := 0x30 } })).2.2.2 0 7 _ rfl (by decide +kernel) (by unfold Says.noPartials; decide +kernel)).2 (by decide))⟩⟩

/-! ### Migration: a group's save and restore -/

/-- Group 0 of launch 1, on tile 3, with this record. -/
def gm (x : GroupSt) (v : Tile := {}) (c : Nat := 0) : State :=
  { pg with
    cyc := c, launches := [(1, { lsave with groups := [(0, x)] })], parts := [(0, { enabled := true })], tiles := [(3, { v with grp := some ⟨1, 0⟩ })], nextId := 20
    boot := { phase := 3 } }
/-- Quiesced with its tile; and off it, with one field of 8 bytes at offset 0x40 of its save area still to write. -/
def gq : GroupSt := { tile := 3, place := .migrating, phase := 2 }
def go : GroupSt := { tile := 3, place := .migrating, phase := 3, out := [((0x40, 8, 5), false)] }
def lg (x : GroupSt) : Launch := { lsave with groups := [(0, x)] }
def mq : State := gm gq { quiet := true }
theorem wit_MigrationSaves : Obligations.GroupsMigrate → runs (.migrationSave 0 1 0) mq ∧ runs (.migrationSave 0 1 0) (gm go) := fun h =>
  ⟨runs_of₄ ((h mq 0 1 0 (lg gq) gq rfl).2.2.2.1 (some []) rfl rfl (by decide +kernel) (by decide +kernel)),
   runs_of₃ ((h (gm go) 0 1 0 (lg go) go rfl).2.2.2.2.1 _ _ _ rfl rfl (by decide +kernel) (by decide) (seg_ok (by decide +kernel)))⟩
/-- R123: the field stands at 0x10000 + 0x40, and the group is displaced where no tile is chosen. -/
theorem test_save : let s := after (exec (.migrationSave 0 1 0) (gm go))
    (List.range 9).map (fun k => (s.peek (0x1003F + k)).toNat) = [0, 5, 0, 0, 0, 0, 0, 0, 0] ∧ (s.group? 1 0).map (·.2.place) = some .displaced := by decide +kernel
/-- What a save left of a group with one context, bound for tile 5. -/
def vt : Tile := { ctxs := [(2, cx [(5, 7)])], sem := (Fixed.fill 8 0).set 1 3 }
def gs : GroupSt := { tile := 3, place := .displaced, phase := 4, slab := some vt, target := some 5 }
theorem sound {x : Ctx} (h : ∀ r < 32, (x.reg r).poison = false) (r : Nat) : (x.reg r).poison = false := by
  by_cases hr : r < 32
  · exact h r hr
  · unfold Ctx.reg Fixed.getD; rw [List.getD_eq_getElem?_getD, List.getElem?_eq_none (by rw [x.x.len]; omega)]; rfl
theorem only {y z : Ctx} {c : Nat} (h : c ≠ 2) : Tbl.getD [(2, y)] c z = z := by simp [Tbl.getD, Tbl.find?, Ne.symm h]
theorem clean : ∀ c r, ((vt.ctx c).reg r).poison = false := fun c r => by
  by_cases h : c = 2
  · subst h; exact sound (by decide +kernel) r
  · have e : vt.ctx c = {} := only h
    rw [e]; exact sound (by decide +kernel) r
theorem wit_GroupsMigrate : Obligations.GroupsMigrate →
    runs (.groupMigrateRequest (BitVec.ofNat 64 (2 ^ 63 + 2 ^ 62 + 2 ^ 32))) (gm { tile := 3 }) ∧ runs (.ckptLimitExpire 0 1 0) (gm { tile := 3, place := .migrating, phase := 1 } {} 200000) ∧
    runs (.migrationQuiesce 0 1 0) (gm { tile := 3, place := .migrating, phase := 1, full := true }) ∧
    runs (.migrationRestore 0 1 0) { gm gs with tiles := [] } ∧ runs (.displacedGroupResume 0 1 0) { gm { gs with target := none } with tiles := [] } := fun h =>
  ⟨by
    refine runs_of₃ ((h (gm { tile := 3 }) 0 1 0 (lg { tile := 3 }) { tile := 3 } rfl).1 _ [0] ?_ ?_ ?_ ?_ ?_ ?_ ?_ ?_ ?_ ?_ ?_ ?_) <;> decide +kernel,
   runs_eq ((h (gm { tile := 3, place := .migrating, phase := 1 } {} 200000) 0 1 0 (lg { tile := 3, place := .migrating, phase := 1 }) _ rfl).2.1 rfl rfl rfl (by decide)),
   runs_of₃ ((h (gm { tile := 3, place := .migrating, phase := 1, full := true }) 0 1 0 (lg { tile := 3, place := .migrating, phase := 1, full := true }) _ rfl).2.2.1 rfl rfl (.inl rfl)),
   runs_of₃ ((h { gm gs with tiles := [] } 0 1 0 (lg gs) gs rfl).2.2.2.2.2.1 vt 5 _ _ _ rfl rfl rfl rfl rfl clean rfl (by decide +kernel) (seg_ok (by decide +kernel))),
   runs_eq ((h { gm { gs with target := none } with tiles := [] } 0 1 0 (lg { gs with target := none }) { gs with target := none } rfl).2.2.2.2.2.2 3 rfl rfl (by decide) (by decide +kernel) (by decide +kernel))⟩

/-- A stopped context whose replayable record has index 4097, with one more record waiting. -/
def xr : Ctx := { cx [] with state := .stopped, park := 10 }
def rr : TrapRec := { kind := 1, code := 17, ctx := 2, launch := 1, ref := 1, tile := 3 }
def qt (q : TrapQ) (x : Ctx := xr) : State := { gm { tile := 3 } { ctxs := [(2, x)] } with trapqs := [(0, q)] }
theorem wit_TrapQueueServed : Obligations.TrapsAndTheirQueue →
    (runs (.trapAck 1 4097) (qt { live := [(4097, rr)] }) ∧ runs (.trapAck 1 (BitVec.ofNat 64 (2 ^ 32 + 4097))) (qt { live := [(4097, rr)] })) ∧
    runs (.tqHeadWrite 1 5) (qt { tail := 5 }) ∧ (runs (.trapQueueEnable 1) (qt {}) ∧ runs (.trapQueueEnable 1) (qt { waitRecs := [rr], tail := 4094 })) ∧
    runs (.deferredTrap 3 2) (qt {} { cx [] with deferred := some { cause := 5 } }) := fun h =>
  ⟨⟨runs_eq (((h.2 (qt { live := [(4097, rr)] }) 0 (by decide) rfl).1 4097 4097 rr (lg { tile := 3 }) { tile := 3 } rfl rfl rfl (by decide +kernel) rfl (by decide +kernel)).1 (by decide)),
    runs_of (((h.2 (qt { live := [(4097, rr)] }) 0 (by decide) rfl).1 (BitVec.ofNat 64 (2 ^ 32 + 4097)) 4097 rr (lg { tile := 3 }) { tile := 3 } rfl rfl rfl (by decide +kernel) rfl
      (by decide +kernel)).2 (by decide))⟩,
   runs_eq ((h.2 (qt { tail := 5 }) 0 (by decide) rfl).2.1 5 rfl (by decide) (by decide)),
   ⟨runs_eq ((h.2 (qt {}) 0 (by decide) rfl).2.2.1 rfl), runs_of ((h.2 (qt { waitRecs := [rr], tail := 4094 }) 0 (by decide) rfl).2.2.2.1 rr [] rfl (by decide))⟩,
   runs_eq ((h.2 (qt {} { cx [] with deferred := some { cause := 5 } }) 0 (by decide) rfl).2.2.2.2 3 2 { cause := 5 } rfl)⟩

/-! ## Paging, shootdowns and Ethernet -/

/-- The page of a fault has this level-3 byte; namespace 0 is 4,096 blocks of 512 bytes on SSD 2; partition 0's pool holds one frame. -/
def fp (v : Byte) (fs : List PageFault) (l : Table Ctx := [(2, cx [] { park := 9, latch := some {} })]) : State :=
  { sl l with
    faults := fs, pf := [(0x5000, BitVec.ofNat 64 (1 + 9 * 2 ^ 18 + 2 * 2 ^ 22)), (0x5008, 4096)] ++ (pg []).pf, pools := [(0, { frames := [0x1000000200000] })]
    mem := { cells := [(0x4000, 0x01), (0x4001, 0x80), (0x8000, 0x01), (0x8001, 0xC0), (0xC000, v)] }
    boot := { storBif := [1, 1, 1, 1] } }
def pf0 (stage : Nat) (rw : Bool := false) (pva : Nat := 0x10000) (x : Nat := 8) : PageFault :=
  { id := 4, asid := 0, part := 0, pva, tile := 3, ctx := 2, gen := 0, launch := 1, group := 0, rd := true, rw, rx := x, ry := 4, stage }
def c0 : Combine := { asid := 0, page := 0, sub := false, ports := [0] }
theorem wit_FaultsWalk : Obligations.PagesServed →
    (runs (.faultMessage 4) (fp 0x0F [pf0 0]) ∧ runs (.faultMessage 4) (fp 0x0F [pf0 0 false 0x10000 7]) ∧
     runs (.faultMessage 4) { fp 0x0F [pf0 0 false 0x10000 7] with combine := [(routerNum 0 7 4, [c0])] }) ∧
    (runs (.pagerWalk 4) (fp 0x0F [pf0 2]) ∧ runs (.pagerWalk 4) (fp 0x8F [pf0 2 true]) ∧ runs (.pagerWalk 4) (fp 0x1E [pf0 2]) ∧ runs (.pagerWalk 4) (fp 0x0F [pf0 2 false 0x200000])) ∧
    runs (.faultWake 4) (fp 0x0F [pf0 6]) ∧ runs (.faultWake 4) { fp 0x0F [pf0 7] with launches := [(1, lg gs)] } := fun h =>
  ⟨⟨runs_eq ((h.1 (fp 0x0F [pf0 0]) (pf0 0) rfl).1 rfl rfl rfl),
    runs_of₂ ((h.1 (fp 0x0F [pf0 0 false 0x10000 7]) (pf0 0 false 0x10000 7) rfl).2.1 rfl (by decide) (by decide +kernel)),
    runs_of ((h.1 { fp 0x0F [pf0 0 false 0x10000 7] with combine := [(routerNum 0 7 4, [c0])] } (pf0 0 false 0x10000 7) rfl).2.2.1 c0 rfl (by decide) (by decide +kernel) rfl (by decide +kernel))⟩,
   ⟨runs_eq (((h.1 (fp 0x0F [pf0 2]) (pf0 2) rfl).2.2.2.1 rfl (by decide +kernel)).1 page0 (by decide +kernel) (fun q => absurd q (by decide)) (by decide +kernel)).1,
    runs_eq (((h.1 (fp 0x8F [pf0 2 true]) (pf0 2 true) rfl).2.2.2.1 rfl (by decide +kernel)).2.1 { page0 with mig := true } (by decide +kernel) rfl rfl),
    runs_eq (((h.1 (fp 0x1E [pf0 2]) (pf0 2) rfl).2.2.2.1 rfl (by decide +kernel)).2.2.1 0 0 false true true true (by decide +kernel)),
    runs_of (((h.1 (fp 0x0F [pf0 2 false 0x200000]) (pf0 2 false 0x200000) rfl).2.2.2.1 rfl (by decide +kernel)).2.2.2 0 (by decide +kernel) rfl)⟩,
   runs_of ((h.1 (fp 0x0F [pf0 6]) (pf0 6) rfl).2.2.2.2.2 3 rfl rfl (by decide +kernel) (by decide +kernel) (ev (by decide +kernel)) (by decide +kernel) (by decide +kernel)),
   runs_eq ((h.1 { fp 0x0F [pf0 7] with launches := [(1, lg gs)] } (pf0 7) rfl).2.2.2.2.1 rfl (by decide +kernel))⟩
/-- A page in service on SSD 2 since the start. -/
def y0 : PageSvc :=
  { id := 9, part := 0, asid := 0, pva := 0, entry := 0x1E, ssd := 2, frame := some 0x1000000200000, faults := [pf0 5]
    reads := [{ queue := 9, nsid := 1, slba := 0, blocks := 4096, prps := [] }] }
theorem wit_StoragePages : Obligations.PagesServed →
    runs (.storageFault 4) (fp 0x1E [pf0 5]) ∧
    (runs (.storageReadComplete 9 true [] []) { fp 0x1E [pf0 5] with pages := [y0] } ∧ runs (.storageReadComplete 9 false [] []) { fp 0x1E [pf0 5] with pages := [y0] } ∧
     runs (.storageTimeout 9) { fp 0x1E [pf0 5] with pages := [y0], ref6 := 8400000000 }) ∧
    runs (.ssdLinkDown 15) (fp 0x1E []) ∧ (runs (.freeFramePush 0 0x1000000000000) (mr 1) ∧ runs (.freeFramePush 0 1) (mr 1)) := fun h =>
  ⟨runs_of₂ ((h.2 (fp 0x1E [pf0 5])).1 (pf0 5) 0 0 2 0x1000000200000 [] false true true true rfl rfl rfl (by decide +kernel) (by decide) (by decide +kernel) (by decide +kernel) rfl),
   ⟨runs_eq (((h.2 { fp 0x1E [pf0 5] with pages := [y0] }).2.1 y0 0x1000000200000 (by decide +kernel) rfl (by decide)).1 [] [] (by decide +kernel)),
    runs_eq (((h.2 { fp 0x1E [pf0 5] with pages := [y0] }).2.1 y0 0x1000000200000 (by decide +kernel) rfl (by decide)).2.1 [] []),
    runs_eq (((h.2 { fp 0x1E [pf0 5] with pages := [y0], ref6 := 8400000000 }).2.1 y0 0x1000000200000 (by decide +kernel) rfl (by decide)).2.2 (by decide +kernel))⟩,
   runs_of ((h.2 (fp 0x1E [])).2.2.1 15 (by decide +kernel) rfl (by decide +kernel)),
   ⟨runs_eq (((h.2 (mr 1)).2.2.2 0 0x1000000000000 (by decide +kernel)).1 0 (by decide) (by decide) (by decide +kernel) (by decide +kernel) (by decide +kernel) (by decide +kernel)),
    runs_eq (((h.2 (mr 1)).2.2.2 0 1 (by decide +kernel)).2 (.inl (by decide)))⟩⟩
theorem wit_ShootdownsServed : Obligations.ShootdownsServed →
    runs (.shootdownRequest (BitVec.ofNat 64 (2 ^ 63 + 2 ^ 32 - 1))) b0 ∧ runs (.shootdownRequest (BitVec.ofNat 64 (2 ^ 63))) b0 ∧
    runs .shootdownComplete { b0 with shoot := some { asid := 0, all := true, page := 0, n := 0, stores := [] } } := fun h =>
  ⟨runs_of₂ ((h b0).1 _ rfl (by decide +kernel) (by decide +kernel) (by decide +kernel) (by decide +kernel) (by decide +kernel) (.inr (by decide +kernel))),
   runs_eq ((h b0).2.1 _ rfl (by decide +kernel) (.inr (.inr (.inr (by decide +kernel))))),
   runs_eq ((h { b0 with shoot := some { asid := 0, all := true, page := 0, n := 0, stores := [] } }).2.2 _ rfl (by decide +kernel) (by decide +kernel))⟩

/-- Endpoint context 3 is bound for partition 0; these messages leave. -/
def et (tx : List TxMsg) (b : State := hs []) : State := { b with tx, cyc := 5000 }
/-- A flow of endpoint context 3 to address 5 in delivery context 6. -/
def d0 : Pdc := { id := 6, ep := 3, peer := 5 }
def tm (pdc : Option Nat) (sent : Bool) : TxMsg := { id := 4, ep := 3, dst := 5, pdc, sent, data := [1, 2], path := some (1, [5]), carries := .row 0 }
def eu (pdc : Option Nat) (sent : Bool) : State := { et [tm pdc sent] with pdcs := [d0] }
theorem goes {s : State} (h : s.ethOn 0 = true) (ev : Nat) : s.egress (1, [5]) 5 ev ≠ none := by
  have : (List.range 8).find? (fun k => bit 1 k && nth [(5 : BitVec 128)] k 0 = (5 : BitVec 128)) = some 0 := by decide
  unfold State.egress
  simp only [this]
  split
  · simp
  · simp [h, bit]
theorem wit_Endpoints : Obligations.EthernetManaged →
    (runs (.endpointBind 511 5) (et []) ∧ runs (.endpointUnbind 3) (et []) ∧ runs (.sdKeyWrite 0 1 [7]) (et []) ∧ runs (.sdCtlWrite 63 7) (et [])) ∧
    (runs (.epStatusClear 3) (et []) ∧ runs (.keyFlush 3) (et []) ∧ runs (.keyFlushComplete 3) (et [] { hs [] with endpoints := [(3, { flushing := true })] })) ∧
    (runs (.peerConfigWrite 7 5) (et []) ∧ runs (.peerConfigWrite 8 5) (et []) ∧ runs .noRouteClear (et []) ∧ runs (.portStatClear 7) (et [])) ∧
    (runs (.ethLinkChange 7 false) (et []) ∧ runs (.ethLinkChange 0 true) { ethDown := 1 }) := fun h =>
  let q := h (et [])
  ⟨⟨runs_eq (q.1 511 5 (by decide +kernel) (by decide)), runs_of (q.2.1 3 (by decide +kernel) (by decide)), runs_eq (q.2.2.1 0 1 [7]), runs_of (q.2.2.2.1 63 7)⟩,
   ⟨runs_eq (q.2.2.2.2.1 3), runs_of (q.2.2.2.2.2.1 3),
    runs_eq ((h (et [] { hs [] with endpoints := [(3, { flushing := true })] })).2.2.2.2.2.2.1 3 (by decide +kernel) (by decide))⟩,
   ⟨runs_of ((q.2.2.2.2.2.2.2.1 7 5).1 (by decide)), runs_eq ((q.2.2.2.2.2.2.2.1 8 5).2 (by decide)), runs_eq q.2.2.2.2.2.2.2.2.1, runs_eq (q.2.2.2.2.2.2.2.2.2.1 7)⟩,
   ⟨runs_eq (q.2.2.2.2.2.2.2.2.2.2.1 7 (by decide +kernel)), runs_eq ((h { ethDown := 1 }).2.2.2.2.2.2.2.2.2.2.2.1 0 (by decide))⟩⟩
/-- Port 0 is a set port with the peer 5, its link up. -/
def pr : State := { pf := [(0x48000, 5), (0x48080, 1)], boot := { ethLanes := [1] } }
def bE (l : List CombEntry := []) : State := { b0 with boot := { ethLanes := [1] }, combining := l }
/-- A contribution of 2 and the entry that holds the other one. -/
def ce : CombEntry := { id := 6, dst := 5, launch := 1, part := 0, cid := 7, step := 2, chunk := 0, got := [{ q15 with src := 1, expect := 2 }] }
def ce3 : CombEntry := { ce with got := [{ q15 with src := 1, expect := 3 }] }
/-- Endpoint context 3, of address 0, takes sealed packets alone. -/
def unsealed : State := { et [] with pf := (et []).pf.take 3 ++ [(0x400D8, BitVec.ofNat 64 (5 * 2 ^ 32))] ++ (et []).pf.drop 4 }
theorem open0 (s : State) (c : Contribution) (h : s.feature 4 = true ∧ s.ethUp c.port = true ∧ c.sealed = false ∧ s.epOf 5 = none) : Says.combinable s c 5 :=
  ⟨h.1, h.2.1, fun q => by rw [h.2.2.2] at q; simp at q, fun _ => h.2.2.1⟩
theorem wit_Messages : Obligations.EthernetManaged →
    (runs (.deliveryContextAllocate 4) (eu none false) ∧ runs (.deliveryContextAllocate 4) (et [tm none false]) ∧ runs (.uetMessageSend 4) (eu (some 6) false) ∧
     (runs (.uetAcknowledgement 4 .ack 0) (eu (some 6) true) ∧ runs (.uetAcknowledgement 4 .nakAccess 0) (eu (some 6) true) ∧ runs (.uetAcknowledgement 4 .nakRetry 0) (eu (some 6) true) ∧
      runs (.uetAcknowledgement 4 .trimmed 65535) (eu (some 6) true))) ∧
    runs (.evUnusableExpire 9) { evBad := [(9, 0)] } ∧ (runs (.packetRelay { port := 0, ep := 0, msg := 1, idx := 0 } 5) pr ∧ runs (.packetRelay { port := 0, ep := 0, msg := 1, relayed := true } 5) pr) ∧
    ((runs (.combineContribution { q15 with ep := 3 } 0) unsealed ∧ runs (.combineContribution { q15 with expect := 2 } 5) (bE)) ∧
     (runs (.combineContribution { q15 with src := 1, expect := 2 } 5) (bE [ce]) ∧ runs (.combineContribution { q15 with expect := 3 } 5) (bE [ce3])) ∧
     runs (.combineContribution { q15 with expect := 2 } 5) (bE [ce])) ∧ runs (.combineTimeout 6) { bE [ce] with ref6 := 840000 } := fun h =>
  let c := fun (s : State) => (h s).2.2.2.2.2.2.2.2.2.2.2.2
  ⟨⟨runs_eq (((c (eu none false)).1 (tm none false) rfl).1 d0 rfl rfl),
    (((c (et [tm none false])).1 (tm none false) rfl).2.1 rfl rfl (by decide) (by decide +kernel)).elim fun _ q => runs_eq q.1,
    (((c (eu (some 6) false)).1 (tm (some 6) false) rfl).2.2.1 d0 (1, [5]) rfl rfl rfl rfl (by decide +kernel) (by decide +kernel) (by decide +kernel) rfl (by decide)
      (goes (by decide))).elim fun _ q => runs_eq q.1,
    (fun q => ⟨runs_eq q.1, runs_eq q.2.1, runs_eq q.2.2.1, runs_eq ((((c (eu (some 6) true)).1 (tm (some 6) true) rfl).2.2.2 65535 rfl).2.2.2 (by decide +kernel))⟩)
      (((c (eu (some 6) true)).1 (tm (some 6) true) rfl).2.2.2 0 rfl)⟩,
   runs_eq ((c { evBad := [(9, 0)] }).2.1 9 0 rfl (by decide)),
   ⟨((c pr).2.2.1 { port := 0, ep := 0, msg := 1, idx := 0 } 5 0 (by decide +kernel) rfl (by decide +kernel) (by decide +kernel) (by decide +kernel)).elim fun _ q => runs_eq q.1,
    runs_eq ((c pr).2.2.2.1 { port := 0, ep := 0, msg := 1, relayed := true } 5 rfl)⟩,
   ⟨⟨runs_eq ((c unsealed).2.2.2.2.1 { q15 with ep := 3 } 0 (by decide +kernel) (by decide +kernel) (by decide +kernel) (by decide +kernel)),
     (((c (bE)).2.2.2.2.2.1 { q15 with expect := 2 } 5 (open0 _ _ (by decide +kernel))).1 rfl (by decide)).elim fun _ q => runs_eq q.1⟩,
    ⟨runs_eq ((((c (bE [ce])).2.2.2.2.2.1 { q15 with src := 1, expect := 2 } 5 (open0 _ _ (by decide +kernel))).2 ce rfl (by decide +kernel) rfl (by decide +kernel) (by decide)).1 ⟨1, (by decide +kernel), (by decide +kernel)⟩),
     runs_eq (((((c (bE [ce3])).2.2.2.2.2.1 { q15 with expect := 3 } 5 (open0 _ _ (by decide +kernel))).2 ce3 rfl (by decide +kernel) rfl (by decide +kernel) (by decide)).2 (by decide +kernel)).1 (by decide +kernel))⟩,
    runs_eq (((((c (bE [ce])).2.2.2.2.2.1 { q15 with expect := 2 } 5 (open0 _ _ (by decide +kernel))).2 ce rfl (by decide +kernel) rfl (by decide +kernel) (by decide)).2 (by decide +kernel)).2 (by decide +kernel))⟩,
   runs_eq ((c { bE [ce] with ref6 := 840000 }).2.2.2.2.2.2 ce rfl rfl (by decide +kernel))⟩

/-- A packet of eight bytes of message 7 for the key at PVA 0x10000, the message as it waits for it, and a held one. -/
def p0 : Packet := { port := 0, ep := 3, msg := 7, idx := 0, total := 8, tag := 9, data := [1, 2, 3, 4, 5, 6, 7, 8] }
def k0 : KeyEntry := { base := 0x10000, limit := 0x100, rights := 7, cntMode := 1, cntAddr := 0x10100 }
def rm (kind : Nat) : RxMsg := { id := 5, src := 0, ep := 3, msg := 7, kind, count := 1, key := k0 }
/-- The delivery context of its flow. -/
def fd0 (md : Delivery) : Pdc := { id := 6, out := false, ep := 3, peer := 0, mode := md }
def er (rx : List RxMsg) (a : List Armed := []) (md : Delivery := .rud) : State :=
  { hs [] with
    cyc := 5000, rx, armed := a, pdcs := [fd0 md], heldPackets := [{ id := 8, part := 0, pva := 0x10000, op := 0, p := p0 }] }
theorem tk (rx : List RxMsg) (a : List Armed) (h : (er rx a).ethUp 0 = true ∧ (er rx a).heldOf 0 < 256 ∧ (er rx a).epBound 3 = true ∧ (er rx a).authentic p0 = true ∧ (er rx a).feature 16 = true ∧
    0 = ((er rx a).epPart 3).getD 0 ∧ (er rx a).partLive 0 = true) : Says.taken (er rx a) p0 0 := h
def ar : Armed := { id := 3, part := 0, ep := 3, tag := 9, buf := 0x10000, len := 64, count := 1, vf := 1, win := 0, seq := 0, flags := 0, r := l0.r }
def ps0 : List (Nat × Nat × Option Xlat) := [(0x10000, 8, some page0)]
def isPs (e : EthAddr) : Bool := match e with | .ok ps => decide (ps = ps0) | _ => false
theorem ps_ok {e : EthAddr} (h : isPs e = true) : e = .ok ps0 := by
  cases e with
  | ok ps => simp [isPs] at h; rw [h]
  | refuse => simp [isPs] at h
  | waits _ _ => simp [isPs] at h
  | retry => simp [isPs] at h
/-- A packet of ROD before its turn. -/
def p1 : Packet := { p0 with mode := .rod, idx := 1, psn := 1 }
def erod : State := er [rm 0] [] .rod
theorem tk₁ (h : erod.ethUp 0 = true ∧ erod.heldOf 0 < 256 ∧ erod.epBound 3 = true ∧ erod.authentic p1 = true ∧ erod.feature 17 = true ∧ 0 = (erod.epPart 3).getD 0 ∧
    erod.partLive 0 = true) : Says.taken erod p1 0 := h
/-- The flow is not known yet. -/
def enew : State := { er [rm 0] with pdcs := [] }
theorem tk₂ (h : enew.ethUp 0 = true ∧ enew.heldOf 0 < 256 ∧ enew.epBound 3 = true ∧ enew.authentic p0 = true ∧ enew.feature 16 = true ∧ 0 = (enew.epPart 3).getD 0 ∧
    enew.partLive 0 = true) : Says.taken enew p0 0 := h
theorem got_ok {α : Type} {x : α × Bool} (h : x.2 = false) : x = (x.1, false) := by rw [← h]
theorem got_ok₂ {α β : Type} {x : α × β × Bool} (h : x.2.2 = false) : x = (x.1, x.2.1, false) := by rw [← h]
theorem turn (rx : List RxMsg) (a : List Armed) : Says.inTurn (er rx a) p0 := ⟨fd0 .rud, rfl, nofun⟩
/-- A row for a group that is displaced. -/
def displaced : GroupSt := { tile := 3, place := .displaced }
def pr0 : Packet := { p0 with aop := 16 }
def mr0 : RxMsg := { rm 0 with key := { base := 0x1000000000000, limit := 0x100, rights := 7, typ := 1 } }
def erow : State := { er [mr0] with launches := [(1, lg displaced)] }
theorem tkr (h : erow.ethUp 0 = true ∧ erow.heldOf 0 < 256 ∧ erow.epBound 3 = true ∧ erow.authentic pr0 = true ∧ erow.feature 16 = true ∧ 0 = (erow.epPart 3).getD 0 ∧
    erow.partLive 0 = true) : Says.taken erow pr0 0 := h
theorem wit_PacketsDelivered : Obligations.PacketsDelivered →
    (runs (.uetWritePacket p0) (er [rm 0]) ∧ runs (.uetWritePacket pr0) erow ∧ runs (.uetSendPacket p0) (er [rm 2]) ∧ runs (.uetReadPacket p0) (er [rm 1]) ∧ runs (.uetAtomicPacket p0) (er [rm 4])) ∧
    (exec (.uetWritePacket p0) enew = exec (.uetWritePacket p0) { enew with pdcs := [Says.newFlow enew p0], nextId := 51 }) ∧
    runs (.uetWritePacket p1) erod ∧ runs (.uetTaggedSend p0) (er [] [ar]) ∧ runs (.ethHeldPlacement 8) (er []) ∧ runs (.arrivalCounterAdd 5) (er [{ rm 0 with got := [0] }]) := fun h =>
  let t := fun (k : Nat) => tk [rm k] []
  let f := fun (k : Nat) (t) (w) => (h (er [rm k]) p0 0 t).2.1 (rm k) ps0 (turn _ _) w
  ⟨⟨runs_eq ((f 0 (t 0 (by decide +kernel)) ⟨rfl, by decide, by decide, rfl, rfl⟩).1 (by decide) (by decide +kernel) (ps_ok (by decide +kernel))),
    runs_eq (((h erow pr0 0 (tkr (by decide +kernel))).2.1 mr0 ps0 ⟨fd0 .rud, rfl, nofun⟩ ⟨rfl, by decide, by decide, rfl, rfl⟩).2.1 (1, lg displaced) rfl (by decide +kernel) rfl (by decide +kernel) (by decide +kernel)),
    runs_eq ((f 2 (t 2 (by decide +kernel)) ⟨rfl, by decide, by decide, rfl, rfl⟩).2.2.1 rfl rfl (by decide +kernel) (ps_ok (by decide +kernel))),
    runs_of₂ ((f 1 (t 1 (by decide +kernel)) ⟨rfl, by decide, by decide, rfl, rfl⟩).2.2.2.1 _ (by decide +kernel) (ps_ok (by decide +kernel)) (got_ok (by decide +kernel)) (by decide +kernel)),
    runs_of₂ ((f 4 (t 4 (by decide +kernel)) ⟨rfl, by decide, by decide, rfl, rfl⟩).2.2.2.2 0x10000 8 page0 _ _ (by decide +kernel) (by decide +kernel) (by decide)
      (ps_ok (by decide +kernel)) (by decide) (got_ok₂ (by decide +kernel)))⟩,
   (h enew p0 0 (tk₂ (by decide +kernel))).1 rfl (by decide) _ (.head _),
   runs_eq ((h erod p1 0 (tk₁ (by decide +kernel))).2.2.1 (rm 0) (fd0 .rod) ⟨rfl, by decide, by decide, rfl, rfl⟩ rfl rfl (by decide)),
   runs_eq ((h (er [] [ar]) p0 0 (tk _ _ (by decide +kernel))).2.2.2.1 ar _ _ ps0 (turn _ _) rfl (by decide +kernel) (by decide +kernel) (by decide) (by decide) rfl rfl
     (ps_ok (by decide +kernel))),
   runs_eq ((h (er []) p0 0 (tk _ _ (by decide +kernel))).2.2.2.2.1 { id := 8, part := 0, pva := 0x10000, op := 0, p := p0 } rfl (by decide +kernel) rfl rfl),
   runs_eq ((h (er [{ rm 0 with got := [0] }]) p0 0 (tk _ _ (by decide +kernel))).2.2.2.2.2 { rm 0 with got := [0] } 0x10100 page0 rfl rfl rfl (by decide) rfl rfl (by decide)
     (by decide +kernel) (by decide +kernel))⟩

/-! ## The homes -/

theorem wit_WritesApplied : Obligations.WritesApplied →
    (b0.applyWrite 0 0 0x103F 1 0xFFFF none true false).peek 0x103F = 255 ∧ (b0.applyWrite 0 0 (pad + 0x5FFC0) 64 7 (some 3) false false).peek (pad + 0x5FFC0) = 7 := fun h =>
  ⟨by refine (h b0 0 0 0x103F 1 0xFFFF none true ?_ (noWait rfl) ?_ ?_ ?_ ?_ ?_ ?_ ?_).1 0 (by decide) <;> decide +kernel,
   by refine (h b0 0 0 (pad + 0x5FFC0) 64 7 (some 3) false ?_ (noWait rfl) ?_ ?_ ?_ ?_ ?_ ?_ ?_).1 0 (by decide) <;> decide +kernel⟩

/-- An access of context 2 of tile 3 to 0x10000, which lies in partition 0's memory, and the state where it is out. -/
def rq (k : ReqKind) (st : ReqStage) (f : Req → Req := id) : Req := f { id := 6, tile := 3, ctx := 2, gen := 0, kind := k, stage := st, va := 0x10000, pa := 0x10000, dst := 8, pc := 0x1000 }
def hm (r : Req) (x : Ctx := {}) (v : Tile := {}) (st : Table W32 := []) : State :=
  { sl [(2, { cx [] x with seg := seg0 })] v with reqs := [r], mem := { (pg []).mem with stamps := st } }
/-- Stamped, of iteration 9. -/
def stp (lag : Nat := 0) (r : Req) : Req := { r with stamped := true, iter := 9, lag }
theorem ar0 {s : State} {r : Req} (h : s.req? r.id = some r ∧ s.homeWaits r = false) : Says.arrives s r := h
theorem wit_StoresLoads : Obligations.AccessesPerformed →
    (runs (.homeStoreApply 6) (hm (rq .store .buffer)) ∧ runs (.stampedWriteApply 6) (hm (rq .store .buffer stp) {} {} [(0x400, 9)]) ∧
     runs (.stampedWriteApply 6) (hm (rq .store .buffer stp) {} {} [(0x400, 10)]) ∧ runs (.stampedWriteAck 6) (hm (rq .store .reply))) ∧
    runs (.homeLoad 6) (hm (rq .load .flight)) ∧ (runs (.homeAtomic 6) (hm (rq .amo .flight)) ∧ runs (.homeAtomic 6) (hm (rq .elect .flight))) := fun h =>
  let f := fun (r : Req) (st : Table W32) (e) (w) (k) (g) => ((h.1 (hm r {} {} st) r).1 e w k g)
  ⟨⟨runs_eq ((f (rq .store .buffer) [] (ar0 (by decide +kernel)) (by decide +kernel) rfl rfl).1 rfl),
    runs_eq ((f (rq .store .buffer stp) [(0x400, 9)] (ar0 (by decide +kernel)) (by decide +kernel) rfl rfl).2.1 rfl (by decide +kernel)),
    runs_eq ((f (rq .store .buffer stp) [(0x400, 10)] (ar0 (by decide +kernel)) (by decide +kernel) rfl rfl).2.2 rfl (by decide +kernel)),
    runs_eq ((h.1 (hm (rq .store .reply)) (rq .store .reply)).2.1 (by decide +kernel) rfl rfl (by decide +kernel))⟩,
   runs_eq ((h.1 (hm (rq .load .flight)) (rq .load .flight)).2.2.1 (ar0 (by decide +kernel)) (by decide +kernel) rfl rfl (fun _ => by decide +kernel)),
   ⟨by refine runs_eq (((h.1 (hm (rq .amo .flight)) (rq .amo .flight)).2.2.2.1 (ar0 ?_) ?_ rfl ?_ ?_).1 rfl rfl ?_) <;> decide +kernel,
    by refine runs_eq (((h.1 (hm (rq .elect .flight)) (rq .elect .flight)).2.2.2.1 (ar0 ?_) ?_ rfl ?_ ?_).2 rfl rfl) <;> decide +kernel⟩⟩
/-- R351: an atomic on a host line is answered, whether its AtomicOp succeeds or fails. -/
theorem wit_AtomicOps : Obligations.AccessesPerformed → runs (.homeAtomic 6) (hm (rq .amo .flight fun r => { r with pa := Config.hostBase })) := fun h => by
  refine runs_eq (((h.1 (hm (rq .amo .flight fun r => { r with pa := Config.hostBase })) (rq .amo .flight fun r => { r with pa := Config.hostBase })).2.2.2.1
    (ar0 ?_) ?_ rfl ?_ ?_).1 rfl rfl ?_) <;> decide +kernel
/-- A release of context 2: round 0, which counts two writes, is closed and awaits its query. -/
def xq : Ctx := { clearing := (Fixed.fill 4 false).set 0 true, closed := (Fixed.fill 4 false).set 0 true, issued := (Fixed.fill 4 0).set 0 2, spill := (Fixed.fill 4 0).set 0 1 }
def sq (x : Ctx) (v : Tile := {}) : State := { hm (rq .load .reply) x v with reqs := [], counts := [{ home := 0, tile := 3, ctx := 2, round := 0, n := 1 }] }
/-- It waits for the query, of this scope; or for the system scope's read on the link. -/
def fq (sys : Bool) (k : FenceKind := .query) : Fence := { id := 9, kind := k, loads := sys, sys }
def sf (f : Fence) : State := sq { xq with fences := [f] }
theorem wit_Releases : Obligations.AccessesPerformed →
    runs (.partialEviction 3 0x400) (hm (rq .load .reply) {} { parts := [(0x400, { fmt := 2, op := 0, els := [(0, 5)], ctx := 2 })] }) ∧
    (runs (.releaseQuery 3 2) (sf (fq false)) ∧ runs (.releaseQuery 3 2) (sf (fq true)) ∧ runs (.releaseQuery 3 2) (sf (fq true .link))) ∧ runs (.releaseClearReturn 3 2) (sq xq) := fun h =>
  let q := fun (b : Bool) => (h.1 (sf (fq b)) (rq .load .reply)).2.2.2.2.2.2.1 3 2 (fq b) [] rfl rfl rfl
  ⟨runs_eq ((h.1 (hm (rq .load .reply) {} { parts := [(0x400, { fmt := 2, op := 0, els := [(0, 5)], ctx := 2 })] }) (rq .load .reply)).2.2.2.2.1 3 0x400 _ rfl (by decide +kernel)),
   ⟨runs_eq ((q false (by decide +kernel) (by decide +kernel) (by decide +kernel)).1 rfl), runs_eq ((q true (by decide +kernel) (by decide +kernel) (by decide +kernel)).2 rfl),
    runs_eq ((h.1 (sf (fq true .link)) (rq .load .reply)).2.2.2.2.2.1 3 2 (fq true .link) [] rfl rfl)⟩,
   runs_of ((h.1 (sq xq) (rq .load .reply)).2.2.2.2.2.2.2 3 2 0 (by decide) (fun k q => by omega) (by decide +kernel) (by decide +kernel))⟩
def lt : Latch := { insn := 0x0023055B, pc := 0x1000 }
/-- Refused, and back from a migration: its retry counts down. -/
def xk8 : Ctx := { park := 8, parkedAt := 4000, latch := some { lt with timer := 256 } }
theorem wit_LagLoads : Obligations.AccessesPerformed →
    (runs (.stampedLoadAtHome 6) (hm (rq .ldaN .flight)) ∧ runs (.stampedLoadAtHome 6) (hm (rq .ldaW .flight stp) { latch := some lt, slim := 0 }) ∧
     runs (.stampedLoadAtHome 6) { hm (rq .ldaW .flight stp) with reqs := rq .ldaW .flight stp :: (List.range 4096).map fun i => rq .ldaW .waiting fun r => { r with id := 100 + i } } ∧
     runs (.stampedLoadAtHome 6) (hm (rq .ldaW .flight stp) { latch := some lt })) ∧
    ((runs (.stampedLoadRetry 3 2) (hm (rq .ldaW .refused fun r => { r with since := 4744 })) ∧ runs (.stampedLoadRetry 3 2) (sq xk8)) ∧ runs (.slimTimeout 3 2) (hm (rq .ldaW .waiting stp) { slim := 5000 }) ∧
     runs (.staleWithdrawAck 3 2) (hm (rq .ldaW .withdrawing))) ∧
    (runs (.watchRetry 6) (hm (rq .waitw .refused fun r => { r with since := 4744 })) ∧ runs (.homeLoad 6) (hm (rq .waitw .flight) { latch := some lt }) ∧ runs (.hostWatchPoll 6) (hm (rq .waitc .waiting fun r => { r with pa := 2 ^ 51 }))) := fun h =>
  let f := fun (s : State) (r : Req) (e) (w) (k) (b) => (h.2.1 s r).1 e w k b
  ⟨⟨runs_eq ((f (hm (rq .ldaN .flight)) (rq .ldaN .flight) (ar0 (by decide +kernel)) (by decide +kernel) rfl (by decide +kernel)).1 (.inl rfl)),
    runs_eq (((f (hm (rq .ldaW .flight stp) { latch := some lt, slim := 0 }) (rq .ldaW .flight stp) (ar0 (by decide +kernel)) (by decide +kernel) rfl (by decide +kernel)).2 rfl rfl
      (by decide +kernel)).1 (by decide +kernel)),
    by refine runs_eq (((f { hm (rq .ldaW .flight stp) with reqs := rq .ldaW .flight stp :: (List.range 4096).map fun i => rq .ldaW .waiting fun r => { r with id := 100 + i } } (rq .ldaW .flight stp)
      (ar0 ?_) ?_ rfl ?_).2 rfl rfl ?_).2.1 ?_ ?_ rfl) <;> decide +kernel,
    by refine runs_eq (((f (hm (rq .ldaW .flight stp) { latch := some lt }) (rq .ldaW .flight stp) (ar0 ?_) ?_ rfl ?_).2 rfl rfl
      ?_).2.2 ?_ ?_ rfl) <;> decide +kernel⟩,
   ⟨⟨runs_of ((h.2.1 (hm (rq .ldaW .refused fun r => { r with since := 4744 })) (rq .ldaW .refused fun r => { r with since := 4744 })).2.1 (by decide +kernel) (by decide)),
     runs_eq ((h.2.1 (sq xk8) (rq .ldaW .refused)).2.2.1 { lt with timer := 256 } rfl rfl rfl (by decide) (by decide +kernel) rfl)⟩,
    runs_eq ((h.2.1 (hm (rq .ldaW .waiting stp) { slim := 5000 }) (rq .ldaW .waiting stp)).2.2.2.1 (by decide +kernel) (by decide +kernel) (by decide +kernel)),
    runs_eq ((h.2.1 (hm (rq .ldaW .withdrawing)) (rq .ldaW .withdrawing)).2.2.2.2.1 (by decide +kernel))⟩,
   ⟨runs_eq (((h.2.1 (hm (rq .waitw .refused fun r => { r with since := 4744 })) (rq .waitw .refused fun r => { r with since := 4744 })).2.2.2.2.2 (by decide +kernel) (.inl rfl)).1 rfl
      (by decide)),
    runs_eq (((h.2.1 (hm (rq .waitw .flight) { latch := some lt }) (rq .waitw .flight)).2.2.2.2.2 (by decide +kernel) (.inl rfl)).2.1 (ar0 (by decide +kernel)) (by decide +kernel) rfl (fun _ => by decide +kernel) (by decide +kernel) (by decide +kernel)),
    runs_eq (((h.2.1 (hm (rq .waitc .waiting fun r => { r with pa := 2 ^ 51 })) (rq .waitc .waiting fun r => { r with pa := 2 ^ 51 })).2.2.2.2.2 (by decide +kernel) (.inr rfl)).2.2 rfl (by decide)
      (by decide))⟩⟩
theorem wit_Answers : Obligations.AccessesPerformed →
    (runs (.loadResultLand 6) (hm (rq .load .reply)) ∧ runs (.loadResultLand 6) (hm (rq .ldaW .reply) { latch := some lt })) ∧
    runs (.loadResultLand 6) (hm (rq .waitc .reply) { latch := some lt }) ∧ runs (.loadResultLand 6) (hm (rq .waitw .reply) { latch := some lt, park := 3 }) := fun h =>
  let f := fun (r : Req) (x : Ctx) (e) (w) (a) (m) (d) (k) => h.2.2 (hm r x) r e w a m d k
  ⟨⟨runs_of ((f (rq .load .reply) {} (by decide +kernel) rfl (by decide +kernel) (by decide +kernel) (by decide) (by decide)).1 (.inl rfl)),
    runs_of (((f (rq .ldaW .reply) { latch := some lt } (by decide +kernel) rfl (by decide +kernel) (by decide +kernel) (by decide) (by decide)).2.2.1 lt (by decide +kernel) rfl (by decide +kernel)).1 rfl)⟩,
   runs_of ((f (rq .waitc .reply) { latch := some lt } (by decide +kernel) rfl (by decide +kernel) (by decide +kernel) (by decide) (by decide)).2.1 (.inr rfl) (by decide +kernel) (by decide +kernel) (by decide +kernel)),
   runs_of (((f (rq .waitw .reply) { latch := some lt, park := 3 } (by decide +kernel) rfl (by decide +kernel) (by decide +kernel) (by decide) (by decide)).2.2.1 lt (by decide +kernel) rfl (by decide +kernel)).2 (.inl rfl) (.inl (by decide +kernel)))⟩

/-! ## Words, steps, invariants and reset -/

theorem ok_is {ε α : Type} [DecidableEq α] {a : α} {e : Except ε α} (h : (match e with | .ok b => decide (b = a) | .error _ => false) = true) : e = .ok a := by
  cases e with
  | ok b => simpa using h
  | error _ => simp at h
theorem error_is {ε α : Type} [DecidableEq ε] {a : ε} {e : Except ε α} (h : (match e with | .error b => decide (b = a) | .ok _ => false) = true) : e = .error a := by
  cases e with
  | error b => simpa using h
  | ok _ => simp at h
theorem wit_WordsRoundTrip : Obligations.WordsRoundTrip →
    decodeWord 0x00700293 = .ok (.addi 5 0 7) ∧ decodeWord 0x601020AB = .ok (.mma 3 2 0 1) ∧ decodeBytes (wordBytes 0x00C3B023 ++ [1]) = .ok (.sd 7 12 0, [1]) := fun h =>
  ⟨(h (.addi 5 0 7) 0x00700293 (by decide) (by decide +kernel)).2.1, (h (.mma 3 2 0 1) 0x601020AB (by decide) (by decide +kernel)).2.1,
   (h (.sd 7 12 0) 0x00C3B023 (by decide) (by decide +kernel)).2.2 [1]⟩
theorem wit_WordsMeanOneThing : Obligations.WordsMeanOneThing → encode (.ldaW 0 10 6 2) = some 0x0023055B ∧ (Instr.copy 0 10 11).wf = true := fun h =>
  ⟨(h 0x0023055B (.ldaW 0 10 6 2) (by decide) (ok_is (by decide +kernel))).2, (h 0x04B5007B (.copy 0 10 11) (by decide) (ok_is (by decide +kernel))).1⟩
/-- A word placed where the next step issues it. -/
def placed (w : Nat) : State := State.reset.withFetchWord 32 w
/-- ADDI x5, x0, 7, issued by the first step after reset with it placed, writes x5. -/
theorem test_step_issues : (((after (Machine.step (placed 0x00700293))).ctx 0 0).reg 5).val = 7 ∧ ((after (Machine.step (placed 0x00700293))).ctx 0 0).pc = 4 := by decide +kernel
/-- A word of major opcode 0F is no instruction: the context stops. -/
theorem test_step_illegal : (((after (Machine.step (placed 0x0000000F))).ctx 0 0).state == .slotted && ((after (Machine.step (placed 0x0000000F))).ctx 0 0).park == 0) = false := by
  decide +kernel
/-- The tile's instruction cache holds a word of PVA 0x10000 where another has been written since. -/
def rewritten : State := sl [(2, { cx [] with seg := seg0, pc := 0x10000 })] { icache := [(0x10000, 0x00700293)] } (pg [(0x10000, 0x13)])
theorem wit_SpecAndSteps : Obligations.SpecAndSteps →
    (∃ s s1, Machine.step s = mapOut (fun x => { x with cur := none }) (exec (.addi 5 0 7) s1)) ∧
    (∃ s s1 w, Machine.step s = mapOut (fun x => { x with cur := none }) (exec (.illegalInstruction w) s1)) ∧ (st a11).nextWord 3 2 = some 0x011000AB ∧
    (placed 0x00700293).nextWord 0 0 = some 0x00700293 ∧ (rewritten.nextWord 3 2 = some 0x00000013 ∨ rewritten.nextWord 3 2 = some 0x00700293) ∧
    Machine.step { s11 with agenda := [.event (.divideResultLand 3), .tick] } = exec (.divideResultLand 3) { s11 with agenda := [.tick] } ∧
    ∃ t, Machine.step { s11 with agenda := [.tick] } = .next t ∧ t.cyc = 101 := fun h =>
  have f := h.2
  ⟨⟨_, _, by
    refine ((f (placed 0x00700293) []).1 0 0 0x00700293 rfl ?_ ?_ ?_ ?_ ?_ ?_ ?_ ?_).1 (.addi 5 0 7) (ok_is ?_) <;> decide +kernel⟩,
   ⟨_, _, _, by
    refine ((f (placed 0x0000000F) []).1 0 0 0x0000000F rfl ?_ ?_ ?_ ?_ ?_ ?_ ?_ ?_).2 .majorOpcode (error_is ?_) <;> decide +kernel⟩,
   (f (st a11) []).2.1 3 2 { insn := 0x011000AB#32, pc := 0x1000 } (by decide +kernel),
   ((f (placed 0x00700293) []).2.2.1 0 0 0 0x00700293 (by decide +kernel) (ok_is (by decide +kernel)) (by decide +kernel)).1 (by decide +kernel),
   ((f rewritten []).2.2.1 3 2 0x10000 0x00700293 (by decide +kernel) (ok_is (by decide +kernel)) (by decide +kernel)).2 0x00000013 (by decide +kernel),
   ((f { s11 with agenda := [.event (.divideResultLand 3), .tick] } [.tick]).2.2.2.1 _ rfl).trans (if_pos (by decide)),
   ((f { s11 with agenda := [.tick] } []).2.2.2.2 rfl).elim fun t q => ⟨t, q.1, q.2.1⟩⟩
theorem wit_MemoryStaysCanonical : Obligations.MemoryStaysCanonical → MemInv (after (Machine.step (placed 0x00700293))) := fun h =>
  h (placed 0x00700293) _ (by rfl) (by decide +kernel)
theorem test_reset_memory : MemInv State.reset ∧ State.reset.peek 0x1000 = 0 := by decide +kernel

end Sys2Proof.Tests
end

section
/-!
PROOFS. What window B reads (R68). The statement O45 is refuted by a state whose cache parts list a line that is not CXL memory; where they list CXL lines
only, its clause holds.
-/
namespace Sys2Proof.Machine

/-! ## Bytes outside CXL memory, which the cache parts leave (R57, R171) -/

theorem Tbl.mem_of_find? {α : Type} {t : Table α} {k : Nat} {v : α} (h : Tbl.find? t k = some v) : (k, v) ∈ t := by
  induction t with
  | nil => simp [Tbl.find?] at h
  | cons p t ih =>
    obtain ⟨j, w⟩ := p
    unfold Tbl.find? at h
    split at h
    · rename_i hj; subst hj; cases h; exact List.mem_cons_self
    · split at h
      · cases h
      · exact List.mem_cons_of_mem _ (ih h)

theorem isCxl_iff (a : Nat) : isCxl a = true ↔ 0x1000000000000 ≤ a ∧ a < 0x1100000000000 := by
  unfold isCxl
  rw [Bool.and_eq_true, decide_eq_true_eq, decide_eq_true_eq]
  rfl

/-- A byte is CXL memory with its line (R165). -/
theorem isCxl_line (a : Nat) : isCxl (64 * (a / 64)) = isCxl a := by
  rw [Bool.eq_iff_iff, isCxl_iff, isCxl_iff]
  omega

/-- No cache part stands before a byte that is not CXL memory (R57). -/
theorem State.peek_plain {s : State} {a : Nat} (h : isCxl a = false) : s.peek a = s.memByte a := by
  simp [State.peek, State.cached, isCxl_line, h]

/-- A byte that is not CXL memory depends on the cells, the ranges and what the groups left undefined alone. -/
theorem State.peek_plain_congr {s u : State} {a : Nat} (h : isCxl a = false) (hc : u.mem.cells = s.mem.cells) (hp : u.pf = s.pf) (hq : u.parts = s.parts)
    (hj : ∀ t, (u.tile t).junk = (s.tile t).junk) : u.peek a = s.peek a := by
  rw [State.peek_plain h, State.peek_plain h]
  unfold State.memByte
  rw [hc, hj, State.memKey_congr hp hq]

/-- Every line that a cache part lists is CXL memory (R57). -/
def State.cachesCxl (s : State) : Prop := ∀ q ∈ s.mem.cxl, isCxl (64 * q.1) = true

@[simp] theorem State.pokeRaw_cxl (s : State) (pa v n : Nat) : (s.pokeRaw pa v n).mem.cxl = s.mem.cxl := by
  induction n generalizing s pa v with
  | zero => rfl
  | succ n ih => rw [State.pokeRaw_succ, ih, State.pokeByte_cxl]
@[simp] theorem State.pokeRaw_tiles (s : State) (pa v n : Nat) : (s.pokeRaw pa v n).tiles = s.tiles := by
  induction n generalizing s pa v with
  | zero => rfl
  | succ n ih => rw [State.pokeRaw_succ, ih, State.pokeByte_tiles]
@[simp] theorem State.setMemPoison_cxl (s : State) (l : Nat) (p : Bool) : (s.setMemPoison l p).mem.cxl = s.mem.cxl := by
  unfold State.setMemPoison; split <;> rfl
@[simp] theorem State.setMemPoison_tiles (s : State) (l : Nat) (p : Bool) : (s.setMemPoison l p).tiles = s.tiles := by
  unfold State.setMemPoison; split <;> rfl
theorem State.peek_setMemPoison_plain (s : State) (l : Nat) (p : Bool) {a : Nat} (h : isCxl a = false) : (s.setMemPoison l p).peek a = s.peek a := by
  unfold State.setMemPoison
  split
  · rfl
  · exact State.peek_plain_congr h rfl rfl rfl fun _ => rfl

@[simp] theorem State.memWr_cxl (s : State) (line : Nat) (c : CLine) : (s.memWr line c).mem.cxl = s.mem.cxl := by
  unfold State.memWr; split <;> simp
@[simp] theorem State.memWr_tiles (s : State) (line : Nat) (c : CLine) : (s.memWr line c).tiles = s.tiles := by
  unfold State.memWr; split <;> simp

/-- A CXL line written back changes no byte outside CXL memory. -/
theorem State.peek_memWr_plain {s : State} (h : MemInv s) {line : Nat} (c : CLine) (hl : isCxl (64 * line) = true) {a : Nat} (ha : isCxl a = false) :
    (s.memWr line c).peek a = s.peek a := by
  unfold State.memWr
  split
  · rw [State.peek_setMemPoison_plain _ _ _ ha]
    refine State.peek_pokeRaw_other s _ _ 64 a h ?_ (.inr ha)
    rw [← Bool.not_eq_true, isCxl_iff] at ha
    rw [isCxl_iff] at hl
    omega
  · rfl

/-- Memory is canonical, no tile holds a partial, and the cache parts list CXL lines only. -/
structure State.HomesClean (s : State) : Prop where
  mem : MemInv s
  cxl : s.cachesCxl
  parts : Says.noPartials s

/-- u has clean homes, and the bytes of s outside CXL memory. -/
structure State.PlainKept (s u : State) : Prop where
  clean : u.HomesClean
  peek : ∀ a, isCxl a = false → u.peek a = s.peek a

theorem State.HomesClean.kept {s : State} (h : s.HomesClean) : s.PlainKept s := ⟨h, fun _ _ => rfl⟩
theorem State.PlainKept.trans {s u v : State} (h : s.PlainKept u) (k : u.PlainKept v) : s.PlainKept v :=
  ⟨k.clean, fun a ha => (k.peek a ha).trans (h.peek a ha)⟩

/-- A line that leaves its cache part is written back to CXL memory alone. -/
theorem State.plainKept_evict {s : State} (h : s.HomesClean) (line : Nat) : s.PlainKept (s.evict line) := by
  unfold State.evict
  split
  · rename_i c hc
    have hl : isCxl (64 * line) = true := h.cxl _ (Tbl.mem_of_find? hc)
    have hw := State.memInv_memWr s line c h.mem
    refine ⟨⟨⟨hw.1, Tbl.ordered_erase _ hw.2.1, hw.2.2⟩, fun q hq => ?_, ?_⟩, fun a ha => ?_⟩
    · have := Tbl.mem_erase hq
      rw [State.memWr_cxl] at this
      exact h.cxl q this
    · intro q hq
      exact h.parts q (State.memWr_tiles s line c ▸ hq)
    · rw [← State.peek_memWr_plain h.mem c hl ha]
      exact State.peek_plain_congr ha rfl rfl rfl fun _ => rfl
  · exact h.kept

/-- A CXL line enters its cache part. -/
theorem State.plainKept_putCxl {s : State} (h : s.HomesClean) {line : Nat} (c : CLine) (hl : isCxl (64 * line) = true) :
    s.PlainKept { s with mem := { s.mem with cxl := Tbl.put s.mem.cxl line c } } := by
  refine ⟨⟨State.memInv_putCxl s line c h.mem, fun q hq => ?_, h.parts⟩, fun a ha => State.peek_plain_congr ha rfl rfl rfl fun _ => rfl⟩
  rcases Tbl.mem_put hq with rfl | hq
  · exact hl
  · exact h.cxl q hq

theorem State.plainKept_touch {s : State} (h : s.HomesClean) (home set way : Nat) : s.PlainKept (s.touch home set way) :=
  ⟨⟨State.memInv_touch s home set way h.mem, h.cxl, h.parts⟩, fun _ ha => State.peek_plain_congr ha rfl rfl rfl fun _ => rfl⟩

theorem State.plainKept_allocate {s : State} (h : s.HomesClean) (p tenant : Nat) {line : Nat} (hl : isCxl (64 * line) = true) :
    s.PlainKept (s.allocate p tenant line) := by
  unfold State.allocate
  split
  · exact h.kept
  · split
    · exact h.kept
    · split
      · exact State.plainKept_touch h _ _ _
      · dsimp only
        have entered := fun (u : State) (hu : s.PlainKept u) (c : CLine) =>
          have hp := State.plainKept_putCxl hu.clean c hl
          hu.trans (hp.trans (State.plainKept_touch hp.clean c.home c.set c.way))
        split
        · exact entered _ (State.plainKept_evict h _) _
        · exact entered s h.kept _

/-- Where no tile holds a partial there is nothing to gather (R194). -/
theorem State.gather_of_noPartials {s : State} (h : Says.noPartials s) (p tenant line : Nat) : s.gather p tenant line = s := by
  have hn : (s.tiles.filterMap fun (q : Nat × Tile) => if (fun _ => true) q.1 then Tbl.find? q.2.parts line else none) = [] := by
    rw [List.filterMap_eq_nil_iff]
    intro q hq
    simp [h q hq, Tbl.find?]
  unfold State.gather State.gatherFrom
  dsimp only
  split
  · rfl
  · rename_i hq
    exact absurd (hn.symm.trans hq) (by simp)

theorem State.plainKept_serve {s : State} (h : s.HomesClean) (p tenant line : Nat) (shu : Bool) : s.PlainKept (s.serve p tenant line shu) := by
  unfold State.serve
  rw [State.gather_of_noPartials h.parts]
  dsimp only
  split
  · rename_i hc
    exact State.plainKept_allocate h p tenant (Bool.and_eq_true_iff.1 hc).1
  · exact h.kept

/-- The tables of a walk are read at their homes. -/
theorem State.plainKept_walked {s : State} (h : s.HomesClean) (a : AsidHeld) (pva : Nat) : s.PlainKept (s.walked a pva) := by
  have hs := fun (u : State) (hu : s.PlainKept u) (pa : Nat) => hu.trans (State.plainKept_serve hu.clean a.part a.tenant (pa / 64) false)
  unfold State.walked
  split
  · exact hs _ h.kept _
  · dsimp only
    split
    · exact hs _ h.kept _
    · split
      · exact hs _ (hs _ h.kept _) _
      · exact hs _ (hs _ (hs _ h.kept _) _) _

theorem State.plainKept_engHold {s : State} (h : s.HomesClean) (e : Option Xlat) : s.PlainKept (s.engHold e) := by
  cases e with
  | none => exact h.kept
  | some e =>
    have hu : s.PlainKept (s.engUse e.asid) := by
      unfold State.engUse
      split
      · exact h.kept
      · exact ⟨⟨h.mem, h.cxl, h.parts⟩, fun _ ha => State.peek_plain_congr ha rfl rfl rfl fun _ => rfl⟩
    exact hu.trans (State.plainKept_walked hu.clean _ _)

theorem State.peekN_congr {s u : State} {pa n : Nat} (h : ∀ a, pa ≤ a → a < pa + n → u.peek a = s.peek a) : u.peekN pa n = s.peekN pa n := by
  induction n generalizing pa with
  | zero => rfl
  | succ n ih =>
    unfold State.peekN
    rw [h pa (Nat.le_refl _) (by omega), ih fun a h1 h2 => h a (by omega) (by omega)]

/-- An engine reads the bytes of a line that is not CXL memory as they lie there. -/
theorem State.engRead_plain {s : State} (h : s.HomesClean) (p : Nat) (e : Option Xlat) {pa n : Nat} (hp : isCxl pa = false) (hn : pa % 64 + n ≤ 64) :
    (s.engRead p e pa n).2.1 = s.peekN pa n := by
  have hk := fun tenant shu => (State.plainKept_engHold h e).trans (State.plainKept_serve (State.plainKept_engHold h e).clean p tenant (pa / 64) shu)
  have line : ∀ a, pa ≤ a → a < pa + n → isCxl a = false := fun a h1 h2 => by
    rw [← isCxl_line, show a / 64 = pa / 64 by omega, isCxl_line, hp]
  unfold State.engRead
  dsimp only
  unfold State.readN State.direct
  rw [isCxl_line, hp]
  exact State.peekN_congr fun a h1 h2 => (hk _ _).peek a (line a h1 h2)

/-! ## A window B access within one line -/

/-- A walk that refuses under a condition and yet finds a page went on. -/
theorem Walk.page_of_ite {c : Prop} [Decidable c] {a b : Walk} {e : Xlat} (ha : ∀ x, a ≠ .page x) (h : (if c then a else b) = .page e) : b = .page e := by
  split at h
  · exact absurd h (ha e)
  · exact h

/-- A page's frame is aligned to its lines, so a translation keeps a byte's place in its line. -/
theorem State.leaf_pa {s : State} {p asid tenant pva v : Nat} {sub : Bool} {e : Xlat} (h : s.leaf p asid tenant pva v sub = .page e) :
    e.pa pva % 64 = pva % 64 := by
  unfold State.leaf at h
  dsimp only at h
  by_cases hp : bit v 0 = true
  · rw [if_pos hp] at h
    have hg := Walk.page_of_ite (a := .absent 1) (fun _ hx => nomatch hx) h
    injection hg with he
    subst he
    cases sub
    · show (bits v 51 21 * 0x200000 + pva % 0x200000) % 64 = pva % 64
      omega
    · show (bits v 51 10 * 1024 + pva % 1024) % 64 = pva % 64
      omega
  · rw [if_neg hp] at h
    have hg := Walk.page_of_ite (fun _ hx => by split at hx <;> cases hx) h
    cases hg

theorem State.walk_pa {s : State} {a : AsidHeld} {p pva : Nat} {en : Bool} {e : Xlat} (h : s.walk a p pva en = .page e) : e.pa pva % 64 = pva % 64 := by
  unfold State.walk at h
  split at h
  · cases h
  · split at h
    · dsimp only at h
      split at h
      · cases h
      · exact State.leaf_pa h
    · dsimp only at h
      iterate 5
        split at h
        · cases h
      exact State.leaf_pa h

theorem State.wbAddr_pa {s : State} {vf pva pa : Nat} {write : Bool} {e : Xlat} (h : s.wbAddr vf pva write = some (pa, e)) : pa % 64 = pva % 64 := by
  unfold State.wbAddr at h
  split at h
  · rename_i x hw
    rw [Option.ite_none_right_eq_some] at h
    obtain ⟨-, h⟩ := h
    cases h
    exact State.walk_pa hw
  · cases h

/-- A range within one line is one piece. -/
theorem linePieces_one {k a n : Nat} (hn : 0 < n) (ha : a % 64 + n ≤ 64) : linePieces (k + 1) a n = [(a, n)] := by
  have hm : min n (64 - a % 64) = n := by omega
  rw [linePieces, if_neg (by omega)]
  dsimp only
  rw [hm, Nat.sub_self]
  cases k <;> rfl

/-- An access within one line of window B lies within the line that it names. -/
theorem State.wbPva_mod (s : State) (vf off : Nat) : s.wbPva vf off % 64 = off % 64 := by
  unfold State.wbPva
  omega

/-- A window B read within one line that is let through reads there as an engine does. -/
theorem exec_windowBRead_one {s : State} {vf off len pa : Nat} {e : Xlat} (hb : s.boot.phase = 3) (hn : 0 < len) (hl : off % 64 + len ≤ 64)
    (ho : off + len ≤ 2 ^ 34) (ha : s.wbAddr vf (s.wbPva vf off) false = some (pa, e)) :
    exec (.windowBRead vf off len) s =
      .next { (s.engRead (vf - 1) (some e) pa len).1 with
        reads := (s.engRead (vf - 1) (some e) pa len).1.reads ++ [natBytes (s.engRead (vf - 1) (some e) pa len).2.1 len] } := by
  have hp : linePieces (len + 1) (s.wbPva vf off) len = [(s.wbPva vf off, len)] := linePieces_one hn (by rw [State.wbPva_mod]; exact hl)
  have hv : ¬(s.vfOn = false ∨ 2 ^ 34 < off + len) := not_or.2 ⟨by simp [State.vfOn, hb], by omega⟩
  show execWindowBRead vf off len s = _
  unfold execWindowBRead
  rw [if_neg hv]
  simp [State.wbLines, hp, ha]

/-- R68: with clean homes, a window B read within one line that is not CXL memory returns the bytes that lie there: the
clause for which `not_hostPortWrites` has a counterexample, with the hypothesis that it lacks. -/
theorem windowBRead_returns_peekN {s : State} (h : s.HomesClean) {vf off len pa : Nat} {e : Xlat} (hb : s.boot.phase = 3) (hn : 0 < len)
    (hl : off % 64 + len ≤ 64) (ho : off + len ≤ 2 ^ 34) (ha : s.wbAddr vf (s.wbPva vf off) false = some (pa, e)) (hc : isCxl pa = false) :
    ∃ t, exec (.windowBRead vf off len) s = .next t ∧ t.reads = (s.engRead (vf - 1) (some e) pa len).1.reads ++ [natBytes (s.peekN pa len) len] := by
  have hm : pa % 64 + len ≤ 64 := by rw [State.wbAddr_pa ha, State.wbPva_mod]; exact hl
  refine ⟨_, exec_windowBRead_one hb hn hl ho ha, ?_⟩
  show _ ++ [natBytes (s.engRead (vf - 1) (some e) pa len).2.1 len] = _
  rw [State.engRead_plain h (vf - 1) (some e) hc hm]

/-! ## O45 -/

/-- A line of set 0 of slice 0. -/
def slice0Line (way : Nat) (dirty : Bool) : CLine := { home := 0, set := 0, way, data := 1, dirty }

/-- Partition 0 holds cluster 0 with one vault unit and a CXL range of 1 GiB on port M0; ASID 0 maps PVA 0, by a sub-page entry in that range, onto frame 0,
the first bytes of the vault. Tenant 0 has set 0 of slice 0, where the cache parts list these lines. -/
def throughCxlTable (cxl : Table CLine) : State :=
  { boot := { phase := 3 }
    pf := [(0x4000, 0x1000000000000), (0x4008, 0x40000000), (0x4010, 1), (0x4018, 1), (0x8000, 1), (0x8040, 5), (0x24000, 0x100)]
    parts := [(0, { enabled := true, homes := [0] })]
    engAsids := [{ asid := 0, root := 1, part := 0, tenant := 0, rgn := [(1, 0x1000000000000)] }]
    mem := { cells := [(portKey 0 0, 3)], cxl } }

/-- Sub-page 0 of ASID 0 on frame 0, readable. -/
def vaultSubPage : Xlat := { asid := 0, sub := true, page := 0, frame := 0, r := true, w := false, x := false }

/-- The hypotheses of `windowBRead_returns_peekN` can be met. -/
theorem windowBRead_returns_peekN_witness : ∃ t, exec (.windowBRead 1 0 1) (throughCxlTable []) = .next t ∧
    t.reads = ((throughCxlTable []).engRead 0 (some vaultSubPage) 0 1).1.reads ++ [natBytes ((throughCxlTable []).peekN 0 1) 1] :=
  windowBRead_returns_peekN ⟨by decide +kernel, fun _ h => (List.not_mem_nil h).elim, fun _ h => (List.not_mem_nil h).elim⟩
    rfl (by decide) (by decide) (by decide) (by decide +kernel) (by decide)

/-- The set is full, pseudo-LRU names way 0, and there the cache part lists, dirty, line 0, which is of the vault: no cache part caches it (R57). -/
def cachedVaultLine : State := throughCxlTable ((0, slice0Line 0 true) :: (List.range 15).map fun i => (2 ^ 42 + 1 + i, slice0Line (i + 1) false))

theorem cachedVaultLine_memInv : MemInv cachedVaultLine := by decide +kernel

theorem cachedVaultLine_noPartials : Says.noPartials cachedVaultLine := fun _ h => (List.not_mem_nil h).elim

theorem cachedVaultLine_wbAddr : cachedVaultLine.wbAddr 1 (cachedVaultLine.wbPva 1 0) false = some (0, vaultSubPage) := by decide +kernel

theorem cachedVaultLine_peekN : cachedVaultLine.peekN 0 1 = 0 := by decide +kernel

/-- The walk allocates the line of its sub-page table, and line 0 leaves its cache part for it: its bytes reach the vault before they are read there. -/
theorem cachedVaultLine_engRead : (cachedVaultLine.engRead 0 (some vaultSubPage) 0 1).2.1 = 1 := by decide +kernel

/-- Refutes O45: window B reads 1 where memory held 0. The clause asks nothing of the cache parts, and in `cachedVaultLine`, whose memory is canonical
(`cachedVaultLine_memInv`), they list a dirty line of the vault: the walk of the access writes it back over the byte that the access then reads. Accesses
allocate CXL lines only, so a run is not expected to reach such a state; where the cache parts list CXL lines only, the clause holds
(`windowBRead_returns_peekN`). -/
theorem not_hostPortWrites : ¬ Obligations.HostPortWrites := by
  unfold Obligations.HostPortWrites
  intro h
  obtain ⟨-, -, -, -, -, -, hread, -⟩ := h cachedVaultLine
  obtain ⟨hok, -⟩ := hread 1 0 1 rfl (by decide) (by decide) (by decide)
  obtain ⟨-, hpeek⟩ := hok 0 vaultSubPage cachedVaultLine_wbAddr
  have he := hpeek cachedVaultLine_noPartials (by decide)
  rw [cachedVaultLine_engRead, cachedVaultLine_peekN] at he
  exact absurd he (by decide)

end Sys2Proof.Machine
end

section
/-!
PROOFS. What reset leaves (R25, R66, R70, R72, R97, R108, R137), O60.
-/
namespace Sys2Proof.Machine

/-! ## Reset (R25, R66, R70, R97) -/

@[simp] theorem State.reset_pfr (off : Nat) : State.reset.pfr off = pfReset off := rfl
@[simp] theorem State.reset_vfReg (v off : Nat) : State.reset.vfReg v off = vfReset off := rfl
@[simp] theorem State.reset_tile (t : Nat) : State.reset.tile t = {} := rfl
@[simp] theorem State.reset_part (p : Nat) : State.reset.part p = {} := rfl

theorem pfReset_classW {off : Nat} (h : 0xA000 ≤ off) (h' : off < 0xA200) : pfReset off = 0x010204 := if_pos ⟨h, h'⟩
theorem pfReset_zero {off : Nat} (h : off < 0xA000 ∨ 0xA200 ≤ off) (ht : off ≠ 0x6800) : pfReset off = 0 := by
  unfold pfReset
  rw [if_neg (by omega), if_neg ht]

/-- Settles O60: an unwritten register reads as its reset value, and the registers of a partition's tables lie outside the range of CLASS_W. That reset leaves
memory with nothing listed, and empty what lives inside the machine alone, is the model's choice (logs 2, 7). -/
theorem resetState : Obligations.ResetState := by
  unfold Obligations.ResetState
  refine ⟨by decide, rfl, rfl, rfl, rfl, rfl, ?tile, fun v => ⟨rfl, rfl, rfl⟩, rfl, ?classes, ?parts⟩
  case tile =>
    refine fun t => ⟨rfl, rfl, rfl, rfl, ?_⟩
    rw [State.reset_tile]
    decide
  case classes =>
    intro p hp
    rw [State.reset_pfr]
    exact pfReset_classW (by omega) (by omega)
  case parts =>
    intro p hp
    rw [State.reset_pfr, State.reset_part]
    exact ⟨pfReset_zero (by omega) (by omega), rfl⟩

end Sys2Proof.Machine
end

section
/-!
PROOFS. The power manager and the gating of clusters (R18 to R22), O43: a window's reports leave the power manager's own state alone, so that the window's
row of R20 alone decides it.
-/
namespace Sys2Proof.Machine

/-! ## What a report of the part leaves: the power manager's state (R84, R86, R261 to R263) -/

theorem State.foldl_power {α : Type} {f : State → α → State} (h : ∀ u x, (f u x).power = u.power) (xs : List α) (s : State) :
    (xs.foldl f s).power = s.power :=
  List.foldlRecOn (motive := fun u => u.power = s.power) xs f rfl fun u hu x _ => (h u x).trans hu

@[simp] theorem State.pokeByte_power (s : State) (pa v : Nat) : (s.pokeByte pa v).power = s.power := by
  unfold State.pokeByte; repeat' split
  all_goals rfl
@[simp] theorem State.pokeRaw_power (s : State) (pa v n : Nat) : (s.pokeRaw pa v n).power = s.power := by
  induction n generalizing s pa v with
  | zero => rfl
  | succ n ih => rw [State.pokeRaw_succ, ih, State.pokeByte_power]

@[simp] theorem State.flushRing_power (s : State) (v n : Nat) : (s.flushRing v n).power = s.power := by
  induction n generalizing s with
  | zero => rfl
  | succ n ih =>
    unfold State.flushRing
    split
    · rfl
    · dsimp only
      split
      · rfl
      · rw [ih]
        repeat' split
        all_goals simp
@[simp] theorem State.complete_power (s : State) (v : Nat) (c : Completion) : (s.complete v c).power = s.power := State.flushRing_power _ _ _
@[simp] theorem State.endCmd_power (s : State) (v w : Nat) (c : Cmd) (start : Option Nat) (status detail : Nat) (holds : Bool) :
    (s.endCmd v w c start status detail holds).power = s.power := by
  unfold State.endCmd
  dsimp only
  rw [State.complete_power]
  split <;> rfl
@[simp] theorem State.completeCmd_power (s : State) (v w status detail : Nat) : (s.completeCmd v w status detail).power = s.power := by
  unfold State.completeCmd
  split
  · rfl
  · split
    · rfl
    · rw [State.endCmd_power, State.updWindow_power]
@[simp] theorem State.flushWindows_power (s : State) (v status : Nat) : (s.flushWindows v status).power = s.power := by
  refine State.foldl_power (fun u w => ?_) _ s
  dsimp only
  rw [State.foldl_power (fun u c => State.endCmd_power u v w c none status 0 false), State.updWindow_power, State.completeCmd_power]
@[simp] theorem State.firedOver_power (s : State) (l : Launch) (status : Nat) : (s.firedOver l status).power = s.power := by
  unfold State.firedOver
  split
  · exact State.complete_power _ _ _
  · rfl
@[simp] theorem State.haltPart_power (s : State) (p code reason tile : Nat) : (s.haltPart p code reason tile).power = s.power := by
  unfold State.haltPart
  split
  · rfl
  · dsimp only
    rw [State.raise_power, State.flushWindows_power, apply_ite State.power, State.setPf_power, ite_self]
    show State.power (List.foldl _ _ _) = _
    rw [State.foldl_power]
    · rfl
    · intro u l
      split
      · exact State.firedOver_power _ _ _
      · rfl
@[simp] theorem State.writeRec_power (s : State) (p : Nat) (r : TrapRec) : (s.writeRec p r).power = s.power := by
  unfold State.writeRec
  dsimp only
  rw [State.setTq_power]
  split <;> simp
@[simp] theorem State.pushRec_power (s : State) (p : Nat) (r : TrapRec) : (s.pushRec p r).power = s.power := by
  unfold State.pushRec
  dsimp only
  repeat' split
  all_goals simp
@[simp] theorem State.fatalReport_power (s : State) (p code reason tile : Nat) : (s.fatalReport p code reason tile).power = s.power := by
  unfold State.fatalReport
  dsimp only
  rw [State.haltPart_power]
  split <;> simp

/-! ## The windows of the power manager (R20) -/

theorem State.filter_enabled_nil {s : State} (h : ∀ p < 64, (s.part p).enabled = false) : ((List.range 64).filter fun p => (s.part p).enabled) = [] := by
  rw [List.filter_eq_nil_iff]
  intro p hp
  simp [h p (List.mem_range.1 hp)]

@[simp] theorem State.recordAll_power (s : State) (code : Nat) : (s.recordAll code).power = s.power :=
  State.foldl_power (fun u p => State.pushRec_power u p _) _ s
/-- A record goes to the enabled partitions, so with none enabled to nobody (log 72). -/
theorem State.recordAll_of_disabled {s : State} (h : ∀ p < 64, (s.part p).enabled = false) (code : Nat) : s.recordAll code = s := by
  unfold State.recordAll
  rw [State.filter_enabled_nil h]
  rfl

/-- R20 below 105 °C: the clock setting alone follows from the window. -/
theorem exec_powerWindow_below {s : State} {tj : Nat} (watts : Nat) (hs : s.power.shut = false) (ht : tj < 105) :
    exec (.powerWindow tj watts) s = .next { s with power := { Says.windowed s.power tj watts with target := Says.setting s.power watts } } := by
  show execPowerWindow tj watts s = _
  unfold execPowerWindow Says.setting
  dsimp only
  rw [if_neg (Bool.eq_false_iff.1 hs), if_neg (show ¬115 ≤ tj by omega), if_neg (show ¬105 ≤ tj by omega)]
  by_cases h2 : s.power.target = 2
  · rw [if_pos h2, if_pos h2]
    simp [Says.windowed, h2]
  · rw [if_neg h2, if_neg h2]
    by_cases hw : 1950 < watts ∧ s.power.narrow = true
    · rw [if_pos hw, if_pos hw]
      rfl
    · rw [if_neg hw, if_neg hw]
      by_cases h1 : s.power.target = 1 ∧ watts < 1800 ∧ 10 ≤ s.power.lowWin + 1
      · obtain ⟨h1, hl, hc⟩ := h1
        simp [Says.windowed, State.setClock, h1, hl, hc]
      · rw [if_neg h1, if_neg]
        · rfl
        · rintro ⟨h, hc⟩
          split at hc
          · omega
          · omega

/-- R20 at 105 °C and more, below 115 °C: 0.7 GHz and a record; PF vector 1 as THERM_EV becomes set. -/
theorem exec_powerWindow_hot {s : State} {tj : Nat} (watts : Nat) (hs : s.power.shut = false) (ht : 105 ≤ tj) (ht' : tj < 115) :
    let u : State := { s with power := { Says.windowed s.power tj watts with target := 2, thermEv := true } }
    exec (.powerWindow tj watts) s = .next ((if s.power.thermEv then u else u.raise 0 1).recordAll 65) := by
  show execPowerWindow tj watts s = _
  unfold execPowerWindow
  dsimp only
  rw [if_neg (Bool.eq_false_iff.1 hs), if_neg (show ¬115 ≤ tj by omega), if_pos ht]
  rfl

/-- R20 at 115 °C and more: shutdown, with a fatal report to the enabled partitions. -/
theorem exec_powerWindow_shutdown {s : State} {tj : Nat} (watts : Nat) (hs : s.power.shut = false) (ht : 115 ≤ tj) :
    let u : State := { s with power := { Says.windowed s.power tj watts with shut := true } }
    exec (.powerWindow tj watts) s =
      .next (((List.range 64).filter fun p => (s.part p).enabled).foldl (fun (v : State) p => v.fatalReport p 97 3 0xFFFF) u) := by
  show execPowerWindow tj watts s = _
  unfold execPowerWindow
  dsimp only
  rw [if_neg (Bool.eq_false_iff.1 hs), if_pos ht]
  rfl

theorem exec_thermalRecovery {s : State} (ht : s.power.target = 2) (hc : 10 ≤ s.power.coolWin) :
    exec .thermalRecovery s = .next { s with power := { s.power with coolWin := 0, target := 0 } } := by
  show execThermalRecovery s = _
  unfold execThermalRecovery
  rw [if_pos ⟨ht, hc⟩]
  rfl

/-! ## Cluster gating (R21, R22) -/

theorem bit_eq_testBit (v n : Nat) : bit v n = v.testBit n := (Nat.testBit_eq_decide_div_mod_eq).symm

theorem bit_or_two_pow (v n : Nat) : bit (v ||| 2 ^ n) n = true := by
  rw [bit_eq_testBit, Nat.testBit_or, Nat.testBit_two_pow_self, Bool.or_true]

/-- A gating request for a cluster that is there, with no other under way: refused over mappings, over at once where nothing changes, begun otherwise. -/
theorem State.gateRequest_of {s : State} {w n : Nat} (off : Bool) (hgo : bit w 63 = true) (hn : bits w 8 0 = n) (hr : bits w 61 9 = 0)
    (hg : s.gate = none) (hh : bit s.boot.sliceHarv n = false) :
    s.gateRequest w off =
      if (off && !bit s.gated n && s.vaultMapped n) = true then s.setPf 0xA608 2
      else if bit s.gated n = off then s.setPf 0xA608 0
      else State.setPf { s with gate := some (n, off) } 0xA608 1 := by
  unfold State.gateRequest State.gateStatus
  simp only [hgo, hn, hr, hg, hh]
  by_cases hm : (off && !bit s.gated n && s.vaultMapped n) = true <;> simp [hm]

/-- The fields of a gating request for cluster n: GO, OFF as asked, and no reserved bit. -/
theorem gateWord_fields {n : Nat} (hn : n < 512) (off : Bool) :
    let w := (BitVec.ofNat 64 (if off then 2 ^ 63 + 2 ^ 62 + n else 2 ^ 63 + n)).toNat
    bit w 63 = true ∧ bit w 62 = off ∧ bits w 8 0 = n ∧ bits w 61 9 = 0 := by
  cases off
  all_goals
    simp only [bit, bits, BitVec.toNat_ofNat, decide_eq_true_eq, decide_eq_false_iff_not, if_true, Bool.false_eq_true, if_false]
    omega

theorem exec_clusterPowerGate (s : State) {n : Nat} (hn : n < 512) :
    exec (.clusterPowerGate (BitVec.ofNat 64 (2 ^ 63 + 2 ^ 62 + n))) s = .next (s.gateRequest (BitVec.ofNat 64 (2 ^ 63 + 2 ^ 62 + n)).toNat true) :=
  if_pos (gateWord_fields hn true).2.1

theorem exec_clusterUngate (s : State) {n : Nat} (hn : n < 512) :
    exec (.clusterUngate (BitVec.ofNat 64 (2 ^ 63 + n))) s = .next (s.gateRequest (BitVec.ofNat 64 (2 ^ 63 + n)).toNat false) :=
  if_neg (Bool.eq_false_iff.1 (gateWord_fields hn false).2.1)

/-- R22: an ungated cluster is on. -/
theorem exec_clusterGateComplete_on {s : State} {n : Nat} (hg : s.gate = some (n, false)) (hn : bit s.gated n = true) :
    exec .clusterGateComplete s = .next (State.setPf { s with gate := none, gated := s.gated - 2 ^ n } 0xA608 0) := by
  show execClusterGateComplete s = _
  unfold execClusterGateComplete
  rw [hg]
  dsimp only
  rw [if_neg Bool.false_ne_true, if_pos hn]

/-- R21: mappings made meanwhile refuse a gating that is under way. -/
theorem exec_clusterGateComplete_refused {s : State} {n : Nat} (hg : s.gate = some (n, true)) (hu : s.clusterUsed n = false) (hc : s.clusterCounts n = false)
    (hm : s.vaultMapped n = true) : exec .clusterGateComplete s = .next (State.setPf { s with gate := none } 0xA608 2) := by
  show execClusterGateComplete s = _
  unfold execClusterGateComplete
  rw [hg]
  dsimp only
  rw [if_pos rfl, hu, hc, if_neg (by decide), if_pos hm]

/-- R21: a gated cluster's slice has left the home lists, and it is off. -/
theorem exec_clusterGateComplete_off {s : State} {n : Nat} (hg : s.gate = some (n, true)) (hu : s.clusterUsed n = false) (hc : s.clusterCounts n = false)
    (hm : s.vaultMapped n = false) :
    let u := s.parts.foldl (fun (v : State) q => v.leaveList q.1 n) s
    exec .clusterGateComplete s = .next (State.setPf { u with gate := none, gated := u.gated ||| 2 ^ n } 0xA608 0) := by
  show execClusterGateComplete s = _
  unfold execClusterGateComplete
  rw [hg]
  dsimp only
  rw [if_pos rfl, hu, hc, if_neg (by decide), if_neg (by rw [hm]; decide)]

/-! ## O43 -/

/-- Settles O43: the first row of R20 that applies to a window decides; no report of a window changes the power manager; a gating request whose cluster is
there and that meets no other under way is refused over mappings alone. With no partition enabled there is nobody to report to (log 72). -/
theorem powerManaged : Obligations.PowerManaged := by
  unfold Obligations.PowerManaged
  intro s
  refine ⟨fun tj watts hs => ⟨exec_powerWindow_below watts hs, ?hot, ?hotNone, ?shutNone, ?shut⟩, exec_thermalRecovery, rfl, ?request,
    fun n => exec_clusterGateComplete_on, ?complete⟩
  case hot =>
    refine fun ht ht' => ⟨_, exec_powerWindow_hot watts hs ht ht', ?_⟩
    rw [State.recordAll_power]
    split <;> rfl
  case hotNone =>
    intro ht ht' hp
    rw [exec_powerWindow_hot watts hs ht ht', State.recordAll_of_disabled]
    · split
      · rw [List.append_nil]
      · rfl
    · split <;> exact hp
  case shutNone =>
    intro ht hp
    rw [exec_powerWindow_shutdown watts hs ht, State.filter_enabled_nil hp]
    rfl
  case shut =>
    refine fun ht => ⟨_, exec_powerWindow_shutdown watts hs ht, ?_⟩
    rw [State.foldl_power fun u p => State.fatalReport_power u p 97 3 0xFFFF]
  case request =>
    intro n hn hg hh
    obtain ⟨hgo, -, hf, hr⟩ := gateWord_fields hn true
    obtain ⟨hgo', -, hf', hr'⟩ := gateWord_fields hn false
    have hoff := State.gateRequest_of true hgo hf hr hg hh
    have hon := State.gateRequest_of false hgo' hf' hr' hg hh
    simp only [if_true] at hoff
    simp only [Bool.false_eq_true, if_false] at hon
    rw [exec_clusterPowerGate s hn, exec_clusterUngate s hn, hoff, hon]
    exact ⟨fun h hm => by simp [h, hm], fun h hm => by simp [h, hm], fun h => by simp [h]⟩
  case complete =>
    intro n hg hu hc
    cases hm : s.vaultMapped n with
    | true => exact ⟨_, exec_clusterGateComplete_refused hg hu hc hm, rfl, rfl, State.pfr_setPf_same _ _ _⟩
    | false => exact ⟨_, exec_clusterGateComplete_off hg hu hc hm, rfl, bit_or_two_pow _ n, State.pfr_setPf_same _ _ _⟩

end Sys2Proof.Machine
end

section
/-!
PROOFS. Boot and attestation (R24 to R31), O42: where each stage of boot leads, what the recovery buffer holds, and what the responder answers.
-/
namespace Sys2Proof.Machine

/-! ## The phases of boot (R24, R25, R28, R71) -/

theorem State.setPhase_of_ne {s : State} {n : Nat} (h : s.boot.phase ≠ n) : s.setPhase n = Says.phased s s.boot n := if_neg h
theorem State.setPhase_withBoot (s : State) {b : Boot} {n : Nat} (h : b.phase ≠ n) : State.setPhase { s with boot := b } n = Says.phased s b n := if_neg h
theorem State.bootFail_of_ne {s : State} {n : Nat} (code : Nat) (h : s.boot.phase ≠ n) :
    s.bootFail code n = Says.phased s { s.boot with fail := code } n := State.setPhase_withBoot s h
theorem State.runImage_of_ne {s : State} (t : Table Byte) (h : s.boot.phase ≠ 2) :
    s.runImage t = Says.phased s { s.boot with image := t, secVer := imgField t 0xC 2 } 2 := State.setPhase_withBoot s h

theorem headerFail_of_good {t : Table Byte} (h : imgField t 0 4 = 0x4A564657 ∧ imgField t 4 4 = 1) : headerFail t = 0 := if_pos h
theorem headerFail_of_bad {t : Table Byte} (h : imgField t 0 4 ≠ 0x4A564657 ∨ imgField t 4 4 ≠ 1) : headerFail t = 1 :=
  if_neg (Classical.not_and_iff_not_or_not.2 h)

/-- R25: the part after its reset, before the ROM's verdict on the header: the slot and memory outlive it (log 13), and phase 0 raises PF vector 0 if it is
not the phase that was. -/
def State.afterPfReset (s : State) : State :=
  let r : State := { cyc := s.cyc, agenda := s.agenda, nextId := s.nextId, uses := s.uses, mem := s.mem, ref6 := s.ref6, ethDown := s.ethDown
                     cxlDown := s.cxlDown, ssdDown := s.ssdDown, boot := { slot := s.boot.slot } }
  if s.boot.phase = 0 then r else r.raise 0 0

@[simp] theorem State.afterPfReset_boot (s : State) : s.afterPfReset.boot = { slot := s.boot.slot } := by unfold State.afterPfReset; split <;> rfl
@[simp] theorem State.afterPfReset_mem (s : State) : s.afterPfReset.mem = s.mem := by unfold State.afterPfReset; split <;> rfl
@[simp] theorem State.afterPfReset_tiles (s : State) : s.afterPfReset.tiles = [] := by unfold State.afterPfReset; split <;> rfl
@[simp] theorem State.afterPfReset_launches (s : State) : s.afterPfReset.launches = [] := by unfold State.afterPfReset; split <;> rfl
@[simp] theorem State.afterPfReset_feats (s : State) : s.afterPfReset.feats = 0 := by unfold State.afterPfReset; split <;> rfl

theorem exec_pfReset (s : State) :
    exec .pfReset s = .next (if headerFail s.boot.slot = 0 then s.afterPfReset.setPhase 1 else s.afterPfReset.bootFail (headerFail s.boot.slot) 4) := by
  show execPfReset s = _
  unfold execPfReset
  dsimp only
  cases headerFail s.boot.slot <;> rfl

/-- R25: with a good header the ROM goes on to verify the slot's image. -/
theorem exec_pfReset_good {s : State} (h : headerFail s.boot.slot = 0) : exec .pfReset s = .next (Says.phased s.afterPfReset s.afterPfReset.boot 1) := by
  rw [exec_pfReset, if_pos h, State.setPhase_of_ne (by simp)]
/-- R25: a bad header leaves the part to recovery. -/
theorem exec_pfReset_bad {s : State} (h : headerFail s.boot.slot = 1) :
    exec .pfReset s = .next (Says.phased s.afterPfReset { s.afterPfReset.boot with fail := 1 } 4) := by
  rw [exec_pfReset, h, if_neg Nat.one_ne_zero, State.bootFail_of_ne _ (by simp)]

theorem exec_bootVerifyDone {s : State} (hp : s.boot.phase = 1) :
    exec .bootVerifyDone s = .next (if verifyFail s.boot.slot 0x1000000 = 0 then
        Says.phased s { s.boot with image := s.boot.slot, secVer := imgField s.boot.slot 0xC 2 } 2
      else Says.phased s { s.boot with fail := verifyFail s.boot.slot 0x1000000 } 4) := by
  show execBootVerifyDone s = _
  unfold execBootVerifyDone
  rw [if_neg (Classical.not_not.2 hp)]
  split
  · rename_i h
    rw [if_pos h, State.runImage_of_ne _ (by omega)]
  · rename_i h
    rw [if_neg h, State.bootFail_of_ne _ (by omega)]

theorem exec_firmwareBringupDone {s : State} (ok : Bool) (hp : s.boot.phase = 2) :
    exec (.firmwareBringupDone ok) s = .next (if configOk s.boot.image = false then Says.phased s { s.boot with fail := 4 } 4
      else if ok = false then Says.phased s { s.boot with fail := 5 } 6
      else Says.phased s { s.boot with
        tileHarv := cfgField s.boot.image 0x48 512, sliceHarv := cfgField s.boot.image 0x248 64, retireCe := cfgField s.boot.image 0x294 2
        ethLanes := (List.range 8).map fun i => cfgField s.boot.image (0x288 + i) 1
        storBif := (List.range 4).map fun i => cfgField s.boot.image (0x290 + i) 1, offer := cfgField s.boot.image 0x298 32 &&& implemented } 3) := by
  show execFirmwareBringupDone ok s = _
  unfold execFirmwareBringupDone
  dsimp only
  rw [if_neg (Classical.not_not.2 hp)]
  cases configOk s.boot.image with
  | false => exact congrArg Host.Outcome.next (State.bootFail_of_ne 4 (by omega))
  | true =>
    cases ok with
    | false => exact congrArg Host.Outcome.next (State.bootFail_of_ne 5 (by omega))
    | true => exact congrArg Host.Outcome.next (State.setPhase_withBoot s (by rw [hp]; decide))

theorem bit_zero_iff (v : Nat) : bit v 0 = true ↔ v % 2 = 1 := by simp [bit]

theorem exec_recoveryGo (s : State) (v : Word) :
    exec (.recoveryGo v) s = .next (if s.boot.phase = 4 ∧ v.toNat % 2 = 1 then
        Says.phased s { s.boot with rcvLen := v.toNat / 2 ^ 32, commit := decide (v.toNat / 2 % 2 = 1) } 5
      else { s with boot := { s.boot with rcvLen := v.toNat / 2 ^ 32 } }) := by
  have hlen : bits v.toNat 63 32 = v.toNat / 2 ^ 32 := Nat.mod_eq_of_lt (by omega)
  have hgo := bit_zero_iff v.toNat
  show execRecoveryGo v s = _
  unfold execRecoveryGo
  dsimp only
  rw [hlen]
  by_cases h : s.boot.phase = 4 ∧ v.toNat % 2 = 1
  · rw [if_pos h, if_pos ⟨h.1, hgo.2 h.2⟩]
    exact congrArg Host.Outcome.next (State.setPhase_withBoot s (by rw [h.1]; decide))
  · rw [if_neg h, if_neg fun hb => h ⟨hb.1, hgo.1 hb.2⟩]

theorem exec_recoveryVerifyDone {s : State} (hp : s.boot.phase = 5) :
    exec .recoveryVerifyDone s = .next (if headerFail s.boot.rcv ≠ 0 then Says.phased s { s.boot with fail := 1 } 4
      else if verifyFail s.boot.rcv s.boot.rcvLen ≠ 0 then Says.phased s { s.boot with fail := verifyFail s.boot.rcv s.boot.rcvLen } 4
      else Says.phased s { s.boot with writing := s.boot.commit, image := s.boot.rcv, secVer := imgField s.boot.rcv 0xC 2 } 2) := by
  show execRecoveryVerifyDone s = _
  unfold execRecoveryVerifyDone
  dsimp only
  rw [if_neg (Classical.not_not.2 hp)]
  by_cases hh : headerFail s.boot.rcv ≠ 0
  · rw [if_pos hh, if_pos hh, if_pos (by decide)]
    exact congrArg Host.Outcome.next (State.bootFail_of_ne _ (by omega))
  · rw [if_neg hh, if_neg hh]
    split
    · exact congrArg Host.Outcome.next (State.bootFail_of_ne _ (by omega))
    · exact congrArg Host.Outcome.next (State.runImage_of_ne _ (by rw [hp]; decide))

theorem exec_slotWriteDone {s : State} (ok : Bool) (hw : s.boot.writing = true) :
    exec (.slotWriteDone ok) s = .next { s with boot := if ok then { s.boot with writing := false, slot := s.boot.image }
                                                        else { s.boot with writing := false, slot := [], fail := 6 } } := by
  show execSlotWriteDone ok s = _
  unfold execSlotWriteDone
  rw [hw]
  cases ok <;> rfl

/-! ## The recovery buffer (R25) -/

/-- A table after several writes reads, where none of them was, as before. -/
theorem Tbl.getD_foldl_put_other {α : Type} {xs : List (Nat × α)} (t : Table α) {k : Nat} (d : α) (h : ∀ x ∈ xs, x.1 ≠ k) :
    Tbl.getD (xs.foldl (fun m x => Tbl.put m x.1 x.2) t) k d = Tbl.getD t k d :=
  List.foldlRecOn (motive := fun m => Tbl.getD m k d = Tbl.getD t k d) xs _ rfl fun m hm x hx => by
    rw [Tbl.getD_put_other m x.2 d (h x hx).symm, hm]

/-- A table after several writes that agree where they meet reads what was written. -/
theorem Tbl.getD_foldl_put_of_mem {α : Type} {xs : List (Nat × α)} {t : Table α} {k : Nat} {v : α} (d : α) (hm : (k, v) ∈ xs)
    (hu : ∀ x ∈ xs, x.1 = k → x.2 = v) : Tbl.getD (xs.foldl (fun m x => Tbl.put m x.1 x.2) t) k d = v := by
  induction xs generalizing t with
  | nil => cases hm
  | cons x xs ih =>
    by_cases hx : (k, v) ∈ xs
    · exact ih hx fun y hy => hu y (List.mem_cons_of_mem x hy)
    · have hk : ∀ y ∈ xs, y.1 ≠ k := fun y hy hk => hx (by
        rw [← hk, ← hu y (List.mem_cons_of_mem x hy) hk]
        exact hy)
      rw [List.foldl_cons, Tbl.getD_foldl_put_other _ d hk]
      obtain rfl := (List.mem_cons.1 hm).resolve_right hx
      exact Tbl.getD_put_same t k v d

/-- The bytes that a write of the recovery buffer stores. -/
def recoveryCells (off : Nat) (data : List Byte) : List (Nat × Byte) :=
  (data.mapIdx fun i b => (off + i, b)).filter fun x => decide (x.1 < 0x1000000)

theorem exec_recoveryBufferWrite {s : State} (off : Nat) (data : List Byte) (hp : s.boot.phase ≠ 5) :
    exec (.recoveryBufferWrite off data) s =
      .next { s with boot := { s.boot with rcv := (recoveryCells off data).foldl (fun m x => Tbl.put m x.1 x.2) s.boot.rcv } } :=
  if_neg hp

theorem mem_recoveryCells {off : Nat} {data : List Byte} {x : Nat × Byte} :
    x ∈ recoveryCells off data ↔ ∃ i < data.length, off + i < 0x1000000 ∧ x = (off + i, data.getD i 0) := by
  have byte : ∀ i (hi : i < data.length), data.getD i 0 = data[i] := fun i hi => by
    rw [List.getD_eq_getElem?_getD, List.getElem?_eq_getElem hi, Option.getD_some]
  unfold recoveryCells
  rw [List.mem_filter, List.mem_mapIdx]
  constructor
  · rintro ⟨⟨i, hi, rfl⟩, hb⟩
    exact ⟨i, hi, of_decide_eq_true hb, by rw [byte i hi]⟩
  · rintro ⟨i, hi, hb, rfl⟩
    exact ⟨⟨i, hi, by rw [byte i hi]⟩, decide_eq_true hb⟩

theorem getD_recoveryCells_written {off i : Nat} {data : List Byte} (t : Table Byte) (hi : i < data.length) (hb : off + i < 0x1000000) :
    Tbl.getD ((recoveryCells off data).foldl (fun m x => Tbl.put m x.1 x.2) t) (off + i) 0 = data.getD i 0 := by
  refine Tbl.getD_foldl_put_of_mem 0 (mem_recoveryCells.2 ⟨i, hi, hb, rfl⟩) fun x hx hk => ?_
  obtain ⟨j, -, -, rfl⟩ := mem_recoveryCells.1 hx
  rw [Nat.add_left_cancel hk]

theorem getD_recoveryCells_other {off a : Nat} {data : List Byte} (t : Table Byte) (ha : a < off ∨ off + data.length ≤ a) :
    Tbl.getD ((recoveryCells off data).foldl (fun m x => Tbl.put m x.1 x.2) t) a 0 = Tbl.getD t a 0 := by
  refine Tbl.getD_foldl_put_other t 0 fun x hx => ?_
  obtain ⟨j, hj, -, rfl⟩ := mem_recoveryCells.1 hx
  show off + j ≠ a
  omega

/-! ## The responder (R29 to R31) -/

theorem State.spdm_of_phase {s : State} (h : s.boot.phase = 3) (f : State → State) : s.spdm f = .next (f s) := if_pos h

/-- A reply whose transcripts do not depend on the replies before it. -/
theorem State.spdmReply_eq_answered (s : State) (m : List Byte) {f : Boot → Boot} (h : ∀ b r, f { b with replies := r } = { f b with replies := r }) :
    s.spdmReply m f = Says.answered s (f s.boot) m := by
  unfold State.spdmReply Says.answered
  rw [h]

theorem natBytes_one (v : Nat) : natBytes v 1 = [BitVec.ofNat 8 v] := by simp [natBytes]

/-- R31: a measurement block as its bytes. -/
theorem State.measureBlock_eq (s : State) (k : Nat) : s.measureBlock k = Says.measBlock s k := by
  unfold State.measureBlock Says.measBlock State.bregorRecord
  rw [natBytes_one, show natBytes 75 2 = [75, 0] from rfl, show natBytes 72 2 = [72, 0] from rfl]
  by_cases h1 : k = 1
  · subst h1
    rfl
  · by_cases h2 : k = 2
    · subst h2
      rfl
    · rw [if_neg h1, if_neg h2, if_neg h1, if_neg h2]
      simp [natBytes]

/-- R31: the four records of a request for all of them. -/
def State.allRecords (s : State) : List Byte := Says.measBlock s 1 ++ (Says.measBlock s 2 ++ (Says.measBlock s 3 ++ (Says.measBlock s 4 ++ [])))

theorem State.measureBlocks_all (s : State) : (s.measureBlocks 0xFF).flatten = s.allRecords := by
  unfold State.allRecords
  iterate 4 rw [← State.measureBlock_eq]
  rfl
theorem State.measureBlocks_one (s : State) {k : Nat} (h : 1 ≤ k) (h' : k ≤ 4) : s.measureBlocks k = [Says.measBlock s k] := by
  unfold State.measureBlocks
  rw [if_neg (by omega), if_neg (by omega), State.measureBlock_eq]

/-- R31: index k asks for n records, whose blocks are the bytes rs. -/
def State.asksFor (s : State) (k n : Nat) (rs : List Byte) : Prop :=
  (k = 0 ∧ n = 0 ∧ rs = []) ∨ (1 ≤ k ∧ k ≤ 4 ∧ n = 1 ∧ rs = Says.measBlock s k ++ []) ∨ (k = 0xFF ∧ n = 4 ∧ rs = s.allRecords)

theorem State.measureBlocks_of_asksFor {s : State} {k n : Nat} {rs : List Byte} (h : s.asksFor k n rs) :
    (s.measureBlocks k).length = n ∧ (s.measureBlocks k).flatten = rs ∧ ¬(4 < k ∧ k ≠ 0xFF) := by
  rcases h with ⟨rfl, rfl, rfl⟩ | ⟨h1, h4, rfl, rfl⟩ | ⟨rfl, rfl, rfl⟩
  · exact ⟨rfl, rfl, by decide⟩
  · rw [s.measureBlocks_one h1 h4]
    exact ⟨rfl, rfl, by omega⟩
  · exact ⟨rfl, s.measureBlocks_all, by decide⟩

theorem exec_spdmGetVersion {s : State} (hp : s.boot.phase = 3) :
    exec .spdmGetVersion s = .next (Says.answered s
      { s.boot with transcript := [0x10, 0x84, 0, 0] ++ [0x10, 0x04, 0, 0, 0, 1, 0, 0x13], certs := [], meas := [] } [0x10, 0x04, 0, 0, 0, 1, 0, 0x13]) := by
  show execSpdmGetVersion s = _
  unfold execSpdmGetVersion
  rw [State.spdm_of_phase hp, State.spdmReply_eq_answered s _ fun _ _ => rfl]

/-- The CAPABILITIES response. -/
def capabilities : List Byte :=
  [0x13, 0x61, 0, 0] ++ natBytes (256 * Config.spdmSize 0) 2 ++ [0, 0] ++ [0x16, 0, 0, 0] ++ natBytes (Config.spdmSize 1) 4 ++ natBytes (Config.spdmSize 2) 4

theorem exec_spdmGetCapabilities {s : State} (hp : s.boot.phase = 3) :
    exec .spdmGetCapabilities s = .next (Says.answered { s with uses := s.uses + 1 }
      { s.boot with transcript := s.boot.transcript ++ ([0x13, 0xE1, 0, 0] ++ natBytes (Config.requester s.uses).toNat 16 ++ capabilities), meas := [] } capabilities) := by
  show execSpdmGetCapabilities s = _
  unfold execSpdmGetCapabilities
  dsimp only
  rw [State.spdm_of_phase hp, State.spdmReply_eq_answered _ _ fun _ _ => rfl]
  rfl

/-- The ALGORITHMS response: Ed448, SHA3-512 and, where the requester takes them, measurements. -/
def algorithms (body : List Byte) : List Byte :=
  let meas := spdmField body 2 1 % 2
  [0x13, 0x63, 0, 0] ++ [36, 0] ++ natBytes meas 1 ++ [0] ++ natBytes meas 4 ++ [0, 8, 0, 0] ++ [0x20, 0, 0, 0] ++ natBytes 0 16

/-- Whether a requester offers Ed448 and SHA3-512. -/
def offersAlgorithms (body : List Byte) : Prop := spdmField body 4 4 / 2 ^ 11 % 2 = 1 ∧ spdmField body 8 4 / 2 ^ 5 % 2 = 1

theorem offersAlgorithms_iff (body : List Byte) : (bit (spdmField body 4 4) 11 && bit (spdmField body 8 4) 5) = true ↔ offersAlgorithms body := by
  simp [bit, offersAlgorithms]

theorem exec_spdmNegotiateAlgorithms {s : State} (hp : s.boot.phase = 3) (k : Nat) {body : List Byte} (ho : offersAlgorithms body) :
    exec (.spdmNegotiateAlgorithms k body) s = .next (Says.answered s
      { s.boot with transcript := s.boot.transcript ++ ([0x13, 0xE3, BitVec.ofNat 8 k, 0] ++ body ++ algorithms body), meas := [] } (algorithms body)) := by
  show execSpdmNegotiateAlgorithms k body s = _
  unfold execSpdmNegotiateAlgorithms
  dsimp only
  rw [State.spdm_of_phase hp, if_pos ((offersAlgorithms_iff body).2 ho), State.spdmReply_eq_answered _ _ fun _ _ => rfl]
  rfl

theorem exec_spdmNegotiateAlgorithms_refused {s : State} (hp : s.boot.phase = 3) (k : Nat) {body : List Byte} (ho : ¬offersAlgorithms body) :
    exec (.spdmNegotiateAlgorithms k body) s = .next (Says.turnedAway s 1 0) := by
  show execSpdmNegotiateAlgorithms k body s = _
  unfold execSpdmNegotiateAlgorithms
  dsimp only
  rw [State.spdm_of_phase hp, if_neg (ho ∘ (offersAlgorithms_iff body).1)]
  rfl

theorem exec_spdmGetDigests {s : State} (hp : s.boot.phase = 3) :
    exec .spdmGetDigests s = .next (Says.answered s
      { s.boot with certs := [0x13, 0x81, 0, 0] ++ ([0x13, 0x01, 1, 1] ++ Config.sha3 s.certChain), meas := [] }
      ([0x13, 0x01, 1, 1] ++ Config.sha3 s.certChain)) := by
  show execSpdmGetDigests s = _
  unfold execSpdmGetDigests
  dsimp only
  rw [State.spdm_of_phase hp, State.spdmReply_eq_answered _ _ fun _ _ => rfl]
  rfl

/-- The CERTIFICATE response with this part of the chain. -/
def State.certificate (s : State) (off : Nat) (part : List Byte) : List Byte :=
  [0x13, 0x02, 0, 0] ++ natBytes part.length 2 ++ natBytes (s.certChain.length - off - part.length) 2 ++ part

theorem exec_spdmGetCertificate {s : State} (hp : s.boot.phase = 3) (slot off len : Nat) :
    let m := s.certificate off ((s.certChain.drop off).take len)
    exec (.spdmGetCertificate slot off len) s = .next (if slot ≠ 0 ∨ s.certChain.length ≤ off then Says.turnedAway s 1 0
      else Says.answered s { s.boot with certs := s.boot.certs ++ [0x13, 0x82, 0, 0] ++ natBytes off 2 ++ natBytes len 2 ++ m, meas := [] } m) := by
  show execSpdmGetCertificate slot off len s = _
  unfold execSpdmGetCertificate
  dsimp only
  rw [State.spdm_of_phase hp, State.spdmReply_eq_answered _ _ fun _ _ => rfl]
  rfl

/-- The CHALLENGE_AUTH response before its signature. -/
def State.challengeAuth (s : State) (sum : Nat) (body : List Byte) : List Byte :=
  [0x13, 0x03, 0, 1] ++ Config.sha3 s.certChain ++ s.spdmNonce ++ (if sum = 0 then [] else Config.sha3 s.allRecords) ++ [0, 0] ++ spdmPart body 32 8

theorem exec_spdmChallenge {s : State} (hp : s.boot.phase = 3) {slot sum : Nat} (body : List Byte) (h0 : slot = 0) (hs : sum = 0 ∨ sum = 1 ∨ sum = 0xFF) :
    let m := s.challengeAuth sum body
    exec (.spdmChallenge slot ⟨sum, body⟩) s = .next (Says.answered { s with uses := s.uses + 1 } { s.boot with certs := [], meas := [] }
      (m ++ s.aliasSign "responder-challenge_auth signing" (s.boot.transcript ++ s.boot.certs ++ [0x13, 0x83, 0, BitVec.ofNat 8 sum] ++ body ++ m))) := by
  subst h0
  show execSpdmChallenge 0 ⟨sum, body⟩ s = _
  unfold execSpdmChallenge
  dsimp only
  rw [State.spdm_of_phase hp, if_neg (by omega), State.measureBlocks_all, State.spdmReply_eq_answered _ _ fun _ _ => rfl]
  rfl

theorem exec_spdmChallenge_refused {s : State} (hp : s.boot.phase = 3) {slot sum : Nat} (body : List Byte)
    (h : slot ≠ 0 ∨ (sum ≠ 0 ∧ sum ≠ 1 ∧ sum ≠ 0xFF)) : exec (.spdmChallenge slot ⟨sum, body⟩) s = .next (Says.turnedAway s 1 0) := by
  show execSpdmChallenge slot ⟨sum, body⟩ s = _
  unfold execSpdmChallenge
  dsimp only
  rw [State.spdm_of_phase hp, if_pos h]
  rfl

/-- The MEASUREMENTS response, before its signature where one is asked for: n records with the blocks rs. -/
def State.measurements (s : State) (attr k n : Nat) (rs body : List Byte) : List Byte :=
  [0x13, 0x60, if k = 0 then 4 else 0, 0] ++ natBytes n 1 ++ natBytes rs.length 3 ++ rs ++ s.spdmNonce ++ [0, 0] ++
    spdmPart body (if attr % 2 = 1 then 33 else 0) 8
/-- The measurement transcript with a request and its answer. -/
def State.measuredWith (s : State) (attr k n : Nat) (rs body : List Byte) : List Byte :=
  s.boot.meas ++ [0x13, 0xE0, BitVec.ofNat 8 attr, BitVec.ofNat 8 k] ++ body ++ s.measurements attr k n rs body

/-- R31: the answer to a request that is not refused. -/
theorem exec_spdmGetMeasurements {s : State} (hp : s.boot.phase = 3) {attr k n : Nat} {rs : List Byte} (body : List Byte) (hk : s.asksFor k n rs)
    (hr : attr % 2 = 1 → spdmField body 32 1 % 16 = 0) :
    let l := s.measuredWith attr k n rs body
    let m := s.measurements attr k n rs body
    exec (.spdmGetMeasurements ⟨attr, k, body⟩) s = .next (if attr % 2 = 1 then
        Says.answered { s with uses := s.uses + 1 } { s.boot with meas := [] }
          (m ++ s.aliasSign "responder-measurements signing" (s.boot.transcript ++ l))
      else Says.answered { s with uses := s.uses + 1 } { s.boot with meas := l } m) := by
  obtain ⟨hn, hrs, hk⟩ := State.measureBlocks_of_asksFor hk
  have hcode : BitVec.ofNat 8 (if k = 0 then 4 else 0) = if k = 0 then 4 else 0 := by split <;> rfl
  show execSpdmGetMeasurements ⟨attr, k, body⟩ s = _
  unfold execSpdmGetMeasurements
  dsimp only
  rw [State.spdm_of_phase hp]
  simp only [bit_zero_iff]
  rw [if_neg (not_or.2 ⟨hk, fun h => h.2 (hr h.1)⟩), hn, hrs, State.spdmReply_eq_answered _ _ fun _ _ => rfl, State.spdmReply_eq_answered _ _ fun _ _ => rfl]
  simp only [spdmHead, hcode]
  rfl

theorem exec_spdmGetMeasurements_refused {s : State} (hp : s.boot.phase = 3) {attr k : Nat} {body : List Byte}
    (h : (4 < k ∧ k ≠ 0xFF) ∨ (attr % 2 = 1 ∧ spdmField body 32 1 % 16 ≠ 0)) :
    exec (.spdmGetMeasurements ⟨attr, k, body⟩) s = .next (Says.turnedAway s 1 0) := by
  show execSpdmGetMeasurements ⟨attr, k, body⟩ s = _
  unfold execSpdmGetMeasurements
  dsimp only
  rw [State.spdm_of_phase hp, if_pos (by rwa [bit_zero_iff])]
  rfl

theorem exec_spdmUnsupportedRequest {s : State} (hp : s.boot.phase = 3) (code : Nat) :
    exec (.spdmUnsupportedRequest code) s = .next (Says.turnedAway s 7 (BitVec.ofNat 8 code)) := by
  show execSpdmUnsupportedRequest code s = _
  exact State.spdm_of_phase hp _

/-! ## O42 -/

/-- Settles O42: each stage of boot leads where its checks say; in phase 3 each request has its answer, and what is refused changes no transcript.
That the flash slot and memory outlive PF_RESET is the model's reading of R25 (log 13). -/
theorem bootAndAttestation : Obligations.BootAndAttestation := by
  unfold Obligations.BootAndAttestation
  refine ⟨fun s => ⟨?reset, exec_bootVerifyDone, exec_firmwareBringupDone, ?buffer, exec_recoveryGo s, exec_recoveryVerifyDone, exec_slotWriteDone⟩, fun s hp => ?_⟩
  case reset =>
    by_cases h : imgField s.boot.slot 0 4 = 0x4A564657 ∧ imgField s.boot.slot 4 4 = 1
    · refine ⟨_, exec_pfReset_good (headerFail_of_good h), by simp [Says.phased], s.afterPfReset_mem, s.afterPfReset_tiles, s.afterPfReset_launches,
        s.afterPfReset_feats, fun _ => ⟨rfl, by simp [Says.phased]⟩, fun hb => absurd h (Classical.not_and_iff_not_or_not.2 hb)⟩
    · refine ⟨_, exec_pfReset_bad (headerFail_of_bad (Classical.not_and_iff_not_or_not.1 h)), by simp [Says.phased], s.afterPfReset_mem, s.afterPfReset_tiles,
        s.afterPfReset_launches, s.afterPfReset_feats, fun hg => absurd hg h, fun _ => ⟨rfl, rfl⟩⟩
  case buffer =>
    exact fun off data hp => ⟨_, exec_recoveryBufferWrite off data hp, fun i hi hb => getD_recoveryCells_written _ hi hb, fun a ha => getD_recoveryCells_other _ ha⟩
  exact ⟨exec_spdmGetVersion hp, exec_spdmGetCapabilities hp,
    fun k body => ⟨exec_spdmNegotiateAlgorithms hp k, exec_spdmNegotiateAlgorithms_refused hp k⟩,
    exec_spdmGetDigests hp, exec_spdmGetCertificate hp,
    fun slot sum body => ⟨exec_spdmChallenge hp body, exec_spdmChallenge_refused hp body⟩,
    fun attr k n rs body => ⟨fun hk =>
      ⟨fun ha hr => (exec_spdmGetMeasurements hp body hk fun _ => hr).trans (by rw [if_pos ha]; rfl),
        fun ha => (exec_spdmGetMeasurements hp body hk (by omega)).trans (by rw [if_neg (by omega)]; rfl)⟩, exec_spdmGetMeasurements_refused hp⟩,
    exec_spdmUnsupportedRequest hp⟩

end Sys2Proof.Machine
end

section
/-!
PROOFS. What the endpoints and the cabling are read from, which no access of memory and no answer changes (R28, R36, R47 to R49).
-/
namespace Sys2Proof.Machine

/-! ## Accesses of memory leave the fabric (R165, R171, R186, R194, R201) -/

/-- What addresses, cabling and the messages under way are read from (R28, R36, R47 to R49): the PF registers, the lanes that boot enabled, the links that are
down, and the messages that leave. -/
def State.fabric (s : State) : Table Word × Boot × Nat × List TxMsg := (s.pf, s.boot, s.ethDown, s.tx)

theorem State.foldl_fabric {α : Type} {f : State → α → State} (h : ∀ u x, (f u x).fabric = u.fabric) (xs : List α) (s : State) :
    (xs.foldl f s).fabric = s.fabric :=
  List.foldlRecOn (motive := fun u => u.fabric = s.fabric) xs f rfl fun u hu x _ => (h u x).trans hu

@[simp] theorem State.fresh_fabric (s : State) : s.fresh.fabric = s.fabric := rfl
@[simp] theorem State.updTile_fabric (s : State) (t : Nat) (f : Tile → Tile) : (s.updTile t f).fabric = s.fabric := rfl
@[simp] theorem State.updCtx_fabric (s : State) (t c : Nat) (f : Ctx → Ctx) : (s.updCtx t c f).fabric = s.fabric := rfl

theorem State.pokeByte_eq (s : State) (pa v : Nat) : s.pokeByte pa v = { s with mem := (s.pokeByte pa v).mem } := by
  unfold State.pokeByte
  repeat' split
  all_goals rfl
/-- A store behind the caches leaves everything but memory. -/
theorem State.pokeRaw_eq (s : State) (pa v n : Nat) : s.pokeRaw pa v n = { s with mem := (s.pokeRaw pa v n).mem } := by
  induction n generalizing s pa v with
  | zero => rfl
  | succ n ih => rw [State.pokeRaw_succ, ih, State.pokeByte_eq]
@[simp] theorem State.pokeRaw_fabric (s : State) (pa v n : Nat) : (s.pokeRaw pa v n).fabric = s.fabric := by rw [State.pokeRaw_eq]; rfl
@[simp] theorem State.setMemPoison_fabric (s : State) (l : Nat) (p : Bool) : (s.setMemPoison l p).fabric = s.fabric := by
  unfold State.setMemPoison; split <;> rfl
@[simp] theorem State.memWr_fabric (s : State) (line : Nat) (c : CLine) : (s.memWr line c).fabric = s.fabric := by
  unfold State.memWr; split <;> simp
@[simp] theorem State.evict_fabric (s : State) (line : Nat) : (s.evict line).fabric = s.fabric := by
  unfold State.evict
  split
  · exact State.memWr_fabric s line _
  · rfl
@[simp] theorem State.allocate_fabric (s : State) (p tenant line : Nat) : (s.allocate p tenant line).fabric = s.fabric := by
  unfold State.allocate
  split
  · rfl
  · split
    · rfl
    · split
      · rfl
      · dsimp only
        split
        · exact State.evict_fabric s _
        · rfl
@[simp] theorem State.pokeHome_fabric (s : State) (p tenant pa v n : Nat) (shu : Bool) (bad : Option Bool) :
    (s.pokeHome p tenant pa v n shu bad).fabric = s.fabric := by
  have written : (match bad with | some b => (s.pokeRaw pa v n).setMemPoison (pa / 64) b | none => s.pokeRaw pa v n).fabric = s.fabric := by
    cases bad <;> simp
  unfold State.pokeHome
  dsimp only
  split
  · rfl
  · split
    · split <;> exact State.allocate_fabric s p tenant _
    · split <;> exact written

/-! ## Completion records and answers to contexts leave it (R76, R84, R193, R229) -/

@[simp] theorem State.flushRing_fabric (s : State) (v n : Nat) : (s.flushRing v n).fabric = s.fabric := by
  induction n generalizing s with
  | zero => rfl
  | succ n ih =>
    unfold State.flushRing
    split
    · rfl
    · dsimp only
      split
      · rfl
      · rw [ih, State.pokeRaw_eq]
        repeat' split
        all_goals rfl
@[simp] theorem State.completeCmd_fabric (s : State) (v w status detail : Nat) : (s.completeCmd v w status detail).fabric = s.fabric := by
  unfold State.completeCmd
  split
  · rfl
  · split
    · rfl
    · unfold State.endCmd State.complete
      dsimp only
      rw [State.flushRing_fabric]
      split <;> rfl
@[simp] theorem State.releaseFrom_fabric (s : State) (ids : List Nat) : (s.releaseFrom ids).fabric = s.fabric := by
  induction ids generalizing s with
  | nil => rfl
  | cons id ids ih =>
    unfold State.releaseFrom
    split
    · exact ih s
    · split
      · exact ih s
      · exact ih _
@[simp] theorem State.settle_fabric (s : State) (t c : Nat) : (s.settle t c).fabric = s.fabric := by
  unfold State.settle State.releaseTile
  dsimp only
  rw [State.releaseFrom_fabric]
  split <;> rfl
@[simp] theorem State.acquire_fabric (s : State) (t c : Nat) : (s.acquire t c).fabric = s.fabric := by
  unfold State.acquire State.addFence
  rw [State.settle_fabric, State.fresh_fabric, State.updCtx_fabric]
@[simp] theorem State.completeLatched_fabric (s : State) (t c : Nat) : (s.completeLatched t c).fabric = s.fabric := State.updCtx_fabric s t c _
@[simp] theorem State.wakeBarrier_fabric (s : State) (line : Nat) : (s.wakeBarrier line).fabric = s.fabric := by
  unfold State.wakeBarrier
  refine State.foldl_fabric (fun u w => ?_) _ _
  rw [State.acquire_fabric, State.completeLatched_fabric]
@[simp] theorem State.evalWaitv_fabric (s : State) (line : Nat) : (s.evalWaitv line).fabric = s.fabric := by
  unfold State.evalWaitv
  refine State.foldl_fabric (fun u q => ?_) _ s
  split
  · split
    · split
      · exact State.completeCmd_fabric _ _ _ _ _
      · rfl
    · rfl
  · rfl
@[simp] theorem State.evalWatches_fabric (s : State) (line : Nat) : (s.evalWatches line).fabric = s.fabric := rfl

/-! ## A write and a read at the home leave it -/

@[simp] theorem State.applyWrite_fabric (s : State) (p tenant pa n v : Nat) (src : Option Nat) (poison shu : Bool) :
    (s.applyWrite p tenant pa n v src poison shu).fabric = s.fabric := by
  have landed := State.pokeHome_fabric ((s.splitReads (pa / 64)).invalL1 (pa / 64) src) p tenant pa v n shu
    (if poison then some true else if n = 64 then some false else none)
  unfold State.applyWrite
  dsimp only
  rw [State.wakeBarrier_fabric, State.evalWaitv_fabric, State.evalWatches_fabric]
  cases src with
  | none => exact landed
  | some t =>
    dsimp only
    rw [apply_ite State.fabric, State.updTile_fabric, ite_self]
    exact landed
@[simp] theorem State.withMem_fabric (s : State) (m : Mem) : State.fabric { s with mem := m } = s.fabric := rfl
@[simp] theorem State.fillL1_fabric (s : State) (p tenant t line pva : Nat) (stamp : Option W32) : (s.fillL1 p tenant t line pva stamp).fabric = s.fabric := rfl
@[simp] theorem State.evalWaiters_fabric (s : State) (line : Nat) : (s.evalWaiters line).fabric = s.fabric := by
  unfold State.evalWaiters
  dsimp only
  refine State.foldl_fabric (fun u r => ?_) _ _
  rw [State.fillL1_fabric]
@[simp] theorem State.applyStamped_fabric (s : State) (p pa n v : Nat) (carried : W32) (poison : Bool) :
    (s.applyStamped p pa n v carried poison).1.fabric = s.fabric := by
  unfold State.applyStamped
  dsimp only
  split
  · dsimp only
    rw [State.evalWaiters_fabric, State.applyWrite_fabric, State.withMem_fabric]
  · rfl
@[simp] theorem State.gatherFrom_fabric (s : State) (p tenant line : Nat) (pick : Nat → Bool) : (s.gatherFrom p tenant line pick).fabric = s.fabric := by
  unfold State.gatherFrom
  dsimp only
  split
  · rfl
  · rw [apply_ite State.fabric, State.evalWaiters_fabric, State.withMem_fabric, State.applyWrite_fabric, ite_self]
    rfl
@[simp] theorem State.gather_fabric (s : State) (p tenant line : Nat) : (s.gather p tenant line).fabric = s.fabric := State.gatherFrom_fabric _ _ _ _ _
@[simp] theorem State.serve_fabric (s : State) (p tenant line : Nat) (shu : Bool) : (s.serve p tenant line shu).fabric = s.fabric := by
  unfold State.serve
  dsimp only
  split <;> simp
@[simp] theorem State.walked_fabric (s : State) (a : AsidHeld) (pva : Nat) : (s.walked a pva).fabric = s.fabric := by
  unfold State.walked
  split
  · exact State.serve_fabric _ _ _ _ _
  · dsimp only
    split
    · exact State.serve_fabric _ _ _ _ _
    · split <;> simp
@[simp] theorem State.engHold_fabric (s : State) (e : Option Xlat) : (s.engHold e).fabric = s.fabric := by
  cases e with
  | none => rfl
  | some e =>
    refine (State.walked_fabric _ _ _).trans ?_
    unfold State.engUse
    split <;> rfl
@[simp] theorem State.engRead_fabric (s : State) (p : Nat) (e : Option Xlat) (pa n : Nat) : (s.engRead p e pa n).1.fabric = s.fabric :=
  (State.serve_fabric _ _ _ _ _).trans (State.engHold_fabric s e)
@[simp] theorem State.engineWrite_fabric (s : State) (p : Nat) (e : Option Xlat) (pa n v : Nat) (stamp : W32) (poison : Bool) :
    (s.engineWrite p e pa n v stamp poison).fabric = s.fabric := by
  unfold State.engineWrite State.engineStore
  cases e with
  | none => simp
  | some x => dsimp only; split <;> simp
@[simp] theorem State.ethRead_fabric (s : State) (part : Nat) (ps : List (Nat × Nat × Option Xlat)) : (s.ethRead part ps).1.fabric = s.fabric :=
  List.foldlRecOn (motive := fun (u : State × List Byte × Bool) => u.1.fabric = s.fabric) ps _ rfl
    fun u hu q _ => (State.engRead_fabric u.1 part q.2.2 q.1 q.2.1).trans hu
end Sys2Proof.Machine
end

section
/-!
PROOFS. What leaves an endpoint (R37, R45, R49): the fabric that an answer is sent by, and the one packet of a short message.
-/
namespace Sys2Proof.Machine

/-! ## The fabric is the same but for NO_ROUTE (R49) -/

/-- t has the fabric of s, and NO_ROUTE may have counted. -/
structure State.SameFabric (s t : State) : Prop where
  pfr : ∀ off, off ≠ 0x48088 → t.pfr off = s.pfr off
  boot : t.boot = s.boot
  ethDown : t.ethDown = s.ethDown
  tx : t.tx = s.tx

theorem State.SameFabric.of_eq {s t : State} (h : t.fabric = s.fabric) : s.SameFabric t := by
  obtain ⟨hpf, hboot, hdown, htx⟩ : t.pf = s.pf ∧ t.boot = s.boot ∧ t.ethDown = s.ethDown ∧ t.tx = s.tx := by
    simpa only [State.fabric, Prod.mk.injEq] using h
  exact ⟨fun _ _ => by unfold State.pfr; rw [hpf], hboot, hdown, htx⟩
theorem State.SameFabric.refl (s : State) : s.SameFabric s := .of_eq rfl
theorem State.SameFabric.trans {s t u : State} (h : s.SameFabric t) (k : t.SameFabric u) : s.SameFabric u :=
  ⟨fun off ho => (k.pfr off ho).trans (h.pfr off ho), k.boot.trans h.boot, k.ethDown.trans h.ethDown, k.tx.trans h.tx⟩
theorem State.SameFabric.foldl {α : Type} {f : State → α → State} (h : ∀ (u : State) x, u.SameFabric (f u x)) (xs : List α) (s : State) :
    s.SameFabric (xs.foldl f s) :=
  List.foldlRecOn (motive := s.SameFabric) xs f (.refl s) fun u hu x _ => hu.trans (h u x)

/-- The table of the endpoint contexts lies below the registers of the ports (R36, R49). -/
theorem State.SameFabric.epWord {s t : State} (h : s.SameFabric t) {n i : Nat} (hn : n < 512) (hi : i < 8) : t.epWord n i = s.epWord n i := by
  unfold State.epWord
  rw [h.pfr _ (by omega)]
theorem State.SameFabric.epFlags {s t : State} (h : s.SameFabric t) {n : Nat} (hn : n < 512) : t.epFlags n = s.epFlags n := by
  unfold State.epFlags
  rw [h.epWord hn (by omega)]
theorem State.SameFabric.epSec {s t : State} (h : s.SameFabric t) {n : Nat} (hn : n < 512) : t.epSec n = s.epSec n := by
  unfold State.epSec
  rw [h.epFlags hn]
theorem State.SameFabric.epOwn {s t : State} (h : s.SameFabric t) {n : Nat} (hn : n < 512) : t.epOwn n = s.epOwn n := by
  unfold State.epOwn
  rw [h.pfr _ (by omega), h.pfr _ (by omega)]
theorem State.SameFabric.cabling {s t : State} (h : s.SameFabric t) : t.cabling = s.cabling := by
  have addr : ∀ k ∈ List.range 8, t.peerAddr k = s.peerAddr k := fun k hk => by
    have := List.mem_range.1 hk
    unfold State.peerAddr
    rw [h.pfr _ (by omega), h.pfr _ (by omega)]
  unfold State.cabling State.peerMask
  rw [h.pfr _ (by omega), List.map_congr_left addr]
theorem State.SameFabric.egress {s t : State} (h : s.SameFabric t) : t.egress = s.egress := by
  funext path dst ev
  unfold State.egress State.ethUp State.ethOn
  rw [h.boot, h.ethDown]

theorem State.sameFabric_noRoute (s : State) : s.SameFabric s.noRoute := ⟨fun _ ho => State.pfr_setPf_other s _ ho, rfl, rfl, rfl⟩
theorem State.sameFabric_respond (s : State) (ep pdc : Nat) (rod : Bool) (w : Wire) (data : List Byte) : s.SameFabric (s.respond ep pdc rod w data) := by
  unfold State.respond
  dsimp only
  split
  · exact s.sameFabric_noRoute
  · exact .of_eq rfl
theorem State.sameFabric_answer (s : State) (ep : Nat) (dst : BitVec 128) (pdc msg idx : Nat) (k : AckKind) : s.SameFabric (s.answer ep dst pdc msg idx k) :=
  s.sameFabric_respond _ _ _ _ _

/-! ## A packet that is over leaves it (R41, R43, R52, R78) -/

@[simp] theorem State.armRetired_fabric (s : State) : s.armRetired.fabric = s.fabric := by
  unfold State.armRetired
  refine State.foldl_fabric (fun u q => ?_) _ _
  split
  · dsimp only
    split
    · exact State.completeCmd_fabric _ _ _ _ _
    · rfl
  · rfl
@[simp] theorem State.unmatchRx_fabric (s : State) (m : RxMsg) : (s.unmatchRx m).fabric = s.fabric := by
  unfold State.unmatchRx
  split
  · split
    · rfl
    · exact State.armRetired_fabric _
  · rfl
@[simp] theorem State.setRx_fabric (s : State) (m : RxMsg) : (s.setRx m).fabric = s.fabric := rfl
@[simp] theorem State.sequenced_fabric (s : State) (p : Packet) : (s.sequenced p).fabric = s.fabric := by
  unfold State.sequenced
  split <;> rfl
theorem State.sameFabric_packetIn (s : State) (p : Packet) (ok : Bool) : s.SameFabric (s.packetIn p ok) := by
  unfold State.packetIn
  split
  · exact .refl s
  · rename_i m _
    dsimp only
    split
    · refine .trans (.of_eq ?_) (State.sameFabric_answer _ _ _ _ _ _ _)
      rw [State.sequenced_fabric, State.setRx_fabric]
      split <;> simp
    · refine .of_eq ?_
      rw [State.sequenced_fabric, State.setRx_fabric]
      split <;> simp

/-! ## The packet of a short message (R45, R48, R49) -/

theorem packetCount_short {n : Nat} (h : n ≤ 4096) : packetCount n = 1 := by
  unfold packetCount packetBytes
  omega

/-- A message of at most one packet whose every entropy value has a port leaves as that packet. -/
theorem State.packetsOf_short {s : State} {path : Nat × List (BitVec 128)} {ep : Nat} {w : Wire} {data : List Byte} (hsec : s.epSec ep = false)
    (hlen : data.length ≤ 4096) (hev : ∀ ev, s.egress path w.dst ev ≠ none) (base width : Nat) :
    ∃ k ev, s.egress path w.dst ev = some k ∧ s.packetsOf path ep base width w data = [{ w with port := k, ev, count := 1, data }] := by
  obtain ⟨k, hk⟩ := Option.ne_none_iff_exists'.1 (hev (s.pickEv base width 0))
  refine ⟨k, s.pickEv base width 0, hk, ?_⟩
  have whole : data.take packetBytes = data := List.take_of_length_le hlen
  unfold State.packetsOf State.seal
  simp [packetCount_short hlen, hk, hsec, whole]

/-- What an endpoint context answers with in one packet leaves for its peer, from any state with the fabric of s. -/
theorem State.respond_sends {s t : State} (h : s.SameFabric t) {ep : Nat} (hep : ep < 512) {w : Wire} {data : List Byte} (hlen : data.length ≤ 4096)
    (pdc : Nat) (rod : Bool) : Says.sends s (t.respond ep pdc rod w data) ep w.dst { w with pdc, data } := by
  intro hsec hev
  rw [← h.epSec hep] at hsec
  rw [← h.egress, ← h.cabling] at hev ⊢
  obtain ⟨k, ev, hk, hp⟩ := State.packetsOf_short (w := { w with src := t.epOwn ep, pdc }) hsec hlen hev (Config.flowHash pdc % 65536)
    (if rod then 1 else max 1 (t.epSpray ep))
  refine ⟨k, ev, hk, t.wire, ?_⟩
  unfold State.respond
  dsimp only
  rw [if_neg (by simpa using hev _), hp, h.epOwn hep]
end Sys2Proof.Machine
end

section
/-!
PROOFS. Endpoint contexts, their keys, secure domains and the cabling (R36 to R38, R42, R49), O52.
-/
namespace Sys2Proof.Machine

/-! ## Endpoint contexts (R36, R38) -/

theorem State.epBound_iff (s : State) (n : Nat) : s.epBound n = true ↔ n < 512 ∧ s.epFlags n % 2 = 1 := by
  unfold State.epBound
  rw [Bool.and_eq_true, decide_eq_true_iff, bit_zero_iff]

theorem exec_endpointBind {s : State} {n : Nat} {fl : Byte} (hb : s.epBound n = false) (hf : fl.toNat % 2 = 1) :
    exec (.endpointBind n fl) s = .next (if s.epBad n fl.toNat then s.updEp n fun x => { x with cfgErr := true }
      else (s.setEpFlags n fl.toNat).updEp n fun x => { x with cfgErr := false, cache := [], flushing := false }) := by
  have hbit : bit fl.toNat 0 = true := (bit_zero_iff _).2 hf
  show execEndpointBind n fl s = _
  unfold execEndpointBind
  rw [if_neg (by simp [hb, hbit])]
  split <;> rfl

@[simp] theorem State.endpoint_updEp_same (s : State) (n : Nat) (f : Endpoint → Endpoint) : (s.updEp n f).endpoint n = f (s.endpoint n) :=
  Tbl.getD_put_same _ _ _ _
@[simp] theorem State.updEp_epFlags (s : State) (n m : Nat) (f : Endpoint → Endpoint) : (s.updEp n f).epFlags m = s.epFlags m := rfl

/-- FLAGS written into a word of the table read back (R36). -/
theorem bits_flags_written (w fl : Nat) (hw : w < 2 ^ 64) :
    bits (BitVec.ofNat 64 (w - bits w 39 32 * 2 ^ 32 + fl % 256 * 2 ^ 32)).toNat 39 32 = fl % 256 := by
  rw [BitVec.toNat_ofNat]
  show (w - w / 2 ^ 32 % 2 ^ 8 * 2 ^ 32 + fl % 256 * 2 ^ 32) % 2 ^ 64 / 2 ^ 32 % 2 ^ 8 = fl % 256
  omega
theorem State.epFlags_setEpFlags (s : State) (n fl : Nat) : (s.setEpFlags n fl).epFlags n = fl % 256 := by
  have word : (s.setEpFlags n fl).epWord n 3 =
      (BitVec.ofNat 64 (s.epWord n 3 - bits (s.epWord n 3) 39 32 * 2 ^ 32 + fl % 256 * 2 ^ 32)).toNat := by
    show ((s.setPf (0x40018 + 64 * n) _).pfr (0x40000 + 64 * n + 8 * 3)).toNat = _
    rw [show 0x40000 + 64 * n + 8 * 3 = 0x40018 + 64 * n by omega, State.pfr_setPf_same]
  unfold State.epFlags
  rw [word]
  exact bits_flags_written _ _ (s.pfr _).isLt

/-- The messages that an endpoint context receives fail at their initiators (R36). -/
def State.failOpen (s : State) (n : Nat) : State :=
  (s.rx.filter fun m => decide (m.ep = n) && !m.done).foldl (fun (u : State) m => (u.unmatchRx m).answer n m.src m.pdc m.msg 0 .nakAccess) s
/-- Nothing received on an endpoint context is known or held any more (R33, R36). -/
def State.forgetEp (s : State) (n : Nat) : State :=
  { s with rx := s.rx.filter fun m => decide (m.ep ≠ n), heldPackets := s.heldPackets.filter fun h => decide (h.p.ep ≠ n)
           pdcs := s.pdcs.filter fun (c : Pdc) => c.out || decide (c.ep ≠ n) }

theorem State.sameFabric_failOpen (s : State) (n : Nat) : s.SameFabric (s.failOpen n) :=
  .foldl (fun u m => (State.SameFabric.of_eq (u.unmatchRx_fabric m)).trans (State.sameFabric_answer _ _ _ _ _ _ _)) _ _
theorem State.sameFabric_forgetEp (s : State) (n : Nat) : s.SameFabric (s.forgetEp n) := .of_eq rfl

/-- The end of an unbinding: what the context sends fails too, and its entry is not bound any more (R36). -/
def State.releaseEp (s : State) (n : Nat) : State :=
  let u := (s.tx.filter fun m => decide (m.ep = n)).foldl (fun (u : State) m => u.txDone m false) s
  (u.setEpFlags n (u.epFlags n - 1)).updEp n fun x => { x with cache := [], flushing := false }

theorem exec_endpointUnbind_bound {s : State} {n : Nat} (hb : s.epBound n = true) :
    exec (.endpointUnbind n) s = .next (((s.failOpen n).forgetEp n).releaseEp n) := by
  show execEndpointUnbind n s = _
  unfold execEndpointUnbind
  rw [hb]
  rfl

/-- A context that sends nothing is unbound. -/
theorem exec_endpointUnbind {s : State} {n : Nat} (hb : s.epBound n = true) (htx : ∀ m ∈ s.tx, m.ep ≠ n) :
    exec (.endpointUnbind n) s = .next ((((s.failOpen n).forgetEp n).setEpFlags n (s.epFlags n - 1)).updEp n
      fun x => { x with cache := [], flushing := false }) := by
  have same := (s.sameFabric_failOpen n).trans ((s.failOpen n).sameFabric_forgetEp n)
  have idle : ((s.failOpen n).forgetEp n).tx.filter (fun m => decide (m.ep = n)) = [] := by
    rw [same.tx, List.filter_eq_nil_iff]
    simpa using htx
  rw [exec_endpointUnbind_bound hb, ← same.epFlags ((s.epBound_iff n).1 hb).1]
  unfold State.releaseEp
  rw [idle]
  rfl

theorem endpointUnbind_forgets {s : State} {n : Nat} (hb : s.epBound n = true) (htx : ∀ m ∈ s.tx, m.ep ≠ n) :
    ∃ t, exec (.endpointUnbind n) s = .next t ∧ t.epBound n = false ∧ (∀ m ∈ t.rx, m.ep ≠ n) ∧
      (∀ c ∈ t.pdcs, c.out = false → c.ep ≠ n) ∧ (t.endpoint n).cache = [] := by
  refine ⟨_, exec_endpointUnbind hb htx, ?unbound, fun m hm => ?rx, fun c hc hout => ?pdcs, by rw [State.endpoint_updEp_same]⟩
  case unbound =>
    have odd := ((s.epBound_iff n).1 hb).2
    rw [← Bool.not_eq_true, State.epBound_iff, State.updEp_epFlags, State.epFlags_setEpFlags]
    omega
  case rx => exact of_decide_eq_true (List.mem_filter.1 hm).2
  case pdcs =>
    have := (List.mem_filter.1 hc).2
    simpa [hout] using this

theorem exec_keyFlush (s : State) (n : Nat) : exec (.keyFlush n) s = .next (State.updEp { s with
    rx := s.rx.map fun (m : RxMsg) => if m.ep = n ∧ m.done = false then { m with old := true } else m } n fun x => { x with cache := [], flushing := true }) := rfl

theorem keyFlush_marks (s : State) (n : Nat) : ∃ t, exec (.keyFlush n) s = .next t ∧ (t.endpoint n).cache = [] ∧ (t.endpoint n).flushing = true ∧
    ∀ m ∈ t.rx, m.ep = n → m.done = false → m.old = true := by
  refine ⟨_, exec_keyFlush s n, by rw [State.endpoint_updEp_same], by rw [State.endpoint_updEp_same], fun m hm => ?_⟩
  obtain ⟨x, -, rfl⟩ := List.mem_map.1 hm
  split
  · exact fun _ _ => rfl
  · rename_i h
    exact fun he hd => absurd ⟨he, hd⟩ h

theorem exec_keyFlushComplete {s : State} {n : Nat} (hf : (s.endpoint n).flushing = true)
    (ho : ∀ m ∈ s.rx, m.ep = n → m.old = true → m.done = true ∨ m.bad = true) :
    exec (.keyFlushComplete n) s = .next (State.updEp { s with
      rx := s.rx.map fun (m : RxMsg) => if m.ep = n ∧ m.old = true then { m with old := false, reread := true } else m } n
      fun x => { x with flushing := false }) := by
  have ended : s.rx.any (fun m => decide (m.ep = n) && m.old && !m.done && !m.bad) = false := by
    rw [List.any_eq_false]
    intro m hm h
    simp only [Bool.and_eq_true, decide_eq_true_eq, Bool.not_eq_true'] at h
    obtain ⟨⟨⟨he, hold⟩, hd⟩, hbad⟩ := h
    rcases ho m hm he hold with h | h
    · exact absurd (hd.symm.trans h) (by decide)
    · exact absurd (hbad.symm.trans h) (by decide)
  show execKeyFlushComplete n s = _
  unfold execKeyFlushComplete
  rw [hf, ended]
  rfl

/-! ## Secure domains (R37) -/

@[simp] theorem State.domain_updDomain_same (s : State) (p : Nat) (f : Domain → Domain) : (s.updDomain p f).domain p = f (s.domain p) := Tbl.getD_put_same _ _ _ _

/-- A secure domain after an SD_CTL write of w (R37). -/
def Domain.controlled (d : Domain) (w : Nat) : Domain :=
  { d with valid0 := bit w 1, valid1 := bit w 2, sdi := BitVec.ofNat 32 (bits w 63 32)
           tx := if (if bit w 0 then bit w 2 else bit w 1) then bit w 0 else d.tx }

theorem exec_sdCtlWrite (s : State) (p : Nat) (v : Word) : exec (.sdCtlWrite p v) s = .next (s.updDomain p fun d => d.controlled v.toNat) := by
  show execSdCtlWrite p v s = _
  unfold execSdCtlWrite Domain.controlled State.updDomain
  dsimp only
  cases h : (if bit v.toNat 0 then bit v.toNat 2 else bit v.toNat 1) <;> rfl

/-- TXSLOT stays where it would name a slot that this write leaves invalid (R37; that this write's VALID bits decide is log 63). -/
theorem sdCtlWrite_sets (s : State) (p : Nat) (v : Word) : ∃ t, exec (.sdCtlWrite p v) s = .next t ∧ (t.domain p).valid0 = decide (v.toNat / 2 % 2 = 1) ∧
    (t.domain p).valid1 = decide (v.toNat / 4 % 2 = 1) ∧ (t.domain p).sdi = BitVec.ofNat 32 (v.toNat / 2 ^ 32) ∧ (t.domain p).key0 = (s.domain p).key0 ∧
    (t.domain p).key1 = (s.domain p).key1 ∧
    (t.domain p).tx = (if v.toNat / 2 ^ (1 + v.toNat % 2) % 2 = 1 then decide (v.toNat % 2 = 1) else (s.domain p).tx) := by
  refine ⟨_, exec_sdCtlWrite s p v, ?_⟩
  rw [State.domain_updDomain_same]
  refine ⟨rfl, rfl, ?sdi, rfl, rfl, ?tx⟩
  case sdi =>
    have := v.isLt
    show BitVec.ofNat 32 (v.toNat / 2 ^ 32 % 2 ^ 32) = _
    rw [Nat.mod_eq_of_lt (by omega)]
  case tx =>
    unfold Domain.controlled
    rcases Nat.mod_two_eq_zero_or_one v.toNat with h | h <;> simp [bit, h]

/-! ## Cabling (R49) -/

/-- A 128-bit address is read back from its two words. -/
theorem ofNat_two_words (v : BitVec 128) : BitVec.ofNat 128 ((v.setWidth 64).toNat + 2 ^ 64 * ((v >>> 64).setWidth 64).toNat) = v := by
  refine BitVec.eq_of_toNat_eq ?_
  have := v.isLt
  rw [BitVec.toNat_ofNat, BitVec.toNat_setWidth, BitVec.toNat_setWidth, BitVec.toNat_ushiftRight, Nat.shiftRight_eq_div_pow]
  omega

theorem peerConfigWrite_sets {s : State} {k : Nat} (hk : k < 8) (v : BitVec 128) :
    ∃ t, exec (.peerConfigWrite k v) s = .next t ∧ t.peerAddr k = v ∧ ∀ j < 8, j ≠ k → t.peerAddr j = s.peerAddr j := by
  refine ⟨_, if_pos hk, ?_, fun j _ hj => ?_⟩
  · unfold State.peerAddr
    rw [State.pfr_setPf_other _ _ (by omega), State.pfr_setPf_same, State.pfr_setPf_same]
    exact ofNat_two_words v
  · unfold State.peerAddr
    rw [State.pfr_setPf_other _ _ (by omega), State.pfr_setPf_other _ _ (by omega), State.pfr_setPf_other _ _ (by omega), State.pfr_setPf_other _ _ (by omega)]

theorem exec_ethLinkChange_down {s : State} {k : Nat} (h : bit s.ethDown k = false) : exec (.ethLinkChange k false) s = .next { s with ethDown := s.ethDown + 2 ^ k } := by
  show execEthLinkChange k false s = _
  unfold execEthLinkChange
  rw [h]
  rfl
theorem exec_ethLinkChange_up {s : State} {k : Nat} (h : bit s.ethDown k = true) : exec (.ethLinkChange k true) s = .next { s with ethDown := s.ethDown - 2 ^ k } := by
  show execEthLinkChange k true s = _
  unfold execEthLinkChange
  rw [h]
  rfl

end Sys2Proof.Machine
end

section
/-!
PROOFS. Messages that leave and the port switch (R33, R34, R41, R45 to R51), O52.
-/
namespace Sys2Proof.Machine

/-! ## Messages (R33, R41, R45, R46) -/

theorem exec_deliveryContextAllocate_known {s : State} {m : TxMsg} (hm : s.txMsg m.id = some m) {c : Pdc} (hp : m.pdc = none) (hf : s.flowOf m = some c) :
    exec (.deliveryContextAllocate m.id) s = .next (s.setTx { m with pdc := some c.id }) := by
  show execDeliveryContextAllocate m.id s = _
  simp [execDeliveryContextAllocate, hm, hp, hf]

/-- The delivery context that message m of a new flow takes (R33). -/
def State.flowTo (s : State) (m : TxMsg) : Pdc :=
  { id := s.nextId, ep := m.ep, peer := m.dst, peerNum := m.dstEp, mode := m.mode, rccc := bit (s.epFlags m.ep) 1 }

theorem exec_deliveryContextAllocate_new {s : State} {m : TxMsg} (hm : s.txMsg m.id = some m) (hp : m.pdc = none) (hf : s.flowOf m = none)
    (hroom : s.pdcs.length < 65536) (hfirst : ∀ x ∈ s.tx, x.pdc = none → s.flowOf x = none → m.id ≤ x.id) :
    exec (.deliveryContextAllocate m.id) s = .next
      { s.setTx { m with pdc := some s.nextId } with pdcs := s.pdcs ++ [s.flowTo m], nextId := s.nextId + 1 } := by
  have oldest : ¬(65536 ≤ s.pdcs.length ∨ s.tx.any (fun x => x.pdc.isNone && decide (x.id < m.id) && (s.flowOf x).isNone) = true) := by
    rw [List.any_eq_true]
    rintro (h | ⟨x, hx, h⟩)
    · omega
    · simp only [Bool.and_eq_true, decide_eq_true_eq, Option.isNone_iff_eq_none] at h
      obtain ⟨⟨hxp, hlt⟩, hxf⟩ := h
      exact absurd (hfirst x hx hxp hxf) (by omega)
  show execDeliveryContextAllocate m.id s = _
  unfold execDeliveryContextAllocate
  simp only [hm, hp, hf]
  rw [if_neg oldest]
  rfl

/-- The state once a message of one packet has its place in the sequence of its delivery context c (R33). -/
def State.numbered (s : State) (m : TxMsg) (c : Pdc) : State := if m.psn.isSome then s else s.setPdc { c with next := c.next + 1 }

/-- The packets of a message, apart from their places, bytes, ports and entropy values (R45). -/
def State.wireOf (s : State) (m : TxMsg) (c : Pdc) : Wire :=
  { dst := m.dst, msg := m.id, src := s.epOwn m.ep, ep := m.dstEp, mode := m.mode, pdc := c.id, psn := m.psn.getD c.next, key := m.key, off := m.off
    total := m.data.length, aop := m.aop, contrib := m.contrib, poison := m.poison }
/-- R45, R46, R250: the entropy base and the spread of a message: a chunk brings its own base, and ROD keeps to one value. -/
def TxMsg.evBase (m : TxMsg) (c : Pdc) : Nat := match m.carries with | .chunk _ _ => m.ev | .row _ => Config.flowHash c.id % 65536
def TxMsg.evWidth (m : TxMsg) : Nat := if m.mode = .rod then 1 else max 1 m.width
/-- A message as it stands once its packets, the first of number psn, have left by a path (R41, R49). -/
def TxMsg.leftBy (m : TxMsg) (path : Nat × List (BitVec 128)) (psn : Nat) : TxMsg := { m with sent := true, path := some path, psn := some psn }

/-- A message of at most 4,096 bytes of a context that uses no secure domain leaves as one packet by a port of its path. -/
theorem exec_uetMessageSend_short {s : State} {m : TxMsg} (hm : s.txMsg m.id = some m) {c : Pdc} {path : Nat × List (BitVec 128)} (hp : m.pdc = some c.id)
    (hc : s.pdcs.find? (fun x => decide (x.id = c.id)) = some c) (hsent : m.sent = false) (hpath : path = m.path.getD s.cabling) (hb : s.epBound m.ep = true)
    (hf : s.feature (modeBit m.mode) = true) (hsec : s.epSec m.ep = false) (hpoison : s.poisonedRow m = false) (hlen : m.data.length ≤ 4096)
    (hev : ∀ ev, s.egress path m.dst ev ≠ none) :
    ∃ k ev, s.egress path m.dst ev = some k ∧ exec (.uetMessageSend m.id) s = .next (State.setTx
      { s.numbered m c with wire := s.wire ++ [{ s.wireOf m c with port := k, ev, count := 1, data := m.data }] } (m.leftBy path (m.psn.getD c.next))) := by
  have found : ((if m.sent then none else m.pdc).bind fun id => s.pdcs.find? fun (c : Pdc) => decide (c.id = id)) = some c := by simpa [hsent, hp] using hc
  have cut : exec (.uetMessageSend m.id) s = .next (State.setTx
      { s.numbered m c with wire := s.wire ++ s.packetsOf path m.ep (m.evBase c) m.evWidth (s.wireOf m c) m.data } (m.leftBy path (m.psn.getD c.next))) := by
    show execUetMessageSend m.id s = _
    unfold execUetMessageSend
    simp only [hm, found, ← hpath]
    rw [if_neg (by simp [hb, hf, hpoison, State.seal, hsec]), if_neg (by simpa using hev _), packetCount_short hlen]
    rfl
  obtain ⟨k, ev, hk, hw⟩ := State.packetsOf_short (w := s.wireOf m c) hsec hlen hev (m.evBase c) m.evWidth
  exact ⟨k, ev, hk, hw ▸ cut⟩

/-- R41, R46: a message that was sent completes, fails, or goes out again, and a trimmed packet's entropy value is not used for 16 µs. -/
theorem exec_uetAcknowledgement {s : State} {m : TxMsg} (hm : s.txMsg m.id = some m) (hsent : m.sent = true) (ev : Nat) :
    exec (.uetAcknowledgement m.id .ack ev) s = .next (s.txDone m true) ∧ exec (.uetAcknowledgement m.id .nakAccess ev) s = .next (s.txDone m false) ∧
    exec (.uetAcknowledgement m.id .nakRetry ev) s = .next (s.setTx { m with sent := false }) ∧
    (s.feature 25 = true → exec (.uetAcknowledgement m.id .trimmed ev) s =
      .next { s.setTx { m with sent := false } with evBad := Tbl.put s.evBad (ev % 65536) (s.hub + 16000) }) := by
  have sent (k : AckKind) : exec (.uetAcknowledgement m.id k ev) s = execUetAcknowledgement m.id k ev s := rfl
  simp only [sent, execUetAcknowledgement, hm, hsent, Bool.not_true, Bool.false_eq_true, if_false, true_and]
  intro hf
  rw [hf]
  rfl

theorem exec_evUnusableExpire {s : State} {ev n : Nat} (hm : Tbl.find? s.evBad ev = some n) (hn : n ≤ s.hub) :
    exec (.evUnusableExpire ev) s = .next { s with evBad := Tbl.erase s.evBad ev } := by
  have usable : s.evUsable ev = true := by
    unfold State.evUsable
    rw [hm]
    exact decide_eq_true hn
  show execEvUnusableExpire ev s = _
  unfold execEvUnusableExpire
  rw [if_pos usable]

/-! ## The port switch (R48, R50, R51) -/

theorem exec_packetRelay {s : State} {p : Packet} {dst : BitVec 128} {k : Nat} (hup : s.ethUp p.port = true) (hr : p.relayed = false) (he : s.epOf dst = none)
    (hport : bit s.peerMask p.port = true) (hk : s.directPort dst = some k) :
    exec (.packetRelay p dst) s = .next { s with wire := s.wire ++ [relayed p k dst] } := by
  show execPacketRelay p dst s = _
  unfold execPacketRelay
  rw [if_neg (by simp [hup, hr, he, hport]), hk]

theorem exec_packetRelay_relayed {s : State} {p : Packet} {dst : BitVec 128} (hr : p.relayed = true) : exec (.packetRelay p dst) s = .next s :=
  if_pos (.inr (.inl hr))

theorem exec_combineContribution_unauthentic {s : State} {c : Contribution} {dst : BitVec 128} (hup : s.ethUp c.port = true) (he : (s.epOf dst).isSome = true)
    (hb : s.epBound c.ep = true) (ha : s.authenticAt c.ep c.sealed c.kid c.icv = false) : exec (.combineContribution c dst) s = .next (s.authFail c.ep) := by
  show execCombineContribution c dst s = _
  simp [execCombineContribution, hup, he, hb, ha]

@[simp] theorem ranksIn_append (cs ds : List Contribution) : ranksIn (cs ++ ds) = ranksIn cs ++ ranksIn ds := List.flatMap_append
@[simp] theorem ranksIn_singleton (c : Contribution) : ranksIn [c] = srcsOf c := by simp [ranksIn]

/-- The switch turns no combinable contribution away before it looks for its entry (R34, R50). -/
theorem Says.combinable.guards {s : State} {c : Contribution} {dst : BitVec 128} (h : Says.combinable s c dst) :
    (!s.ethUp c.port) = false ∧ ((s.epOf dst).isSome && s.epBound c.ep && !s.authenticAt c.ep c.sealed c.kid c.icv) = false ∧
    (!s.feature 4 || (c.sealed && !(s.epOf dst).isSome)) = false := by
  obtain ⟨hf, hup, hauth, hsealed⟩ := h
  refine ⟨by rw [hup]; rfl, ?_, ?_⟩
  · cases he : (s.epOf dst).isSome with
    | false => rfl
    | true => cases hb : s.epBound c.ep with
      | false => rfl
      | true => rw [hauth he hb]; rfl
  · rw [hf]
    cases he : s.epOf dst with
    | none => rw [hsealed he]; rfl
    | some n => exact Bool.and_false _

/-- The entry that a chunk's first contribution opens (R50). -/
def State.combOpened (s : State) (c : Contribution) (dst : BitVec 128) : CombEntry :=
  { id := s.nextId, dst, ep := c.ep, key := c.key, launch := c.launch, part := c.part, cid := c.cid, step := c.step, chunk := c.chunk, openAt := s.hub, got := [c] }
theorem State.combOpened_is (s : State) (c : Contribution) (dst : BitVec 128) : (s.combOpened c dst).is c dst = true := by
  simp [CombEntry.is, State.combOpened]

theorem exec_combineContribution_opens {s : State} {c : Contribution} {dst : BitVec 128} (h : Says.combinable s c dst) (hn : s.combining = [])
    (he : (srcsOf c).length < c.expect) :
    exec (.combineContribution c dst) s = .next { s with combining := [s.combOpened c dst], nextId := s.nextId + 1 } := by
  obtain ⟨hup, hauth, hopen⟩ := h.guards
  have waits : ¬c.expect ≤ (s.combOpened c dst).marked.length := by
    show ¬c.expect ≤ (ranksIn [c]).length
    rw [ranksIn_singleton]
    omega
  show execCombineContribution c dst s = _
  unfold execCombineContribution
  simp only [hup, hauth, hopen, hn, Bool.false_eq_true, if_false, List.find?_nil, List.filter_nil, List.length_nil, List.foldl_nil]
  rw [if_neg (by omega)]
  exact (if_neg waits)

/-- A rank that is marked is not folded twice (R50). -/
theorem exec_combineContribution_again {s : State} {c : Contribution} {dst : BitVec 128} (h : Says.combinable s c dst) {e : CombEntry} (hn : s.combining = [e])
    (his : e.is c dst = true) (hp : e.pass = false) (hr : ∃ r ∈ srcsOf c, r ∈ e.marked) :
    exec (.combineContribution c dst) s = .next (s.answerContribution c .ack) := by
  obtain ⟨hup, hauth, hopen⟩ := h.guards
  have marked : (srcsOf c).any e.marked.contains = true := by
    simpa [List.any_eq_true] using hr
  have found : [e].find? (·.is c dst) = some e := List.find?_cons_of_pos his
  show execCombineContribution c dst s = _
  unfold execCombineContribution
  simp only [hup, hauth, hopen, hn, Bool.false_eq_true, if_false, found, hp]
  rw [if_pos marked]

/-- A contribution of ranks not yet marked, with the operation, format and number of the others, joins its entry; the one that makes it whole is followed by the
one result (R50). -/
theorem exec_combineContribution_joins {s : State} {c : Contribution} {dst : BitVec 128} (h : Says.combinable s c dst) {e : CombEntry} (hn : s.combining = [e])
    (his : e.is c dst = true) (hp : e.pass = false) (hsame : ∀ x ∈ e.got, x.op = c.op ∧ x.fmt = c.fmt ∧ x.expect = c.expect) (hroom : e.got.length < 4096)
    (hr : ∀ r ∈ srcsOf c, r ∉ e.marked) :
    exec (.combineContribution c dst) s = .next (if e.marked.length + (srcsOf c).length < c.expect then { s with combining := [{ e with got := e.got ++ [c] }] }
      else State.forward { s with combining := [] } (CombEntry.result { e with got := e.got ++ [c] } c) dst) := by
  obtain ⟨hup, hauth, hopen⟩ := h.guards
  have unmarked : ¬(srcsOf c).any e.marked.contains = true := by
    simpa [List.any_eq_true] using hr
  have alike : e.got.any (fun x => decide (x.op ≠ c.op) || decide (x.fmt ≠ c.fmt) || decide (x.expect ≠ c.expect)) = false := by
    rw [List.any_eq_false]
    intro x hx
    obtain ⟨ho, hf, he⟩ := hsame x hx
    simp [ho, hf, he]
  have count : (CombEntry.marked { e with got := e.got ++ [c] }).length = e.marked.length + (srcsOf c).length := by
    simp [CombEntry.marked]
  have found : [e].find? (·.is c dst) = some e := List.find?_cons_of_pos his
  show execCombineContribution c dst s = _
  unfold execCombineContribution
  simp only [hup, hauth, hopen, hn, Bool.false_eq_true, if_false, found, alike, List.foldl_cons, List.foldl_nil, Nat.zero_add, false_or]
  rw [if_neg (by simp [hp]), if_neg unmarked, if_neg (by simpa [hp] using hroom)]
  simp only [count, List.map_cons, List.map_nil, if_true, ne_eq, not_true_eq_false, decide_false, List.filter_cons, List.filter_nil, Bool.false_eq_true, if_false]
  split <;> rfl

theorem exec_combineTimeout {s : State} {e : CombEntry} (hf : s.combining.find? (fun (x : CombEntry) => decide (x.id = e.id)) = some e) (hp : e.pass = false)
    (ho : e.openAt + 100000 ≤ s.hub) : exec (.combineTimeout e.id) s = .next (s.passEntry e) := by
  show execCombineTimeout e.id s = _
  unfold execCombineTimeout
  rw [hf]
  exact if_pos ⟨by rw [hp]; rfl, ho⟩

/-! ## O52 -/

/-- Settles O52: each event of the endpoints, of the domains, of the messages and of the switch ends as its rule says. The VALID bits by which an SD_CTL write
judges TXSLOT (log 63), and the mark and the combined result that are the package's (log 65), are the model's choices. -/
theorem ethernetManaged : Obligations.EthernetManaged := by
  unfold Obligations.EthernetManaged
  intro s
  refine ⟨fun n fl => exec_endpointBind, fun n => endpointUnbind_forgets, fun p slot key => rfl, sdCtlWrite_sets s, fun n => rfl, keyFlush_marks s,
    fun n => exec_keyFlushComplete, fun k v => ⟨fun hk => peerConfigWrite_sets hk v, fun hk => if_neg (by omega)⟩, rfl, fun k => rfl,
    fun k => exec_ethLinkChange_down, fun k => exec_ethLinkChange_up, fun m hm => ⟨fun c => exec_deliveryContextAllocate_known hm, ?new, ?send,
      fun ev hsent => exec_uetAcknowledgement hm hsent ev⟩, fun ev n => exec_evUnusableExpire, ?relay, fun p dst => exec_packetRelay_relayed,
    fun c dst => exec_combineContribution_unauthentic, fun c dst hc => ⟨?opens, fun e hn his hp hsame hroom => ⟨exec_combineContribution_again hc hn his hp, ?joins⟩⟩,
    fun e => exec_combineTimeout⟩
  case new => exact fun hp hf hroom hfirst => ⟨s.flowTo m, exec_deliveryContextAllocate_new hm hp hf hroom hfirst, rfl, rfl, rfl, rfl, rfl, rfl, rfl⟩
  case send =>
    intro c path hp hc hsent hpath hb hf hsec hpoison hlen hev
    obtain ⟨k, ev, hk, hs⟩ := exec_uetMessageSend_short hm hp hc hsent hpath hb hf hsec hpoison hlen hev
    exact ⟨_, hs, hk, rfl, rfl, rfl, rfl, rfl, rfl, rfl, rfl, rfl, rfl, rfl, rfl⟩
  case relay => exact fun p dst k hup hr he hport hk => ⟨_, exec_packetRelay hup hr he hport hk, rfl, rfl, rfl, rfl, rfl, rfl, rfl, rfl, rfl, rfl, rfl, rfl, rfl, rfl, rfl⟩
  case opens => exact fun hn he => ⟨_, exec_combineContribution_opens hc hn he, rfl, rfl, rfl, rfl, s.combOpened_is c dst⟩
  case joins =>
    intro hr
    have joins := exec_combineContribution_joins hc hn his hp hsame hroom hr
    exact ⟨fun hlt => joins.trans (by rw [if_pos hlt]), fun hle => joins.trans (by rw [if_neg (by omega)])⟩

end Sys2Proof.Machine
end

section
/-!
PROOFS. Packets that the hub takes (R32, R33, R35, R39 to R44, R52, R53), O53: the first steps that every packet shares, said once for a packet of a message
under way, for the first of a tagged send, for one of ROD before its turn and for the first of a flow; then each kind of packet.
-/
namespace Sys2Proof.Machine

/-! ## The first steps of a packet (R33 to R35, R41, R43, R44) -/

theorem State.takes_of_taken {s : State} {p : Packet} {part : Nat} (h : Says.taken s p part) : s.takes p.port = true := by
  obtain ⟨hup, hheld, -⟩ := h
  unfold State.takes
  rw [hup, decide_eq_true hheld]
  rfl

/-- A packet that is taken goes on to what its kind does (R28, R53). -/
theorem exec_uetWritePacket_taken {s : State} {p : Packet} {part : Nat} (h : Says.taken s p part) : exec (.uetWritePacket p) s = .next (s.writePacket p) :=
  if_pos (State.takes_of_taken h)
theorem exec_uetSendPacket_taken {s : State} {p : Packet} {part : Nat} (h : Says.taken s p part) : exec (.uetSendPacket p) s = .next (s.sendPacket p 2) :=
  if_pos (State.takes_of_taken h)
theorem exec_uetReadPacket_taken {s : State} {p : Packet} {part : Nat} (h : Says.taken s p part) : exec (.uetReadPacket p) s = .next (s.readPacket p) :=
  if_pos (State.takes_of_taken h)
theorem exec_uetAtomicPacket_taken {s : State} {p : Packet} {part : Nat} (h : Says.taken s p part) : exec (.uetAtomicPacket p) s = .next (s.atomicPacket p) :=
  if_pos (State.takes_of_taken h)
theorem exec_uetTaggedSend_taken {s : State} {p : Packet} {part : Nat} (h : Says.taken s p part) : exec (.uetTaggedSend p) s = .next (s.tagged p) :=
  if_pos (State.takes_of_taken h)

/-- A packet in its turn is not early. -/
theorem early_of_turn {c : Pdc} {p : Packet} (h : c.mode = .rod → p.psn ≤ c.next) : early c p = false := by
  unfold early
  by_cases hm : c.mode = .rod
  · have := h hm
    simp [hm, this]
  · simp [hm]
theorem early_of_before {c : Pdc} {p : Packet} (hm : c.mode = .rod) (hn : c.next < p.psn) : early c p = true := by
  simp [early, hm, hn]

/-- The message that a tagged send begins, and the state that knows a message (R44, R52). -/
def State.taggedMsg (s : State) (p : Packet) : RxMsg :=
  { id := s.nextId, src := p.src, ep := p.ep, pdc := p.pdc, msg := p.msg, kind := 3, count := p.count }
def State.begun (s : State) (m : RxMsg) : State := State.fresh { s with rx := s.rx ++ [m] }

/-- A packet of a message under way, once its flow has a delivery context, is to be sent again where it comes before its turn (R41, R43, R44). -/
theorem State.receive_known {s : State} {p : Packet} {part : Nat} (ht : Says.taken s p part) {c : Pdc} (hc : s.flowIn p = some c) {m : RxMsg}
    (hm : Says.awaited s p m) (kind : Nat) (k : State → Nat → RxMsg → State) :
    s.receive p kind k = if early c p then s.reply p .nakRetry else k s part m := by
  obtain ⟨-, -, hb, ha, hf, rfl, hl⟩ := ht
  obtain ⟨hm, hgot, href, hdone, hread⟩ := hm
  unfold State.receive
  simp [hb, ha, hf, hl, hc, hm, hgot, href, hdone, hread]

/-- So is the first packet of a tagged send, which begins its message (R43, R44, R52). -/
theorem State.receive_first {s : State} {p : Packet} {part : Nat} (ht : Says.taken s p part) {c : Pdc} (hc : s.flowIn p = some c) (hn : s.rxMsg p = none)
    (k : State → Nat → RxMsg → State) :
    s.receive p 3 k = if early c p then s.reply p .nakRetry else k (s.begun (s.taggedMsg p)) part (s.taggedMsg p) := by
  obtain ⟨-, -, hb, ha, hf, rfl, hl⟩ := ht
  unfold State.receive
  simp [hb, ha, hf, hl, hc, hn, State.begun, State.taggedMsg]

theorem State.receive_awaited {s : State} {p : Packet} {part : Nat} (ht : Says.taken s p part) (hi : Says.inTurn s p) {m : RxMsg} (hm : Says.awaited s p m)
    (kind : Nat) (k : State → Nat → RxMsg → State) : s.receive p kind k = k s part m := by
  obtain ⟨c, hc, hturn⟩ := hi
  rw [State.receive_known ht hc hm, early_of_turn hturn]
  rfl

/-- The state in which the first packet of a flow has its delivery context (R33). -/
def State.withFlow (s : State) (p : Packet) : State := { s with pdcs := s.pdcs ++ [Says.newFlow s p], nextId := s.nextId + 1 }

theorem State.flowIn_withFlow {s : State} {p : Packet} (h : s.flowIn p = none) : (s.withFlow p).flowIn p = some (Says.newFlow s p) := by
  unfold State.flowIn State.withFlow at *
  rw [List.find?_append, h]
  simp [Says.newFlow]

theorem State.receive_newFlow {s : State} {p : Packet} {part : Nat} (ht : Says.taken s p part) (hc : s.flowIn p = none) (hroom : s.pdcs.length < 65536) (kind : Nat)
    (k : State → Nat → RxMsg → State) : s.receive p kind k = (s.withFlow p).receive p kind k := by
  obtain ⟨-, -, hb, ha, hf, rfl, hl⟩ := ht
  have hc' := State.flowIn_withFlow hc
  have hb' : (s.withFlow p).epBound p.ep = true := hb
  have ha' : (s.withFlow p).authentic p = true := ha
  have hf' : (s.withFlow p).feature (modeBit p.mode) = true := hf
  have hl' : (s.withFlow p).partLive (((s.withFlow p).epPart p.ep).getD 0) = true := hl
  have full : decide (65536 ≤ s.pdcs.length) = false := decide_eq_false (by omega)
  unfold State.receive
  simp only [hb, ha, hf, hl, hc, hb', ha', hf', hl', hc', full, Bool.not_true, Bool.and_false, Bool.false_and, Bool.false_eq_true, if_false, Option.isNone_none,
    Option.isNone_some, if_true, Option.getD_none, Option.getD_some]
  rfl

/-- The first packet of a flow does as it does once the flow has a delivery context (R33). -/
theorem exec_packet_newFlow {s : State} {p : Packet} {part : Nat} (ht : Says.taken s p part) (hc : s.flowIn p = none) (hroom : s.pdcs.length < 65536) :
    ∀ i ∈ [Instr.uetWritePacket p, .uetSendPacket p, .uetReadPacket p, .uetAtomicPacket p, .uetTaggedSend p], exec i s = exec i (s.withFlow p) := by
  have ht' : Says.taken (s.withFlow p) p part := ht
  have recv := fun kind k => State.receive_newFlow ht hc hroom kind k
  have send : ∀ op, s.sendPacket p op = (s.withFlow p).sendPacket p op := fun op => recv 2 _
  have tag : s.tagged p = (s.withFlow p).tagged p := by
    have same : (s.withFlow p).rxMsg p = s.rxMsg p := rfl
    unfold State.tagged
    rw [same, ← send, ← recv 3]
  simp only [List.forall_mem_cons, List.not_mem_nil, false_imp_iff, implies_true, and_true]
  refine ⟨?write, ?send, ?read, ?atomic, ?tagged⟩
  case write =>
    rw [exec_uetWritePacket_taken ht, exec_uetWritePacket_taken ht']
    exact congrArg Host.Outcome.next (recv 0 _)
  case send => rw [exec_uetSendPacket_taken ht, exec_uetSendPacket_taken ht', send]
  case read =>
    rw [exec_uetReadPacket_taken ht, exec_uetReadPacket_taken ht']
    exact congrArg Host.Outcome.next (recv 1 _)
  case atomic =>
    rw [exec_uetAtomicPacket_taken ht, exec_uetAtomicPacket_taken ht']
    exact congrArg Host.Outcome.next (recv 4 _)
  case tagged => rw [exec_uetTaggedSend_taken ht, exec_uetTaggedSend_taken ht', tag]

/-! ## A packet that does what it asks (R32, R41, R43, R53) -/

theorem State.place_ok {s : State} {p : Packet} {part : Nat} {g : Target} {ps : List (Nat × Nat × Option Xlat)} (op : Nat)
    (h : s.ethAddr part g p.data.length true = .ok ps) : s.place p op part g = (s.ethWrite part ps p.data p.poisoned).packetIn p true := by
  unfold State.place
  rw [h]

/-- A message that matched an armed entry: the entry has a match less to come and one more to wait for, and the payload goes to its buffer (R52). -/
def State.matched (s : State) (m : RxMsg) (a : Armed) : State :=
  State.setRx { s with armed := s.armed.map fun (x : Armed) => if x.id = a.id then { x with count := x.count - 1, inflight := x.inflight + 1 } else x }
    { m with armed := some a, buf := a.buf.toNat }

/-- R36: a packet that is taken names one of the 512 endpoint contexts. -/
theorem Says.taken.ep_lt {s : State} {p : Packet} {part : Nat} (h : Says.taken s p part) : p.ep < 512 := by
  obtain ⟨-, -, hb, -⟩ := h
  exact ((s.epBound_iff p.ep).1 hb).1

/-- What a packet's answer bears beside its bytes. -/
def answerTo (p : Packet) : Wire := { dst := p.src, msg := p.msg, idx := p.idx, mode := p.mode }

/-- A read request is over: its message has all that it waits for (R41). -/
def State.readOver (s : State) (p : Packet) : State :=
  let u := s.packetIn p true
  match u.rxMsg p with
  | some m => u.setRx { m with done := true }
  | none => u
theorem State.sameFabric_readOver (s : State) (p : Packet) : s.SameFabric (s.readOver p) := by
  refine (State.sameFabric_packetIn s p true).trans (.of_eq ?_)
  unfold State.readOver
  dsimp only
  split
  · rw [State.setRx_fabric]
  · rfl

@[simp] theorem State.respond_mem (s : State) (ep pdc : Nat) (rod : Bool) (w : Wire) (data : List Byte) : (s.respond ep pdc rod w data).mem = s.mem := by
  unfold State.respond
  dsimp only
  split <;> rfl
@[simp] theorem State.respond_rx (s : State) (ep pdc : Nat) (rod : Bool) (w : Wire) (data : List Byte) : (s.respond ep pdc rod w data).rx = s.rx := by
  unfold State.respond
  dsimp only
  split <;> rfl

section
variable {s : State} {p : Packet} {part : Nat} {m : RxMsg} {ps : List (Nat × Nat × Option Xlat)} (ht : Says.taken s p part)
include ht

theorem exec_uetWritePacket_early (hm : Says.awaited s p m) {c : Pdc} (hc : s.flowIn p = some c) (hmode : c.mode = .rod) (hn : c.next < p.psn) :
    exec (.uetWritePacket p) s = .next (s.reply p .nakRetry) := by
  refine (exec_uetWritePacket_taken ht).trans (congrArg Host.Outcome.next ?_)
  unfold State.writePacket
  rw [State.receive_known ht hc hm, early_of_before hmode hn]
  rfl

/-- R52: the first packet of a tagged send goes where the armed entry that it matches says. -/
theorem exec_uetTaggedSend_armed (hi : Says.inTurn s p) (hn : s.rxMsg p = none) (hf : s.feature 7 = true) {a : Armed}
    (ha : s.armedFor part p.ep p.tag = some a) (htotal : p.total ≤ a.len) (hlen : p.off + p.data.length ≤ a.len) {s2 : State}
    (hs : s2 = (s.begun (s.taggedMsg p)).matched (s.taggedMsg p) a)
    (hok : s2.ethAddr part (.mem (a.buf.toNat + p.off)) p.data.length true = .ok ps) :
    exec (.uetTaggedSend p) s = .next ((s2.ethWrite part ps p.data p.poisoned).packetIn p true) := by
  obtain ⟨c, hc, hturn⟩ := hi
  have first : (s.rxMsg p).isSome = false := by rw [hn]; rfl
  have fits : ¬(a.len < p.total ∨ a.len < p.off + p.data.length) := by omega
  have known : (s.begun (s.taggedMsg p)).feature 7 = true := hf
  have found : (s.begun (s.taggedMsg p)).armedFor part p.ep p.tag = some a := ha
  refine (exec_uetTaggedSend_taken ht).trans (congrArg Host.Outcome.next ?_)
  unfold State.tagged
  rw [first, State.receive_first ht hc hn, early_of_turn hturn]
  simp only [Bool.false_eq_true, if_false, known, if_true, found, fits]
  subst hs
  exact State.place_ok 3 hok

variable (hi : Says.inTurn s p) (hm : Says.awaited s p m)
include hi hm

theorem exec_uetWritePacket_placed (haop : p.aop < 16) (hk : m.key.fails p.key 1 p.off p.data.length = false)
    (hok : s.ethAddr part (s.keyTarget part m.key p.off p.data.length) p.data.length true = .ok ps) :
    exec (.uetWritePacket p) s = .next ((s.ethWrite part ps p.data p.poisoned).packetIn p true) := by
  refine (exec_uetWritePacket_taken ht).trans (congrArg Host.Outcome.next ?_)
  unfold State.writePacket
  rw [State.receive_awaited ht hi hm, if_neg (by omega), hk, State.place_ok 0 hok]
  rfl

/-- R53: a row for a group that migrates comes again later. -/
theorem exec_uetWritePacket_away {l : Nat × Launch} (haop : p.aop = 16) (hk : m.key.fails p.key 1 0 0 = false) (htyp : m.key.typ = 1)
    (hl : s.keyLaunch part m.key = some l) (haway : s.rowAway part m p.off = true) :
    exec (.uetWritePacket p) s = .next (s.reply p .nakRetry) := by
  refine (exec_uetWritePacket_taken ht).trans (congrArg Host.Outcome.next ?_)
  unfold State.writePacket
  rw [State.receive_awaited ht hi hm, if_pos (by omega), hk, htyp, hl, haop, haway]
  rfl

theorem exec_uetSendPacket_placed (hkind : m.kind = 2) (harmed : m.armed = none) (hk : m.key.fails p.key 1 p.off p.data.length = false)
    (hok : s.ethAddr part (s.keyTarget part m.key p.off p.data.length) p.data.length true = .ok ps) :
    exec (.uetSendPacket p) s = .next ((s.ethWrite part ps p.data p.poisoned).packetIn p true) := by
  refine (exec_uetSendPacket_taken ht).trans (congrArg Host.Outcome.next ?_)
  unfold State.sendPacket
  rw [State.receive_awaited ht hi hm, hkind, harmed]
  simp only [show ¬2 = 9 by decide, show ¬2 = 8 by decide, show ¬2 = 3 by decide, if_false, hk, Bool.false_eq_true]
  exact State.place_ok 2 hok

/-- R32, R41: the bytes that a read asks for leave for its reader. -/
theorem exec_uetReadPacket_answered {d : List Byte} (hk : m.key.fails p.key 0 p.off p.total = false)
    (hok : s.ethAddr part (s.keyTarget part m.key p.off p.total) p.total false = .ok ps) (hd : (s.ethRead part ps).2 = (d, false)) (hlen : d.length ≤ 4096) :
    ∃ t w, exec (.uetReadPacket p) s = .next t ∧ w.msg = p.msg ∧ w.idx = p.idx ∧ w.data = d ∧ w.answer = none ∧ Says.sends s t p.ep p.src w := by
  have bound := Says.taken.ep_lt ht
  have read : s.ethRead part ps = ((s.ethRead part ps).1, d, false) := by rw [← hd]
  have done : s.readPacket p = ((s.ethRead part ps).1.readOver p).respond p.ep p.pdc (p.mode = .rod) (answerTo p) d := by
    unfold State.readPacket
    rw [State.receive_awaited ht hi hm, hk, hok]
    simp only [Bool.false_eq_true, if_false]
    rw [read]
    rfl
  refine ⟨_, { answerTo p with pdc := p.pdc, data := d }, (exec_uetReadPacket_taken ht).trans (congrArg Host.Outcome.next done), rfl, rfl, rfl, rfl, ?_⟩
  exact State.respond_sends ((State.SameFabric.of_eq (s.ethRead_fabric part ps)).trans (State.sameFabric_readOver _ p)) bound hlen p.pdc _

/-- R32, R41: an atomic is performed as one write at the home of its bytes, and answered with the old value. -/
theorem exec_uetAtomicPacket_answered {pa n old : Nat} {e : Xlat} {g : State} (hf : s.feature 26 = true) (hk : m.key.fails p.key 2 p.off 8 = false)
    (haop : p.aop < 8) (hok : s.ethAddr part (s.keyTarget part m.key p.off 8) 8 true = .ok [(pa, n, some e)]) (hpa : pa % 8 = 0)
    (hg : s.engRead part (some e) pa 8 = (g, old, false)) :
    let x := (g.engineWrite part (some e) pa 8 (amoNew p.aop 8 0 old p.operand.toNat p.compare.toNat).1 0 false).packetIn p true
    ∃ t w, exec (.uetAtomicPacket p) s = .next t ∧ t.mem = x.mem ∧ t.rx = x.rx ∧ w.msg = p.msg ∧ w.idx = p.idx ∧ w.data = natBytes old 8 ∧
      Says.sends s t p.ep p.src w := by
  intro x
  have bound := Says.taken.ep_lt ht
  have done : s.atomicPacket p = x.respond p.ep p.pdc (p.mode = .rod) (answerTo p) (natBytes old 8) := by
    have allowed : (!s.feature 26 || m.key.fails p.key 2 p.off 8 || decide (7 < p.aop)) = false := by simp [hf, hk]; omega
    unfold State.atomicPacket
    rw [State.receive_awaited ht hi hm, allowed, hok]
    simp only [Bool.false_eq_true, if_false, hpa, ne_eq, not_true_eq_false]
    rw [hg]
    rfl
  have same : s.SameFabric x := by
    refine .trans (.of_eq ?_) (State.sameFabric_packetIn _ p true)
    rw [State.engineWrite_fabric]
    have := s.engRead_fabric part (some e) pa 8
    rwa [hg] at this
  refine ⟨_, { answerTo p with pdc := p.pdc, data := natBytes old 8 }, (exec_uetAtomicPacket_taken ht).trans (congrArg Host.Outcome.next done),
    State.respond_mem _ _ _ _ _ _, State.respond_rx _ _ _ _ _ _, rfl, rfl, rfl, ?_⟩
  exact State.respond_sends same bound (by simp [natBytes]) p.pdc _
end

/-! ## Held packets and arrival counters (R44, R53) -/

theorem exec_ethHeldPlacement_write {s : State} {h : HeldPacket} (hf : s.heldPackets.find? (fun (x : HeldPacket) => decide (x.id = h.id)) = some h)
    (hw : s.waitsFor h.part .eth h.id = false) (hfail : h.failed = false) (hop : h.op = 0) :
    exec (.ethHeldPlacement h.id) s =
      .next (State.writePacket { s with heldPackets := s.heldPackets.filter fun (x : HeldPacket) => decide (x.id ≠ h.id) } h.p) := by
  show execEthHeldPlacement h.id s = _
  unfold execEthHeldPlacement
  simp only [hf, hw, hfail, hop, Bool.false_eq_true, if_false]

/-- R44: a message that is whole adds one to its counter. -/
theorem exec_arrivalCounterAdd_one {s : State} {m : RxMsg} {pa : Nat} {e : Xlat} (hf : s.rx.find? (fun (x : RxMsg) => decide (x.id = m.id)) = some m)
    (hd : m.done = false) (hb : m.bad = false) (hc : m.count ≤ m.got.length) (ha : m.armed = none) (hmode : m.key.cntMode = 1)
    (hal : m.key.cntAddr.toNat % 8 = 0) (hok : s.engAddr ((s.epPart m.ep).getD 0) 0 none m.key.cntAddr.toNat 8 true true true = .ok pa (some e)) :
    let g := (s.setRx { m with done := true }).engRead ((s.epPart m.ep).getD 0) (some e) pa 8
    g.2.2 = false →
    exec (.arrivalCounterAdd m.id) s = .next (g.1.engineWrite ((s.epPart m.ep).getD 0) (some e) pa 8 (g.2.1 + 1) 0 false) := by
  intro g hg
  have whole : ¬(m.done ∨ m.bad ∨ m.got.length < m.count) := by simp [hd, hb, hc]
  have counts : ¬(m.key.cntMode = 0 ∨ 2 < m.key.cntMode ∨ m.armed.isSome) := by simp [hmode, ha]
  show execArrivalCounterAdd m.id s = _
  unfold execArrivalCounterAdd
  simp only [hf, if_neg whole, if_neg counts, hal, ne_eq, not_true_eq_false, if_false, hok]
  exact (if_neg (ne_true_of_eq_false hg)).trans (by rw [if_pos hmode])

/-! ## O53 -/

/-- Settles O53: the shared first steps lead every packet that the hub takes to what its kind asks, and an answer leaves by the fabric as it was before it.
That a plain send goes where its key says is the model's reading of R43 (log 67), that a packet of ROD before its turn is sent again that of R33 (log 37). -/
theorem packetsDelivered : Obligations.PacketsDelivered := by
  unfold Obligations.PacketsDelivered
  intro s p part ht
  refine ⟨fun hc hroom => exec_packet_newFlow ht hc hroom, fun m ps hi hm => ⟨exec_uetWritePacket_placed ht hi hm, fun l => exec_uetWritePacket_away ht hi hm,
      exec_uetSendPacket_placed ht hi hm, fun d => exec_uetReadPacket_answered ht hi hm, fun pa n e old g => exec_uetAtomicPacket_answered ht hi hm⟩,
    fun m c hm => exec_uetWritePacket_early ht hm, fun a m s2 ps hi hn hf ha htotal hlen hm hs hok => ?tagged, fun h => exec_ethHeldPlacement_write,
    fun m pa e => exec_arrivalCounterAdd_one⟩
  case tagged =>
    subst hm
    exact exec_uetTaggedSend_armed ht hi hn hf ha htotal hlen hs hok

end Sys2Proof.Machine
end

section
/-!
PROOFS. What an access of memory leaves: all but memory, what tiles hold of it, the accesses under way and the records and answers that an applied write calls for.
-/
namespace Sys2Proof.Machine

/-! ## What stands apart from memory -/

/-- What accesses of memory leave of a tile: all but the registers and holds of its contexts, its L1 lines and its partials. -/
def Tile.apart (v : Tile) : Tile := { v with ctxs := [], l1 := [], parts := [] }
/-- What they leave of a state: all but memory, the accesses and reads under way, those parked on a barrier object, completion records with what they hold
up, and interrupts (R71, R84, R139, R186, R229). -/
def State.apart (s : State) : State × (Nat → Tile) :=
  ({ s with nextId := 0, vfr := [], mem := {}, tiles := [], reqs := [], rreads := [], barWait := [], msix := [], windows := [], rings := [], handles := []
            users := [] }, fun t => (s.tile t).apart)

/-- What every step of a fold leaves, the fold leaves. -/
theorem State.foldl_kept {α β : Type} (read : State → β) {f : State → α → State} (h : ∀ u x, read (f u x) = read u) (xs : List α) (s : State) :
    read (xs.foldl f s) = read s :=
  List.foldlRecOn (motive := fun u => read u = read s) xs f rfl fun u hu x _ => (h u x).trans hu

/-- A field apart from memory, read from a state that is the same apart from memory. -/
theorem State.of_apart {β : Type} {s u : State} (h : u.apart = s.apart) (f : State → β)
    (hf : ∀ v : State, f v.apart.1 = f v := by exact fun _ => rfl) : f u = f s := by rw [← hf u, ← hf s, h]
theorem State.tile_of_apart {β : Type} {s u : State} (h : u.apart = s.apart) (f : Tile → β) (t : Nat)
    (hf : ∀ v : Tile, f v.apart = f v := by exact fun _ => rfl) : f (u.tile t) = f (s.tile t) := by
  rw [← hf (u.tile t), ← hf (s.tile t)]
  exact congrArg (fun a => f (a.2 t)) h

theorem Tbl.getD_mapV {α : Type} (f : Nat → α → α) (t : Table α) (k : Nat) {d : α} (h : f k d = d) : Tbl.getD (Tbl.mapV f t) k d = f k (Tbl.getD t k d) := by
  induction t with
  | nil => exact h.symm
  | cons p t ih =>
    obtain ⟨j, v⟩ := p
    unfold Tbl.getD Tbl.mapV at *
    rw [List.map_cons]
    unfold Tbl.find?
    split
    · rename_i e; rw [e]; rfl
    · split
      · exact h.symm
      · exact ih
theorem State.tile_mapV (s : State) (f : Nat → Tile → Tile) (t : Nat) (h : f t {} = {}) : State.tile { s with tiles := Tbl.mapV f s.tiles } t = f t (s.tile t) :=
  Tbl.getD_mapV f s.tiles t h

theorem State.apart_updTile (s : State) (t : Nat) {f : Tile → Tile} (h : ∀ v, (f v).apart = v.apart) : (s.updTile t f).apart = s.apart := by
  refine Prod.ext rfl (funext fun k => ?_)
  show ((s.updTile t f).tile k).apart = _
  rw [State.tile_updTile]
  split
  · rename_i e; rw [e, h]; rfl
  · rfl
theorem State.apart_mapTiles (s : State) {f : Nat → Tile → Tile} (h : ∀ t v, (f t v).apart = v.apart) (h0 : ∀ t, f t {} = {}) :
    State.apart { s with tiles := Tbl.mapV f s.tiles } = s.apart := by
  refine Prod.ext rfl (funext fun k => ?_)
  show (State.tile { s with tiles := Tbl.mapV f s.tiles } k).apart = _
  rw [State.tile_mapV s f k (h0 k), h]
  rfl

@[simp] theorem State.fresh_apart (s : State) : s.fresh.apart = s.apart := rfl
@[simp] theorem State.withMem_apart (s : State) (m : Mem) : State.apart { s with mem := m } = s.apart := rfl
@[simp] theorem State.updCtx_apart (s : State) (t c : Nat) (f : Ctx → Ctx) : (s.updCtx t c f).apart = s.apart := s.apart_updTile t fun _ => rfl

/-! ## Bytes, lines and cache parts (R165, R171) -/

@[simp] theorem State.pokeRaw_apart (s : State) (pa v n : Nat) : (s.pokeRaw pa v n).apart = s.apart := by rw [State.pokeRaw_eq]; rfl
@[simp] theorem State.setMemPoison_apart (s : State) (l : Nat) (p : Bool) : (s.setMemPoison l p).apart = s.apart := by
  unfold State.setMemPoison; split <;> rfl
@[simp] theorem State.memWr_apart (s : State) (line : Nat) (c : CLine) : (s.memWr line c).apart = s.apart := by
  unfold State.memWr; split <;> simp
@[simp] theorem State.evict_apart (s : State) (line : Nat) : (s.evict line).apart = s.apart := by
  unfold State.evict
  split
  · exact State.memWr_apart s line _
  · rfl
@[simp] theorem State.allocate_apart (s : State) (p tenant line : Nat) : (s.allocate p tenant line).apart = s.apart := by
  unfold State.allocate
  split
  · rfl
  · split
    · rfl
    · split
      · rfl
      · dsimp only
        split
        · exact State.evict_apart s _
        · rfl
@[simp] theorem State.pokeHome_apart (s : State) (p tenant pa v n : Nat) (shu : Bool) (bad : Option Bool) :
    (s.pokeHome p tenant pa v n shu bad).apart = s.apart := by
  have written : (match bad with | some b => (s.pokeRaw pa v n).setMemPoison (pa / 64) b | none => s.pokeRaw pa v n).apart = s.apart := by
    cases bad <;> simp
  unfold State.pokeHome
  dsimp only
  split
  · rfl
  · split
    · split <;> exact State.allocate_apart s p tenant _
    · split <;> exact written
@[simp] theorem State.splitReads_apart (s : State) (line : Nat) : (s.splitReads line).apart = s.apart := rfl
@[simp] theorem State.invalL1_apart (s : State) (line : Nat) (keep : Option Nat) : (s.invalL1 line keep).apart = s.apart := by
  refine s.apart_mapTiles (fun t v => ?_) fun t => rfl
  split
  · split <;> rfl
  · rfl
@[simp] theorem State.fillL1_apart (s : State) (p tenant t line pva : Nat) (stamp : Option W32) : (s.fillL1 p tenant t line pva stamp).apart = s.apart :=
  s.apart_updTile t fun _ => rfl

/-! ## Completion records and answers to contexts (R84, R193, R205, R229, R357) -/

@[simp] theorem State.flushRing_apart (s : State) (v n : Nat) : (s.flushRing v n).apart = s.apart := by
  induction n generalizing s with
  | zero => rfl
  | succ n ih =>
    unfold State.flushRing
    split
    · rfl
    · dsimp only
      split
      · rfl
      · rw [ih, State.pokeRaw_eq]
        repeat' split
        all_goals rfl
@[simp] theorem State.completeCmd_apart (s : State) (v w status detail : Nat) : (s.completeCmd v w status detail).apart = s.apart := by
  unfold State.completeCmd
  split
  · rfl
  · split
    · rfl
    · unfold State.endCmd State.complete
      dsimp only
      rw [State.flushRing_apart]
      split <;> rfl
@[simp] theorem State.releaseFrom_apart (s : State) (ids : List Nat) : (s.releaseFrom ids).apart = s.apart := by
  induction ids generalizing s with
  | nil => rfl
  | cons id ids ih =>
    unfold State.releaseFrom
    split
    · exact ih s
    · split
      · exact ih s
      · exact ih _
@[simp] theorem State.acquire_apart (s : State) (t c : Nat) : (s.acquire t c).apart = s.apart := by
  unfold State.acquire State.addFence State.settle State.releaseTile
  dsimp only
  rw [State.releaseFrom_apart]
  split <;> simp
@[simp] theorem State.completeLatched_apart (s : State) (t c : Nat) : (s.completeLatched t c).apart = s.apart := State.updCtx_apart s t c _
@[simp] theorem State.wakeBarrier_apart (s : State) (line : Nat) : (s.wakeBarrier line).apart = s.apart := by
  unfold State.wakeBarrier
  refine State.foldl_kept State.apart (fun u w => ?_) _ _
  rw [State.acquire_apart, State.completeLatched_apart]
@[simp] theorem State.evalWatches_apart (s : State) (line : Nat) : (s.evalWatches line).apart = s.apart := rfl
@[simp] theorem State.evalWaitv_apart (s : State) (line : Nat) : (s.evalWaitv line).apart = s.apart := by
  unfold State.evalWaitv
  refine State.foldl_kept State.apart (fun u q => ?_) _ s
  split
  · split
    · split
      · exact State.completeCmd_apart _ _ _ _ _
      · rfl
    · rfl
  · rfl
@[simp] theorem State.evalWaiters_apart (s : State) (line : Nat) : (s.evalWaiters line).apart = s.apart := by
  unfold State.evalWaiters
  dsimp only
  refine State.foldl_kept State.apart (fun u r => ?_) _ _
  rw [State.fillL1_apart]

/-! ## A write applied, a line served, the tables of a walk read (R171, R186, R194) -/

@[simp] theorem State.applyWrite_apart (s : State) (p tenant pa n v : Nat) (src : Option Nat) (poison shu : Bool) :
    (s.applyWrite p tenant pa n v src poison shu).apart = s.apart := by
  unfold State.applyWrite
  dsimp only
  rw [State.wakeBarrier_apart, State.evalWaitv_apart, State.evalWatches_apart]
  cases src with
  | none => simp
  | some t =>
    dsimp only
    rw [apply_ite State.apart, State.apart_updTile, ite_self]
    · simp
    · intro v
      split <;> rfl
@[simp] theorem State.gather_apart (s : State) (p tenant line : Nat) : (s.gather p tenant line).apart = s.apart := by
  unfold State.gather State.gatherFrom
  dsimp only
  split
  · rfl
  · rw [apply_ite State.apart, State.evalWaiters_apart, State.withMem_apart, State.applyWrite_apart, ite_self]
    exact s.apart_mapTiles (fun _ _ => rfl) fun _ => rfl
@[simp] theorem State.serve_apart (s : State) (p tenant line : Nat) (shu : Bool) : (s.serve p tenant line shu).apart = s.apart := by
  unfold State.serve
  dsimp only
  split <;> simp
@[simp] theorem State.walked_apart (s : State) (a : AsidHeld) (pva : Nat) : (s.walked a pva).apart = s.apart := by
  unfold State.walked
  split
  · exact State.serve_apart _ _ _ _ _
  · dsimp only
    split
    · exact State.serve_apart _ _ _ _ _
    · split <;> simp
@[simp] theorem Says.walks_apart (b : State) (h : AsidHeld) (f : PageFault) (en : Bool) : (Says.walks b h f en).apart = b.apart := by
  unfold Says.walks
  split
  · exact State.walked_apart _ _ _
  · rfl

end Sys2Proof.Machine
end

section
/-!
PROOFS. Page faults on their way, at the pager and woken (R178, R179), and storage paging (R62 to R66), O50: each walk of the tables leaves the faults, the
pages in service and the pools as they are.
-/
namespace Sys2Proof.Machine

/-! ## Records that halt nothing (R262) -/

theorem State.writeRec_eq (s : State) (p : Nat) (r : TrapRec) : s.writeRec p r =
    { s with mem := (s.writeRec p r).mem, msix := (s.writeRec p r).msix, trapqs := (s.writeRec p r).trapqs } := by
  unfold State.writeRec
  dsimp only
  rw [State.pokeRaw_eq]
  split <;> rfl
/-- A replayable or non-fatal record that finds no room waits or is lost; neither halts the partition. -/
theorem State.pushRec_eq (s : State) (p : Nat) {r : TrapRec} (h : r.kind = 2 ∨ r.kind = 3) : s.pushRec p r =
    { s with mem := (s.pushRec p r).mem, msix := (s.pushRec p r).msix, trapqs := (s.pushRec p r).trapqs } := by
  have written := s.writeRec_eq p r
  unfold State.pushRec
  dsimp only
  rcases h with h | h
  · rw [if_pos h]
    split
    · exact written
    · rfl
  · rw [if_neg (by omega), if_pos h]
    split
    · exact written
    · rfl
theorem State.mem_msix_pushRec {s : State} {p : Nat} {r : TrapRec} (h : r.kind = 2 ∨ r.kind = 3) {v : Nat × Nat} (hv : v ∈ s.msix) :
    v ∈ (s.pushRec p r).msix := by
  have written : v ∈ (s.writeRec p r).msix := by
    unfold State.writeRec
    dsimp only
    rw [State.pokeRaw_eq]
    split
    · exact List.mem_append_left _ hv
    · exact hv
  unfold State.pushRec
  dsimp only
  rcases h with h | h
  · rw [if_pos h]
    split
    · exact written
    · exact hv
  · rw [if_neg (by omega), if_pos h]
    split
    · exact written
    · exact hv

/-! ## The way of a fault to the pager (R179) -/

theorem exec_faultMessage_arrives {s : State} {f : PageFault} (hf : s.faults.find? (fun (g : PageFault) => decide (g.id = f.id)) = some f) (h0 : f.stage = 0)
    (hx : f.rx = 8) (hy : f.ry = 4) : exec (.faultMessage f.id) s = .next (s.setFault { f with stage := 2 }) := by
  show execFaultMessage f.id s = _
  unfold execFaultMessage
  rw [hf]
  dsimp only
  rw [if_neg (Decidable.not_not.2 h0), if_pos ⟨hx, hy⟩]

theorem exec_faultMessage_opens {s : State} {f : PageFault} (hf : s.faults.find? (fun (g : PageFault) => decide (g.id = f.id)) = some f) (h0 : f.stage = 0)
    (hp : ¬(f.rx = 8 ∧ f.ry = 4)) (hn : Tbl.getD s.combine (routerNum (f.tile / 1024) f.rx f.ry) [] = []) :
    exec (.faultMessage f.id) s = .next (State.setFault
      { s with combine := Tbl.put s.combine (routerNum (f.tile / 1024) f.rx f.ry) [{ asid := f.asid, page := (s.faultKey f).1, sub := (s.faultKey f).2
                                                                                     ports := [arrivalPort (routerOf f.tile).1 (routerOf f.tile).2 f.rx f.ry] }] }
      { f with rx := (towardsPager f.rx f.ry).1, ry := (towardsPager f.rx f.ry).2 }) := by
  show execFaultMessage f.id s = _
  unfold execFaultMessage
  rw [hf]
  dsimp only
  rw [if_neg (Decidable.not_not.2 h0), if_neg hp, hn]
  rfl

theorem exec_faultMessage_joins {s : State} {f : PageFault} (hf : s.faults.find? (fun (g : PageFault) => decide (g.id = f.id)) = some f) {e : Combine}
    (h0 : f.stage = 0) (hp : ¬(f.rx = 8 ∧ f.ry = 4)) (he : e ∈ Tbl.getD s.combine (routerNum (f.tile / 1024) f.rx f.ry) []) (ha : e.asid = f.asid)
    (hk : (e.page, e.sub) = s.faultKey f) : ∃ c, exec (.faultMessage f.id) s = .next (State.setFault { s with combine := c } { f with stage := 1 }) := by
  obtain ⟨hpage, hsub⟩ : e.page = (s.faultKey f).1 ∧ e.sub = (s.faultKey f).2 := by rw [← hk]; exact ⟨rfl, rfl⟩
  have found : (Tbl.getD s.combine (routerNum (f.tile / 1024) f.rx f.ry) []).any
      (fun (e : Combine) => decide (e.asid = f.asid) && decide (e.page = (s.faultKey f).1) && e.sub == (s.faultKey f).2) = true :=
    List.any_eq_true.2 ⟨e, he, by simp [ha, hpage, hsub]⟩
  refine ⟨?table, ?joins⟩
  case joins =>
    show execFaultMessage f.id s = _
    unfold execFaultMessage
    rw [hf]
    dsimp only
    rw [if_neg (Decidable.not_not.2 h0), if_neg hp, if_pos found]

/-! ## The pager (R179) -/

/-- What the pager does with a fault, once it has walked the tables, by what the walk found. -/
def State.pagerActs (s : State) (f : PageFault) : Walk → State
  | .page e =>
    if f.rw && e.mig then s.setFault { f with stage := 4 }
    else
      let (bad, good) := (s.waitersOf f).partition fun g => (g.rd && !e.r) || (g.wr && !e.w) || (g.xq && !e.x)
      let s := (s.tlb2Fill (f.tile / 1024) e).trapWaiters bad causePageRights 0
      match good with
      | [] => s.freeCombine f
      | g :: _ => s.setFault { (if good.contains f then f else g) with stage := 6 }
  | .storage _ _ _ _ _ _ => s.setFault { f with stage := 5 }
  | .absent d => (s.freeCombine f).trapWaiters (s.waitersOf f) causePageAbsent d

/-- The entry by which the pager of a fault's die walks the tables, and the state once it has read them. -/
def State.pagerAsid (s : State) (f : PageFault) : AsidHeld := (s.holdAsid f.tile f.asid).asidOf f.tile f.asid
def State.atPager (s : State) (f : PageFault) : State := Says.walks (s.holdAsid f.tile f.asid) (s.pagerAsid f) f (s.partAsid f.part).2

@[simp] theorem State.holdAsid_pf (s : State) (t a : Nat) : (s.holdAsid t a).pf = s.pf := by unfold State.holdAsid; split <;> rfl
@[simp] theorem State.holdAsid_faults (s : State) (t a : Nat) : (s.holdAsid t a).faults = s.faults := by unfold State.holdAsid; split <;> rfl
@[simp] theorem State.holdAsid_launches (s : State) (t a : Nat) : (s.holdAsid t a).launches = s.launches := by unfold State.holdAsid; split <;> rfl
@[simp] theorem State.holdAsid_quiet (s : State) (t a k : Nat) : ((s.holdAsid t a).tile k).quiet = (s.tile k).quiet := by
  unfold State.holdAsid
  split
  · rfl
  · rw [State.tile_updTile]
    split
    · rename_i h; rw [h]
    · rfl
@[simp] theorem State.partAsid_holdAsid (s : State) (t a p : Nat) : (s.holdAsid t a).partAsid p = s.partAsid p := by
  unfold State.partAsid State.pfr
  rw [State.holdAsid_pf]

theorem exec_pagerWalk {s : State} {f : PageFault} (hf : s.faults.find? (fun (g : PageFault) => decide (g.id = f.id)) = some f) (h2 : f.stage = 2)
    (hroom : (s.faults.filter fun g => decide (4 ≤ g.stage) && decide (g.stage < 7) && decide (g.who = .ctx) && decide (g.tile / 1024 = f.tile / 1024)).length < 256)
    {w : Walk} (hw : (s.atPager f).walk (s.pagerAsid f) f.part f.pva (s.partAsid f.part).2 = w) :
    exec (.pagerWalk f.id) s = .next ((s.atPager f).pagerActs f w) := by
  show execPagerWalk f.id s = _
  unfold execPagerWalk
  rw [hf]
  dsimp only
  rw [if_neg (by omega), State.partAsid_holdAsid]
  rw [show (s.holdAsid f.tile f.asid).asidOf f.tile f.asid = s.pagerAsid f from rfl,
    show (if (s.pagerAsid f).serves f.part (s.partAsid f.part).2 then (s.holdAsid f.tile f.asid).walked (s.pagerAsid f) f.pva
      else s.holdAsid f.tile f.asid) = s.atPager f from rfl, hw]
  cases w with
  | page e =>
    unfold State.pagerActs
    dsimp only
    split
    · rfl
    · generalize List.partition _ ((s.atPager f).waitersOf f) = sorted
      obtain ⟨bad, good⟩ := sorted
      cases good with
      | nil => rfl
      | cons g rest => rfl
  | storage => rfl
  | absent d => rfl

theorem State.atPager_faults (s : State) (f : PageFault) : (s.atPager f).faults = s.faults :=
  (State.of_apart (Says.walks_apart _ _ _ _) State.faults).trans (s.holdAsid_faults _ _)

/-- Whether a group moves depends on the launches and on which tiles are quiet alone (R119, R124). -/
theorem State.groupMoves_congr {s u : State} (hl : u.launches = s.launches) (hq : ∀ t, (u.tile t).quiet = (s.tile t).quiet) (k g : Nat) :
    u.groupMoves k g = s.groupMoves k g := by
  unfold State.groupMoves State.groupAway
  simp only [hl, hq]
theorem State.atPager_groupMoves (s : State) (f : PageFault) (k g : Nat) : (s.atPager f).groupMoves k g = s.groupMoves k g :=
  State.groupMoves_congr ((State.of_apart (Says.walks_apart _ _ _ _) State.launches).trans (s.holdAsid_launches _ _))
    (fun t => (State.tile_of_apart (Says.walks_apart _ _ _ _) Tile.quiet t).trans (s.holdAsid_quiet _ _ t)) k g

theorem State.mem_waitersOf_self {s : State} {f : PageFault} (h : f ∈ s.faults) : f ∈ s.waitersOf f := List.mem_filter.2 ⟨h, by simp⟩

theorem State.trapWaiters_nil (s : State) (cause detail : Nat) : s.trapWaiters [] cause detail = s := by
  have kept : (s.faults.filter fun _ => true).map (fun g => g) = s.faults := (List.map_id' _).trans (List.filter_eq_self.2 fun _ _ => rfl)
  exact congrArg (fun l => { s with faults := l }) kept

/-- A right that is there wherever it is asked for is not lacking. -/
theorem and_not_eq_false {asked right : Bool} (h : asked = true → right = true) : (asked && !right) = false := by
  cases asked with
  | false => rfl
  | true => rw [h rfl]; rfl

/-- Where every waiter has its rights, the page is mapped and the wake starts (R179). -/
theorem State.pagerActs_page {s : State} {f : PageFault} (hf : f ∈ s.faults) {e : Xlat} (hmig : f.rw = true → e.mig = false)
    (hr : ∀ g ∈ s.waitersOf f, (g.rd = true → e.r = true) ∧ (g.wr = true → e.w = true) ∧ (g.xq = true → e.x = true)) :
    s.pagerActs f (.page e) = (s.tlb2Fill (f.tile / 1024) e).setFault { f with stage := 6 } := by
  have moves : (f.rw && e.mig) = false := by
    cases h : f.rw with
    | false => rfl
    | true => exact hmig h
  have served : ∀ g ∈ s.waitersOf f, ((g.rd && !e.r) || (g.wr && !e.w) || (g.xq && !e.x)) = false := fun g hg => by
    obtain ⟨hrd, hwr, hxq⟩ := hr g hg
    rw [and_not_eq_false hrd, and_not_eq_false hwr, and_not_eq_false hxq]
    rfl
  have bad : (s.waitersOf f).filter (fun g => (g.rd && !e.r) || (g.wr && !e.w) || (g.xq && !e.x)) = [] := by
    rw [List.filter_eq_nil_iff]
    exact fun g hg => Bool.eq_false_iff.1 (served g hg)
  have good : (s.waitersOf f).filter (not ∘ fun g => (g.rd && !e.r) || (g.wr && !e.w) || (g.xq && !e.x)) = s.waitersOf f := by
    rw [List.filter_eq_self]
    intro g hg
    rw [Function.comp_apply, served g hg]
    rfl
  have self : (s.waitersOf f).contains f = true := List.contains_iff_mem.2 (State.mem_waitersOf_self hf)
  unfold State.pagerActs
  dsimp only
  rw [moves, List.partition_eq_filter_filter, bad, good]
  dsimp only
  rw [State.trapWaiters_nil, if_neg Bool.false_ne_true]
  split
  · rename_i h
    rw [h] at self
    cases self
  · rw [self]
    rfl

theorem State.mem_tlb2Fill (s : State) (die : Nat) (e : Xlat) : (die, e) ∈ (s.tlb2Fill die e).tlb2 := by
  unfold State.tlb2Fill
  exact List.mem_append_left _ (by simp)
/-- A die's second level keeps its bound (R178). -/
theorem State.tlb2Fill_bound (s : State) (die : Nat) (e : Xlat) : ((s.tlb2Fill die e).tlb2.filter fun q => decide (q.1 = die)).length ≤ 32768 := by
  have others : ((s.tlb2.filter (not ∘ fun q => decide (q.1 = die))).filter fun q => decide (q.1 = die)) = [] := by
    rw [List.filter_eq_nil_iff]
    intro q hq
    simpa using (List.mem_filter.1 hq).2
  unfold State.tlb2Fill
  rw [List.partition_eq_filter_filter]
  dsimp only
  rw [List.filter_append, others, List.append_nil]
  exact Nat.le_trans (List.length_filter_le _ _) (List.length_take_le _ _)

/-- PAGE_ABSENT goes to the trap queue and leaves every fault (R179, R257). -/
theorem State.takeTrap_faults_of_absent (s : State) (t c : Nat) {i : TrapInfo} (hi : i.cause = causePageAbsent) : (s.takeTrap t c i).faults = s.faults := by
  have replays : replayable i.cause = true := by rw [hi]; rfl
  have noHandler : ∀ u : State, u.toHandler t c i.cause = false := fun u => by rw [hi]; rfl
  have kind : ∀ u : State, (u.trapRecOf t c i).kind = 2 := fun u => by
    unfold State.trapRecOf
    rw [replays]
    rfl
  unfold State.takeTrap
  dsimp only
  rw [replays, noHandler, if_neg Bool.false_ne_true, if_pos rfl, if_pos rfl, apply_ite State.faults, State.pushRec_eq _ _ (.inl (kind _))]
  exact ite_self _
theorem State.trapParked_faults_of_absent (s : State) (f : PageFault) (detail : Nat) : (s.trapParked f causePageAbsent detail).faults = s.faults := by
  unfold State.trapParked
  split
  · rfl
  · dsimp only
    split
    · rfl
    · exact State.takeTrap_faults_of_absent s _ _ rfl

/-- A fault that ends in PAGE_ABSENT, its group being on its tile, is over (R179). -/
theorem State.trapWaiters_absent {s : State} {ws : List PageFault} {f : PageFault} (hf : f ∈ ws) (hm : s.groupMoves f.launch f.group = false) (detail : Nat) :
    ∀ g ∈ (s.trapWaiters ws causePageAbsent detail).faults, g.id ≠ f.id := by
  have here : f.id ∈ (ws.filter fun g => !s.heldOff g).map (·.id) := by
    refine List.mem_map_of_mem (List.mem_filter.2 ⟨hf, ?_⟩)
    rw [State.heldOff, hm]
    rfl
  unfold State.trapWaiters
  dsimp only
  intro g hg
  rw [State.foldl_kept State.faults fun u x => State.trapParked_faults_of_absent u x detail] at hg
  obtain ⟨x, hx, rfl⟩ := List.mem_map.1 hg
  have stays : x.id ≠ f.id := fun e => by
    have := (List.mem_filter.1 hx).2
    rw [e] at this
    simp [here] at this
  split <;> exact stays

/-! ## Wakes (R179, R124) -/

theorem exec_faultWake_away {s : State} {f : PageFault} (hf : s.faults.find? (fun (g : PageFault) => decide (g.id = f.id)) = some f) (h7 : f.stage = 7)
    (hm : s.groupMoves f.launch f.group = true) : exec (.faultWake f.id) s = .next s := by
  show execFaultWake f.id s = _
  unfold execFaultWake
  rw [hf]
  dsimp only
  rw [if_pos h7]
  exact if_pos hm

/-- The state once fault f has left it, with the entries of its key (R179). -/
def State.faultGone (s : State) (f : PageFault) : State :=
  { s.freeCombine f with faults := s.faults.filter fun g => !List.contains [f.id] g.id }

theorem exec_faultWake_alone {s : State} {f : PageFault} (hf : s.faults.find? (fun (g : PageFault) => decide (g.id = f.id)) = some f) {t : Nat} (h6 : f.stage = 6)
    (hw : f.who = .ctx) (hws : s.waitersOf f = [f]) (hm : s.groupMoves f.launch f.group = false) (ht : s.whereIs f = some t)
    (ha : s.alive t f.ctx f.gen = true) (hp : (s.ctx t f.ctx).park = 9) :
    exec (.faultWake f.id) s = .next ((s.faultGone f).updCtx t f.ctx fun x => x.wake s.cyc) := by
  have off : s.heldOff f = false := hm
  have woken : (s.faultGone f).wakeFault f = (s.faultGone f).updCtx t f.ctx fun x => x.wake s.cyc := by
    have place : (s.faultGone f).whereIs f = some t := ht
    have waits : (s.faultGone f).alive t f.ctx f.gen = true ∧ ((s.faultGone f).ctx t f.ctx).park = 9 := ⟨ha, hp⟩
    unfold State.wakeFault
    rw [place]
    exact if_pos waits
  show execFaultWake f.id s = _
  unfold execFaultWake
  rw [hf]
  dsimp only
  rw [if_neg (by omega), if_neg (Decidable.not_not.2 h6), if_neg (Decidable.not_not.2 hw), hws]
  simp only [List.filter_cons, off, Bool.not_false, if_true, List.filter_nil, Bool.false_eq_true, if_false, List.map_nil, List.map_cons, List.foldl_cons,
    List.foldl_nil, List.contains_nil, List.map_id']
  exact congrArg Host.Outcome.next (Eq.trans (b := (s.faultGone f).wakeFault f) rfl woken)

theorem faultWake_wakes {s : State} {f : PageFault} (hf : s.faults.find? (fun (g : PageFault) => decide (g.id = f.id)) = some f) {t : Nat} (h6 : f.stage = 6)
    (hw : f.who = .ctx) (hws : s.waitersOf f = [f]) (hm : s.groupMoves f.launch f.group = false) (ht : s.whereIs f = some t)
    (ha : s.alive t f.ctx f.gen = true) (hp : (s.ctx t f.ctx).park = 9) :
    ∃ s', exec (.faultWake f.id) s = .next s' ∧ (s'.ctx t f.ctx).park = 0 ∧ (s'.ctx t f.ctx).latch = (s.ctx t f.ctx).latch ∧
      (s'.ctx t f.ctx).x = (s.ctx t f.ctx).x ∧ (∀ g ∈ s'.faults, g.id ≠ f.id) ∧ ∀ pa, s'.peek pa = s.peek pa := by
  have kept : ∀ k, (((s.faultGone f).updCtx t f.ctx fun x => x.wake s.cyc).tile k).junk = (s.tile k).junk := fun k =>
    State.tile_of_apart ((s.faultGone f).updCtx_apart t f.ctx _) Tile.junk k
  refine ⟨_, exec_faultWake_alone hf h6 hw hws hm ht ha hp, ?_, ?_, ?_, fun g hg => ?_, State.peek_congr rfl rfl rfl kept⟩
  · rw [State.ctx_updCtx_same]; rfl
  · rw [State.ctx_updCtx_same]; rfl
  · rw [State.ctx_updCtx_same]; rfl
  · have := (List.mem_filter.1 hg).2
    simpa using this

end Sys2Proof.Machine
end

section
/-!
PROOFS. Storage paging (R62 to R66), and O50.
-/
namespace Sys2Proof.Machine

/-! ## Frames and Reads (R60, R63, R64) -/

@[simp] theorem State.engUse_pages (s : State) (a : Nat) : (s.engUse a).pages = s.pages := by unfold State.engUse; split <;> rfl
@[simp] theorem State.engUse_pool (s : State) (a p : Nat) : (s.engUse a).pool p = s.pool p := by unfold State.engUse; split <;> rfl
@[simp] theorem State.engUse_nsSsd (s : State) (a p ns lba : Nat) : (s.engUse a).nsSsd p ns lba = s.nsSsd p ns lba := by unfold State.engUse; split <;> rfl
/-- The entry that the engines hold from their first use on is the one that they use first (R174). -/
@[simp] theorem State.engAsid_engUse (s : State) (a : Nat) : (s.engUse a).engAsid a = s.engAsid a := by
  unfold State.engUse
  split
  · rfl
  · rename_i h
    have none : s.engAsids.find? (fun h => decide (h.asid = a)) = none := by
      rw [List.find?_eq_none]
      intro x hx hd
      exact h (List.any_eq_true.2 ⟨x, hx, hd⟩)
    unfold State.engAsid
    rw [none, List.find?_cons_of_pos (by exact decide_eq_true rfl)]

theorem State.feedPages_of_fed {s : State} {p : Nat} (h : ∀ y ∈ s.pages, y.part = p → y.frame.isSome = true) : s.feedPages p = s := by
  have fed : s.pages.find? (fun (y : PageSvc) => decide (y.part = p) && y.frame.isNone) = none := by
    rw [List.find?_eq_none]
    intro y hy hn
    simp only [Bool.and_eq_true, decide_eq_true_eq, Option.isNone_iff_eq_none] at hn
    obtain ⟨hp, hn⟩ := hn
    simpa [hn] using h y hy hp
  unfold State.feedPages
  rw [fed]

/-- The page that began first to wait for a frame takes the oldest one (R64). -/
theorem State.feedPages_takes {s : State} {p : Nat} {x : PageSvc} (hx : s.pages.find? (fun (y : PageSvc) => decide (y.part = p) && y.frame.isNone) = some x)
    {fr : Nat} {rest : List Nat} (hf : (s.pool p).frames = fr :: rest) :
    (s.feedPages p).pages = s.pages.map (fun (y : PageSvc) => if y.id = x.id then { y with frame := some fr } else y) ∧
      ((s.feedPages p).pool p).frames = rest := by
  have pool : State.pool { s with pools := Tbl.put s.pools p { s.pool p with frames := rest } } p = { s.pool p with frames := rest } :=
    Tbl.getD_put_same _ _ _ _
  unfold State.feedPages State.takeFrame
  rw [hx, hf]
  dsimp only
  split
  · exact ⟨rfl, congrArg Pool.frames pool⟩
  · exact ⟨rfl, congrArg Pool.frames pool⟩

/-- The same page in service, but for its Reads and when they were submitted. -/
def PageSvc.Same (x y : PageSvc) : Prop := { y with reads := x.reads, since := x.since } = x

/-- Submitting Reads leaves the pools, and every page but for its Reads (R60). -/
theorem State.submitReads_keeps (s : State) : s.submitReads.pools = s.pools ∧ ∀ x ∈ s.pages, ∃ y ∈ s.submitReads.pages, x.Same y := by
  unfold State.submitReads
  refine List.foldlRecOn (motive := fun (u : State) => u.pools = s.pools ∧ ∀ x ∈ s.pages, ∃ y ∈ u.pages, x.Same y) _ _
    ⟨rfl, fun x hx => ⟨x, hx, rfl⟩⟩ fun u hu z _ => ?_
  obtain ⟨hpools, hpages⟩ := hu
  split
  · dsimp only
    split
    · refine ⟨hpools, fun x hx => ?_⟩
      obtain ⟨y, hy, he⟩ := hpages x hx
      refine ⟨_, List.mem_map_of_mem hy, ?_⟩
      split <;> exact he
    · exact ⟨hpools, hpages⟩
  · exact ⟨hpools, hpages⟩

/-- Where every page that has a frame has submitted its Reads there are none to submit (R60). -/
theorem State.submitReads_of_submitted {s : State} (h : ∀ y ∈ s.pages, y.frame.isSome = true → y.reads ≠ []) : s.submitReads = s := by
  unfold State.submitReads
  refine List.foldlRecOn (motive := fun (u : State) => u = s) _ _ rfl fun u hu y hy => ?_
  subst hu
  split
  · rename_i hf
    have out : y.reads.isEmpty = false := by simpa using h y hy (by rw [hf]; rfl)
    dsimp only
    rw [out]
    exact if_neg fun hc => Bool.false_ne_true hc.1
  · rfl

/-! ## A storage fault enters service (R65) -/

/-- The state once the storage engines have walked the tables for a fault (R62, R174). -/
def State.atStorage (s : State) (f : PageFault) : State := Says.walks (s.engUse f.asid) (s.engAsid f.asid) f true
/-- The page that a fault brings into service. -/
def State.pageFor (s : State) (f : PageFault) (h : AsidHeld) (ns lba ssd : Nat) : PageSvc :=
  { id := s.nextId, part := f.part, asid := f.asid, pva := f.pva / 0x200000, entry := s.peekN (s.leafPa h f.pva) 8, ns, lba, ssd, faults := [f] }

theorem State.atStorage_pages (s : State) (f : PageFault) : (s.atStorage f).pages = s.pages :=
  (State.of_apart (Says.walks_apart _ _ _ _) State.pages).trans (s.engUse_pages _)
theorem State.atStorage_pool (s : State) (f : PageFault) (p : Nat) : (s.atStorage f).pool p = s.pool p :=
  (State.of_apart (Says.walks_apart _ _ _ _) fun u => u.pool p).trans (s.engUse_pool _ _)
theorem State.atStorage_nsSsd (s : State) (f : PageFault) (p ns lba : Nat) : (s.atStorage f).nsSsd p ns lba = s.nsSsd p ns lba :=
  (State.of_apart (Says.walks_apart _ _ _ _) fun u => u.nsSsd p ns lba).trans (s.engUse_nsSsd _ _ _ _)

theorem exec_storageFault_begins {s : State} {f : PageFault} {lba ns ssd : Nat} {shu r w x : Bool}
    (hf : s.faults.find? (fun (g : PageFault) => decide (g.id = f.id)) = some f) (h5 : f.stage = 5) (hwait : s.pageWait = [])
    (hpages : ∀ y ∈ s.pages, (y.part = f.part → y.pva ≠ f.pva / 0x200000) ∧ ∀ g ∈ y.faults, g.id ≠ f.id) (hroom : s.pages.length < 4096)
    (hwalk : (s.atStorage f).walk (s.engAsid f.asid) f.part f.pva true = .storage lba ns shu r w x) (hns : s.nsSsd f.part ns lba = some ssd)
    (hpool : (s.pool f.part).frames ≠ []) :
    exec (.storageFault f.id) s = .next ((State.feedPages (State.fresh
      { s.atStorage f with pages := s.pages ++ [(s.atStorage f).pageFor f (s.engAsid f.asid) ns lba ssd] }) f.part).submitReads) := by
  have unserved : s.pages.any (fun (x : PageSvc) => x.faults.any fun g => decide (g.id = f.id)) = false := by
    rw [List.any_eq_false]
    intro y hy h
    obtain ⟨g, hg, he⟩ := List.any_eq_true.1 h
    exact (hpages y hy).2 g hg (of_decide_eq_true he)
  have begins : s.pages.any (fun (x : PageSvc) => decide (x.part = f.part) && decide (x.pva = f.pva / 0x200000)) = false := by
    rw [List.any_eq_false]
    intro y hy h
    obtain ⟨hp, hv⟩ := Bool.and_eq_true_iff.1 h
    exact (hpages y hy).1 (of_decide_eq_true hp) (of_decide_eq_true hv)
  have frames : ((s.atStorage f).pool f.part).frames.isEmpty = false := by
    rw [State.atStorage_pool]
    simpa using hpool
  have serves : exec (.storageFault f.id) s = .next (s.servePage f) := by
    show execStorageFault f.id s = _
    unfold execStorageFault
    rw [hf]
    dsimp only
    rw [if_neg (by simp [h5, hwait, unserved]), begins, if_neg Bool.false_ne_true, if_neg (by simp [hwait]; omega)]
  rw [serves]
  refine congrArg Host.Outcome.next ?_
  unfold State.servePage
  dsimp only
  rw [begins, if_neg Bool.false_ne_true, State.engAsid_engUse,
    show (if (s.engAsid f.asid).serves f.part true then (s.engUse f.asid).walked (s.engAsid f.asid) f.pva else s.engUse f.asid) = s.atStorage f from rfl, hwalk]
  dsimp only
  rw [State.atStorage_nsSsd, hns]
  dsimp only
  rw [frames, if_neg Bool.false_ne_true, State.atStorage_pages]
  rfl

theorem storageFault_serves {s : State} {f : PageFault} {lba ns ssd fr : Nat} {rest : List Nat} {shu r w x : Bool}
    (hf : s.faults.find? (fun (g : PageFault) => decide (g.id = f.id)) = some f) (h5 : f.stage = 5) (hwait : s.pageWait = [])
    (hpages : ∀ y ∈ s.pages, (y.part = f.part → y.frame.isSome = true ∧ y.pva ≠ f.pva / 0x200000) ∧ ∀ g ∈ y.faults, g.id ≠ f.id)
    (hroom : s.pages.length < 4096) (hwalk : (s.atStorage f).walk (s.engAsid f.asid) f.part f.pva true = .storage lba ns shu r w x)
    (hns : s.nsSsd f.part ns lba = some ssd) (hpool : (s.pool f.part).frames = fr :: rest) :
    ∃ t y, exec (.storageFault f.id) s = .next t ∧ y ∈ t.pages ∧ y.frame = some fr ∧ y.ssd = ssd ∧ y.part = f.part ∧ y.asid = f.asid ∧
      y.pva = f.pva / 0x200000 ∧ y.faults = [f] ∧ (t.pool f.part).frames = rest := by
  have exec_eq := exec_storageFault_begins hf h5 hwait (fun y hy => ⟨fun hp => ((hpages y hy).1 hp).2, (hpages y hy).2⟩) hroom hwalk hns (by rw [hpool]; simp)
  generalize hp : (s.atStorage f).pageFor f (s.engAsid f.asid) ns lba ssd = p at exec_eq
  generalize hu : State.fresh { s.atStorage f with pages := s.pages ++ [p] } = u at exec_eq
  have waits : u.pages.find? (fun (y : PageSvc) => decide (y.part = f.part) && y.frame.isNone) = some p := by
    have fed : s.pages.find? (fun (y : PageSvc) => decide (y.part = f.part) && y.frame.isNone) = none := by
      rw [List.find?_eq_none]
      intro y hy hn
      simp only [Bool.and_eq_true, decide_eq_true_eq, Option.isNone_iff_eq_none] at hn
      obtain ⟨hpart, hn⟩ := hn
      simpa [hn] using ((hpages y hy).1 hpart).1
    subst hu hp
    show (s.pages ++ [_]).find? _ = _
    rw [List.find?_append, fed]
    simp [State.pageFor]
  have frames : (u.pool f.part).frames = fr :: rest := by
    subst hu
    rw [← hpool, ← s.atStorage_pool f]
    rfl
  obtain ⟨taken, left⟩ := State.feedPages_takes waits frames
  obtain ⟨pools, kept⟩ := (u.feedPages f.part).submitReads_keeps
  have served : { p with frame := some fr } ∈ (u.feedPages f.part).pages := by
    rw [taken]
    refine List.mem_map.2 ⟨p, ?_, if_pos rfl⟩
    subst hu
    exact List.mem_append_right _ List.mem_cons_self
  obtain ⟨y, hy, he⟩ := kept _ served
  refine ⟨_, y, exec_eq, hy, ?_, ?_, ?_, ?_, ?_, ?_, ?_⟩
  case refine_7 =>
    rw [← left]
    unfold State.pool
    rw [pools]
  · exact congrArg PageSvc.frame he
  all_goals subst hp
  · exact congrArg PageSvc.ssd he
  · exact congrArg PageSvc.part he
  · exact congrArg PageSvc.asid he
  · exact congrArg PageSvc.pva he
  · exact congrArg PageSvc.faults he

/-! ## The end of a service (R65, R66) -/

section
variable {s : State} {y : PageSvc} {fr : Nat} (hy : s.pages.find? (fun (z : PageSvc) => decide (z.id = y.id)) = some y) (hf : y.frame = some fr)
  (hr : y.reads ≠ [])
include hy hf hr

theorem exec_storageReadComplete_installs {data : List Host.Cell} {bad : List Nat}
    (he : (s.fillFrame fr data bad).peekN (s.leafPa (s.engAsid y.asid) (y.pva * 0x200000)) 8 = y.entry) :
    exec (.storageReadComplete y.id true data bad) s = .next ((((s.fillFrame fr data bad).applyWrite y.part (s.engAsid y.asid).tenant
      (s.leafPa (s.engAsid y.asid) (y.pva * 0x200000)) 8 (y.entry % 16 / 2 * 2 + (if bit y.entry 6 then 64 else 0) + 16 + 1 + fr) none false
      false).wakePage y).nextPages y.part) := by
  have reading : y.reads.isEmpty = false := by simpa using hr
  show execStorageReadComplete y.id true data bad s = _
  unfold execStorageReadComplete
  rw [hy]
  dsimp only
  rw [reading, if_neg Bool.false_ne_true, hf]
  dsimp only
  rw [if_neg (by decide), if_neg (Decidable.not_not.2 he)]

theorem exec_storageReadComplete_fails (data : List Host.Cell) (bad : List Nat) :
    exec (.storageReadComplete y.id false data bad) s = .next (s.failPage y) := by
  have reading : y.reads.isEmpty = false := by simpa using hr
  show execStorageReadComplete y.id false data bad s = _
  unfold execStorageReadComplete
  rw [hy]
  dsimp only
  rw [reading, if_neg Bool.false_ne_true, hf]
  rfl

omit hf in
theorem exec_storageTimeout (ht : y.since + (s.pfr 0x6800).toNat % 2 ^ 32 ≤ s.hub) : exec (.storageTimeout y.id) s = .next (s.failPage y) := by
  show execStorageTimeout y.id s = _
  unfold execStorageTimeout
  rw [hy]
  exact if_pos ⟨hr, ht⟩
end

theorem State.failPages_none {s : State} {pick : PageSvc → Bool} (h : ∀ y ∈ s.pages, pick y = false) : s.failPages pick = s := by
  have none : s.pages.filter pick = [] := by
    rw [List.filter_eq_nil_iff]
    exact fun y hy => Bool.eq_false_iff.1 (h y hy)
  unfold State.failPages
  rw [none]
  rfl

/-- R59, R66, R71: an SSD without pages in service goes down: PF vector 2 and the records of its partitions alone follow. -/
theorem exec_ssdLinkDown_idle {s : State} {ssd : Nat} (hd : bit s.ssdDown ssd = false) (ht : s.ssdThere ssd = true) (hp : ∀ y ∈ s.pages, y.ssd ≠ ssd) :
    ∃ parts : List Nat, exec (.ssdLinkDown ssd) s = .next (parts.foldl
      (fun (u : State) p => u.pushRec p { kind := 3, code := 70, at_ := u.CYC, aux := BitVec.ofNat 64 ssd })
      (State.raise { s with ssdDown := s.ssdDown + 2 ^ ssd } 0 2)) := by
  have idle : (State.raise { s with ssdDown := s.ssdDown + 2 ^ ssd } 0 2).failPages (fun x => decide (x.ssd = ssd)) =
      State.raise { s with ssdDown := s.ssdDown + 2 ^ ssd } 0 2 :=
    State.failPages_none fun y hy => decide_eq_false (hp y hy)
  refine ⟨?parts, ?out⟩
  case out =>
    show execSsdLinkDown ssd s = _
    unfold execSsdLinkDown
    rw [hd, ht, if_neg (by decide)]
    dsimp only
    rw [idle]

theorem ssdLinkDown_reports {s : State} {ssd : Nat} (hd : bit s.ssdDown ssd = false) (ht : s.ssdThere ssd = true) (hp : ∀ y ∈ s.pages, y.ssd ≠ ssd) :
    ∃ t, exec (.ssdLinkDown ssd) s = .next t ∧ t.ssdDown = s.ssdDown + 2 ^ ssd ∧ (0, 2) ∈ t.msix ∧ t.pages = s.pages := by
  obtain ⟨parts, out⟩ := exec_ssdLinkDown_idle hd ht hp
  have record (u : State) (p : Nat) := State.pushRec_eq u p (r := { kind := 3, code := 70, at_ := u.CYC, aux := BitVec.ofNat 64 ssd }) (.inr rfl)
  refine ⟨_, out, ?_, ?_, ?_⟩
  · exact State.foldl_kept State.ssdDown (fun u p => by rw [record u p]) _ _
  · exact List.foldlRecOn (motive := fun (u : State) => (0, 2) ∈ u.msix) _ _ (List.mem_append_right _ List.mem_cons_self)
      fun u hu p _ => State.mem_msix_pushRec (.inr rfl) hu
  · exact State.foldl_kept State.pages (fun u p => by rw [record u p]) _ _

/-! ## Frames pushed (R63) -/

theorem exec_freeFramePush_joins {s : State} {p k : Nat} {v : Word}
    (hfed : ∀ y ∈ s.pages, (y.part = p → y.frame.isSome = true) ∧ (y.frame.isSome = true → y.reads ≠ []))
    (hv : v.toNat < 2 ^ 52) (ha : v.toNat % 0x200000 = 0) (hk : s.mrtOf v.toNat = some k) (hp : s.mrtPart k = p)
    (hfit : v.toNat + 0x200000 ≤ s.mrtBase k + s.mrtSize k) (hroom : (s.pool p).frames.length < 65536) :
    exec (.freeFramePush p v) s = .next { s with pools := Tbl.put s.pools p { s.pool p with frames := (s.pool p).frames ++ [v.toNat] } } := by
  show execFreeFramePush p v s = _
  unfold execFreeFramePush
  rw [Nat.mod_eq_of_lt hv]
  dsimp only
  rw [hk, if_neg (by simp [ha, hp, hfit, hroom]), State.feedPages_of_fed, State.submitReads_of_submitted]
  · exact fun y hy => (hfed y hy).2
  · exact fun y hy => (hfed y hy).1

theorem exec_freeFramePush_refused {s : State} {p : Nat} {v : Word} (h : v.toNat % 0x200000 ≠ 0 ∨ 65536 ≤ (s.pool p).frames.length) :
    exec (.freeFramePush p v) s = .next { s with pools := Tbl.put s.pools p { s.pool p with rej := true } } := by
  refine if_pos (h.imp (fun hm => ?_) .inr)
  rwa [Nat.mod_mod_of_dvd _ (by decide)]

/-! ## O50 -/

/-- Settles O50: the walks of the pager and of the storage engines leave the faults, the pages in service, the pools and where a group lies as they are, so that
each event ends as its rule says. That a page's Reads go out together, and the corners of R61 to R63, are the model's choices (log 55), as is what counts as
absent (log 28). -/
theorem pagesServed : Obligations.PagesServed := by
  unfold Obligations.PagesServed
  refine ⟨fun s f hf => ⟨exec_faultMessage_arrives hf, fun h0 hp hn => ?opens, fun e h0 hp he ha hk => ?joins, ?pager, exec_faultWake_away hf,
      fun t => faultWake_wakes hf⟩,
    fun s => ⟨fun f lba ns ssd fr rest shu r w x hf h5 hwait hpages hroom hwalk hns hpool => storageFault_serves hf h5 hwait hpages hroom hwalk hns hpool,
      fun y fr hy hfr hr => ⟨fun data bad => exec_storageReadComplete_installs hy hfr hr, exec_storageReadComplete_fails hy hfr hr, exec_storageTimeout hy hr⟩,
      fun ssd => ssdLinkDown_reports,
      fun p v hfed => ⟨fun k hv ha hk hp hfit hroom => exec_freeFramePush_joins hfed hv ha hk hp hfit hroom, exec_freeFramePush_refused⟩⟩⟩
  case opens => exact ⟨_, _, exec_faultMessage_opens hf h0 hp hn, rfl, Tbl.getD_put_same _ _ _ _, rfl, rfl, rfl⟩
  case joins =>
    obtain ⟨c, h⟩ := exec_faultMessage_joins hf h0 hp he ha hk
    exact ⟨_, h, rfl⟩
  case pager =>
    intro h en s1 die h2 hroom
    have mem : f ∈ (s.atPager f).faults := s.atPager_faults f ▸ List.mem_of_find?_eq_some hf
    have acts (w : Walk) (hw : s1.walk h f.part f.pva en = w) : exec (.pagerWalk f.id) s = .next (s1.pagerActs f w) := exec_pagerWalk hf h2 hroom hw
    refine ⟨fun e hw hmig hr => ⟨(acts _ hw).trans ?page, State.mem_tlb2Fill _ _ _, State.tlb2Fill_bound _ _ _⟩, fun e hw hrw hmig => (acts _ hw).trans ?held,
      fun lba ns shu r w x hw => acts _ hw, fun d hw hm => ⟨_, acts _ hw, ?absent⟩⟩
    case page => exact congrArg Host.Outcome.next (State.pagerActs_page mem hmig hr)
    case held => exact congrArg Host.Outcome.next (if_pos (by rw [hrw, hmig]; rfl))
    case absent =>
      exact State.trapWaiters_absent (s := s1.freeCombine f) (State.mem_waitersOf_self mem) ((s.atPager_groupMoves f _ _).trans hm) d

end Sys2Proof.Machine
end

section
/-!
PROOFS. Stamp-set requests (R202), O44. The statement is refuted by a state that has a partition beyond the 64, whose cluster mask lies where the request leaves
its status; where every partition is one of the 64, its clause holds.
-/
namespace Sys2Proof.Machine

/-! ## Bytes read after a write of a PF register behind those of the partitions (R55, R69) -/

theorem isVault_iff (pa : Nat) : isVault pa = true ↔ pa < 0x100000000 := by
  unfold isVault
  rw [decide_eq_true_eq]

theorem find?_congr_of_mem {α : Type} {p q : α → Bool} {l : List α} (h : ∀ x ∈ l, p x = q x) : l.find? p = l.find? q := by
  induction l with
  | nil => rfl
  | cons x l ih =>
    rw [List.find?_cons, List.find?_cons, h x List.mem_cons_self, ih fun y hy => h y (List.mem_cons_of_mem x hy)]

/-- The partitions that a state lists are among the 64 (R69). -/
def State.partsExist (s : State) : Prop := ∀ q ∈ s.parts, q.1 < 64

section
variable {s u : State} (hparts : u.parts = s.parts) (hp : s.partsExist) (hpf : ∀ off < 0xA000, u.pfr off = s.pfr off)
include hpf

theorem State.partHas_of_pfr {p n : Nat} (h : p < 64) (hn : n < 512) : u.partHas p n = s.partHas p n := by
  unfold State.partHas
  rw [hpf _ (by omega)]

theorem State.mrtOf_of_pfr (pa : Nat) : u.mrtOf pa = s.mrtOf pa := by
  unfold State.mrtOf
  refine congrArg (fun r => if isCxl pa then r else none) (find?_congr_of_mem fun k hk => ?_)
  have := List.mem_range.1 hk
  unfold State.mrtOn State.mrtBase State.mrtSize
  rw [hpf _ (by omega), hpf _ (by omega), hpf _ (by omega)]

theorem State.cxlPort_of_pfr {k : Nat} (h : k < 64) (pa : Nat) : u.cxlPort k pa = s.cxlPort k pa := by
  unfold State.cxlPort State.mrtBase State.mrtGran State.mrtPorts State.mrtHdm
  rw [hpf _ (by omega), hpf _ (by omega), hpf _ (by omega)]

include hparts hp

theorem State.vaultBytes_of_pfr {n : Nat} (hn : n < 512) : u.vaultBytes n = s.vaultBytes n := by
  have listed : u.parts.find? (fun q => q.2.enabled && u.partHas q.1 n) = s.parts.find? (fun q => q.2.enabled && s.partHas q.1 n) := by
    rw [hparts]
    exact find?_congr_of_mem fun q hq => by rw [State.partHas_of_pfr hpf (hp q hq) hn]
  have named : (List.range 64).find? (fun p => u.partHas p n) = (List.range 64).find? fun p => s.partHas p n :=
    find?_congr_of_mem fun p hp => State.partHas_of_pfr hpf (List.mem_range.1 hp) hn
  have vault : ∀ p < 64, u.vault p = s.vault p := fun p h => by
    unfold State.vault
    rw [hpf _ (by omega)]
  unfold State.vaultBytes State.holder
  rw [listed, named]
  cases hl : s.parts.find? (fun q => q.2.enabled && s.partHas q.1 n) with
  | some q => exact congrArg (· * 0x200000) (vault q.1 (hp q (List.mem_of_find?_eq_some hl)))
  | none => cases hm : (List.range 64).find? (fun p => s.partHas p n) with
    | some p => exact congrArg (· * 0x200000) (vault p (List.mem_range.1 (List.mem_of_find?_eq_some hm)))
    | none => rfl

/-- Where a byte is kept depends, of the PF registers, on those of the ranges and of the partitions alone. -/
theorem State.memKey_of_pfr (pa : Nat) : u.memKey pa = s.memKey pa := by
  have vault : u.inVault pa = s.inVault pa := by
    unfold State.inVault
    cases hv : isVault pa with
    | false => rw [Bool.false_and, Bool.false_and]
    | true =>
      have := (isVault_iff pa).1 hv
      rw [State.vaultBytes_of_pfr hparts hp hpf (by omega)]
  unfold State.memKey
  rw [vault, State.mrtOf_of_pfr hpf]
  cases hm : s.mrtOf pa with
  | none => rw [Option.map_none, Option.map_none]
  | some k =>
    have hk : k < 64 := by
      unfold State.mrtOf at hm
      rw [Option.ite_none_right_eq_some] at hm
      exact List.mem_range.1 (List.mem_of_find?_eq_some hm.2)
    rw [Option.map_some, Option.map_some, State.cxlPort_of_pfr hpf hk]

theorem State.peek_of_pfr (hcells : u.mem.cells = s.mem.cells) (hcxl : u.mem.cxl = s.mem.cxl) (hjunk : ∀ t, (u.tile t).junk = (s.tile t).junk) (pa : Nat) :
    u.peek pa = s.peek pa := by
  unfold State.peek State.cached State.memByte
  rw [hcells, hcxl, hjunk, State.memKey_of_pfr hparts hp hpf]
end

/-! ## Stamp-set requests (R202) -/

theorem Tbl.getD_foldl_put {α : Type} (ls : List Nat) (v d : α) (t : Table α) (k : Nat) :
    Tbl.getD (ls.foldl (fun m l => Tbl.put m l v) t) k d = if k ∈ ls then v else Tbl.getD t k d := by
  induction ls generalizing t with
  | nil => rfl
  | cons l ls ih =>
    rw [List.foldl_cons, ih, Tbl.getD_put]
    by_cases hl : k ∈ ls
    · rw [if_pos hl, if_pos (List.mem_cons_of_mem _ hl)]
    · by_cases hk : k = l
      · rw [if_neg hl, if_pos hk, if_pos (hk ▸ List.mem_cons_self)]
      · rw [if_neg hl, if_neg hk, if_neg (by simp [hl, hk])]

/-- The n lines from l on. -/
def linesFrom (l n : Nat) : List Nat := (List.range n).map (· + l)
theorem mem_linesFrom {l n k : Nat} : k ∈ linesFrom l n ↔ l ≤ k ∧ k < l + n := by
  unfold linesFrom
  rw [List.mem_map]
  constructor
  · rintro ⟨i, hi, rfl⟩
    have := List.mem_range.1 hi
    omega
  · rintro ⟨h1, h2⟩
    exact ⟨k - l, List.mem_range.2 (by omega), by omega⟩

/-- Lines take a stamp, their L1 copies leave, and the loads that wait for them are evaluated. -/
def State.restamped (s : State) (lines : List Nat) (stamp : W32) : State :=
  lines.foldl (fun (s : State) l => s.evalWaiters l) { s with
    mem := { s.mem with stamps := lines.foldl (fun m l => Tbl.put m l stamp) s.mem.stamps }
    tiles := Tbl.mapV (fun _ (v : Tile) => { v with l1 := v.l1.filter fun c => !lines.contains c.1 }) s.tiles }
/-- The request is in progress. -/
def State.stampsSet (s : State) (l n : Nat) (stamp : W32) : State := State.setPf { s.restamped (linesFrom l n) stamp with stset := true } 0xB810 1

theorem State.evalWaiters_mem (s : State) (line : Nat) : (s.evalWaiters line).mem = s.mem := by
  unfold State.evalWaiters
  dsimp only
  refine State.foldl_kept State.mem (fun u r => ?_) _ _
  rfl
theorem State.restamped_mem (s : State) (lines : List Nat) (stamp : W32) :
    (s.restamped lines stamp).mem = { s.mem with stamps := lines.foldl (fun m l => Tbl.put m l stamp) s.mem.stamps } :=
  State.foldl_kept State.mem State.evalWaiters_mem _ _
@[simp] theorem State.restamped_apart (s : State) (lines : List Nat) (stamp : W32) : (s.restamped lines stamp).apart = s.apart :=
  (State.foldl_kept State.apart State.evalWaiters_apart _ _).trans
    (State.apart_mapTiles { s with mem := { s.mem with stamps := lines.foldl (fun m l => Tbl.put m l stamp) s.mem.stamps } } (fun _ _ => rfl) fun _ => rfl)

section
variable {s : State} {v : Word} {p l n : Nat} (hs : s.stset = false) (hgo : v.toNat / 2 ^ 63 = 1) (hr : v.toNat / 2 ^ 49 % 2 ^ 14 = 0)
  (ha : s.pfr 0xB800 = BitVec.ofNat 64 (64 * l)) (hl : 64 * l < 0x100000000) (hn : n = v.toNat / 2 ^ 32 % 2 ^ 17 + 1)
  (hp : s.holder (l / 0x20000) = some p) (hfit : 64 * l % 0x800000 + 64 * n ≤ s.vault p * 0x200000)
include hs hgo hr ha hl hn hp hfit

/-- A request for lines within one slice's vault part is begun. -/
theorem exec_stampSetRequest : exec (.stampSetRequest v) s = .next (s.stampsSet l n (BitVec.ofNat 32 v.toNat)) := by
  have addr : (s.pfr 0xB800).toNat = 64 * l := by
    rw [ha, BitVec.toNat_ofNat]
    exact Nat.mod_eq_of_lt (by omega)
  have line : bits (64 * l) 51 6 = l := by
    show 64 * l / 2 ^ 6 % 2 ^ 46 = l
    omega
  have go : bit v.toNat 63 = true := decide_eq_true (by omega)
  have count : bits v.toNat 48 32 + 1 = n := hn.symm
  have slice : l * 64 / 0x800000 = l / 0x20000 := by omega
  have vault : s.vaultBytes (l / 0x20000) = s.vault p * 0x200000 := by
    unfold State.vaultBytes
    rw [hp]
  have fits : (isVault (l * 64) && decide (l * 64 % 0x800000 + 64 * n ≤ s.vaultBytes (l * 64 / 0x800000))) = true := by
    rw [slice, vault, Nat.mul_comm l 64, decide_eq_true hfit, Bool.and_true]
    rw [isVault_iff]
    exact hl
  have inOrder : ¬(bits v.toNat 62 49 ≠ 0 ∨ bits (64 * l) 63 52 ≠ 0 ∨ bits (64 * l) 5 0 ≠ 0 ∨ True = False) := by
    have high : bits (64 * l) 63 52 = 0 := by
      show 64 * l / 2 ^ 52 % 2 ^ 12 = 0
      omega
    have low : bits (64 * l) 5 0 = 0 := by
      show 64 * l / 2 ^ 0 % 2 ^ 6 = 0
      omega
    have reserved : bits v.toNat 62 49 = 0 := hr
    simp [high, low, reserved]
  show execStampSetRequest v s = _
  unfold execStampSetRequest
  dsimp only
  rw [addr, line, count, fits, if_neg (by rw [go, hs]; decide), if_neg (by simpa using inOrder), Nat.mul_div_cancel l (by decide)]
  rfl

/-- R202, where every partition is one of the 64: the clause for which `not_portsAndSlicesManaged` has a counterexample, with the hypothesis that it lacks. -/
theorem stampSetRequest_sets (hparts : s.partsExist) :
    ∃ t, exec (.stampSetRequest v) s = .next t ∧ t.stset = true ∧ t.pfr 0xB810 = 1 ∧ (∀ pa, t.peek pa = s.peek pa) ∧
      (∀ k, l ≤ k → k < l + n → Tbl.getD t.mem.stamps k 0 = BitVec.ofNat 32 v.toNat) ∧
      (∀ k, k < l ∨ l + n ≤ k → Tbl.getD t.mem.stamps k 0 = Tbl.getD s.mem.stamps k 0) := by
  have same : (s.restamped (linesFrom l n) (BitVec.ofNat 32 v.toNat)).apart = s.apart := s.restamped_apart _ _
  have mem := s.restamped_mem (linesFrom l n) (BitVec.ofNat 32 v.toNat)
  have stamp (k : Nat) : Tbl.getD (s.stampsSet l n (BitVec.ofNat 32 v.toNat)).mem.stamps k 0 =
      if l ≤ k ∧ k < l + n then BitVec.ofNat 32 v.toNat else Tbl.getD s.mem.stamps k 0 := by
    show Tbl.getD (s.restamped (linesFrom l n) (BitVec.ofNat 32 v.toNat)).mem.stamps k 0 = _
    rw [mem, Tbl.getD_foldl_put]
    simp only [mem_linesFrom]
  refine ⟨_, exec_stampSetRequest hs hgo hr ha hl hn hp hfit, rfl, State.pfr_setPf_same _ _ _, State.peek_of_pfr ?parts hparts ?pfr ?cells ?cxl ?junk,
    fun k h1 h2 => by rw [stamp, if_pos ⟨h1, h2⟩], fun k h => by rw [stamp, if_neg (by omega)]⟩
  case parts => exact State.of_apart same State.parts
  case pfr => exact fun off ho => (State.pfr_setPf_other _ _ (by omega)).trans (State.of_apart same fun u => u.pfr off)
  case cells =>
    show (s.restamped _ _).mem.cells = _
    rw [mem]
  case cxl =>
    show (s.restamped _ _).mem.cxl = _
    rw [mem]
  case junk => exact State.tile_of_apart same Tile.junk
end

/-! ## O44 -/

/-- Partition 0 holds cluster 0 with one vault unit, and the state lists these partitions. Registers behind those of the 64 partitions hold what would be the
vault unit of a partition 112; a byte lies in the vault window of slice 128, of which no partition holds a part. -/
def stampState (parts : Table Part) : State :=
  { pf := [(0x8000, 1), (0x8040, 4), (0xB840, 4)], parts, mem := { cells := [(0x40000000, 1)] } }

/-- A request in order for line 0 (R202). -/
def stampLine0 : Word := BitVec.ofNat 64 (2 ^ 63 + 6)

/-- The hypotheses of `stampSetRequest_sets` can be met. -/
theorem stampSetRequest_sets_witness : ∃ t, exec (.stampSetRequest stampLine0) (stampState [(0, { enabled := true })]) = .next t ∧ t.stset = true ∧
    t.pfr 0xB810 = 1 ∧ (∀ pa, t.peek pa = (stampState [(0, { enabled := true })]).peek pa) ∧
    (∀ k, 0 ≤ k → k < 0 + 1 → Tbl.getD t.mem.stamps k 0 = BitVec.ofNat 32 stampLine0.toNat) ∧
    (∀ k, k < 0 ∨ 0 + 1 ≤ k → Tbl.getD t.mem.stamps k 0 = Tbl.getD (stampState [(0, { enabled := true })]).mem.stamps k 0) :=
  stampSetRequest_sets (p := 0) rfl (by decide) (by decide) (by decide) (by decide) (by decide) (by decide +kernel) (by decide +kernel)
    (by unfold State.partsExist; decide)

/-- The status of a stamp-set request, 1, lies where partition 112, if there were one, would name cluster 128. -/
def partition112 : State := stampState [(0, { enabled := true }), (112, { enabled := true })]

theorem partition112_memInv : MemInv partition112 := by decide +kernel
theorem partition112_peek : partition112.peek 0x40000000 = 0 := by decide +kernel
theorem partition112_peek_stampsSet : (partition112.stampsSet 0 1 (BitVec.ofNat 32 stampLine0.toNat)).peek 0x40000000 = 1 := by decide +kernel

/-- Refutes O44: after a stamp-set request a byte reads 1 that read 0. The clause asks nothing of the partitions, and `partition112`, whose memory is canonical
(`partition112_memInv`), lists one beyond the 64: the status of the request, written at 0xB810, makes it hold cluster 128, and the byte of that cluster's vault
window is then there. The partition table of R69 has 64 entries, so the part is not expected to reach such a state; where every partition is one of the 64, the
clause holds (`stampSetRequest_sets`). -/
theorem not_portsAndSlicesManaged : ¬ Obligations.PortsAndSlicesManaged := by
  unfold Obligations.PortsAndSlicesManaged
  rintro ⟨-, hslices⟩
  obtain ⟨-, -, -, -, -, -, -, hstamp, -⟩ := hslices partition112
  have ha : partition112.pfr 0xB800 = BitVec.ofNat 64 (64 * 0) := by decide +kernel
  have hp : partition112.holder (0 / 0x20000) = some 0 := by decide +kernel
  have hfit : 64 * 0 % 0x800000 + 64 * 1 ≤ partition112.vault 0 * 0x200000 := by decide +kernel
  obtain ⟨t, ht, -, -, hpeek, -⟩ := hstamp stampLine0 0 0 1 rfl (by decide) (by decide) ha (by decide) (by decide) hp hfit
  have begun := exec_stampSetRequest (s := partition112) (v := stampLine0) rfl (by decide) (by decide) ha (by decide) (n := 1) (by decide) hp hfit
  rw [begun] at ht
  injection ht with ht
  have he := hpeek 0x40000000
  rw [← ht, partition112_peek_stampsSet, partition112_peek] at he
  exact absurd he (by decide)

end Sys2Proof.Machine
end

section
/-!
PROOFS. Stamped loads and waits send their access (R193, R204, R347, R357), O18: what the address checks leave, what an access carries as it enters, and the
acquire of a wait.
-/
namespace Sys2Proof.Machine

/-! ## What the address checks leave (R134, R174, R178) -/

theorem Says.Becomes.holdAsid {s b : State} {t c : Nat} {v : Tile} {x : Ctx} (h : Says.Becomes s b t c v x) (a : Nat) :
    ∃ w, Says.Becomes (s.holdAsid t a) b t c w x := by
  unfold State.holdAsid
  split
  · exact ⟨v, h⟩
  · exact ⟨_, h.updTile (fun v => { v with asids := s.asidEntry a :: v.asids }) (fun _ => rfl) (fun _ => rfl) fun _ => rfl⟩

theorem Says.Becomes.tlbFill {s b : State} {t c : Nat} {v : Tile} {x : Ctx} (h : Says.Becomes s b t c v x) (e : Xlat) :
    ∃ w, Says.Becomes (s.tlbFill t e) b t c w x := by
  obtain ⟨w, held⟩ := h.holdAsid (s.partAsid (s.partOf t)).1
  unfold State.tlbFill State.useAsid
  dsimp only
  split
  · exact ⟨w, held⟩
  · exact ⟨_, held.updTile (fun v => { v with tlb := (e :: v.tlb).take 256 }) (fun _ => rfl) (fun _ => rfl) fun _ => rfl⟩

section
variable {s s1 : State} {u : Cur} {va : Word} {n pa : Nat} {r w wr : Bool} {e : Option Xlat} (h : Says.resolves s u va n r w wr s1 pa e)
include h

/-- An address that resolves leaves every context, and all but its tile, as they were. -/
theorem Says.becomes_of_resolves : ∃ v, Says.Becomes s1 s u.tile u.ctx v (s.ctx u.tile u.ctx) := by
  obtain ⟨-, hat⟩ := h
  have self := Says.becomes_self s u.tile u.ctx
  unfold State.access at hat
  split at hat
  · cases hat
  · split at hat
    · cases hat
    · cases hat
      exact ⟨_, self⟩
  · dsimp only at hat
    split at hat
    · cases hat
    · cases hat
    · cases hat
      exact self.tlbFill _

theorem withAddr_of_resolves (k : State → Nat → Option Xlat → Iss) : withAddr s u.tile u.ctx va.toNat n r w wr k = k s1 pa e := by
  obtain ⟨haligned, hat⟩ := h
  unfold withAddr
  rw [if_neg (Decidable.not_not.2 haligned), hat]
end

/-! ## What an access carries as it enters (R187, R191, R352) -/

/-- An access as it enters: held at the port, or on its way. -/
def State.entered (s : State) (r : Req) : Req :=
  let q := { r with id := s.nextId, entry := s.nextId, round := (s.ctx r.tile r.ctx).relRnd }
  if s.portHolds r.tile r.ctx r.isLoad then { q with stage := .port } else s.launchReq q

/-- The state with these accesses, and n the next place in program order. -/
def State.withReqs (s : State) (rs : List Req) (n : Nat) : State := { s with reqs := rs, nextId := n }

@[simp] theorem State.withReqs_cyc (s : State) (rs : List Req) (n : Nat) : (s.withReqs rs n).cyc = s.cyc := rfl

theorem State.addReq_eq (s : State) (r : Req) : s.addReq r = s.withReqs (s.reqs ++ [s.entered r]) (s.nextId + 1) := rfl

/-- A loaded value that is found at the tile is all that an access takes from there, but for SBIND's. -/
theorem State.launchReq_eq (s : State) {r : Req} (h : r.kind ≠ .sbind) :
    ∃ g v p a, s.launchReq r = { r with stage := g, val := v, poison := p, age := a } := by
  unfold State.launchReq
  split
  case h_3 => contradiction
  all_goals repeat' split
  all_goals exact ⟨_, _, _, _, rfl⟩

theorem State.entered_eq (s : State) {r : Req} (h : r.kind ≠ .sbind) : ∃ g v p a, s.entered r =
    { r with id := s.nextId, entry := s.nextId, round := (s.ctx r.tile r.ctx).relRnd, stage := g, val := v, poison := p, age := a } := by
  unfold State.entered
  dsimp only
  split
  · exact ⟨_, _, _, _, rfl⟩
  · exact State.launchReq_eq s h

/-- A wait that nothing holds goes to its home (R357). -/
theorem State.entered_of_wait {s : State} {r : Req} (hk : r.kind = .waitw ∨ r.kind = .waitc) (h : s.portHolds r.tile r.ctx true = false) :
    s.entered r = { r with id := s.nextId, entry := s.nextId, round := (s.ctx r.tile r.ctx).relRnd, stage := .flight } := by
  have loads : r.isLoad = true := by rcases hk with hk | hk <;> simp [Req.isLoad, hk]
  unfold State.entered
  dsimp only
  rw [loads, h, if_neg Bool.false_ne_true]
  rcases hk with hk | hk <;> simp [State.launchReq, hk]

theorem Says.Becomes.cyc {s b : State} {t c : Nat} {v : Tile} {x : Ctx} (h : Says.Becomes s b t c v x) : s.cyc = b.cyc := by
  rw [h.rest]

theorem Says.Becomes.withReqs {s b : State} {t c : Nat} {v : Tile} {x : Ctx} (h : Says.Becomes s b t c v x) (rs : List Req) (n : Nat) :
    Says.Becomes (s.withReqs rs n) (b.withReqs rs n) t c v x :=
  h.other (fun z => z.withReqs rs n) (fun _ => rfl) (fun _ => rfl) (fun _ => rfl) (fun _ => rfl) fun _ _ => rfl

/-- What enters is the newest access, as it was asked for. -/
theorem Says.sent_addReq {s z : State} {u : Cur} {r : Req} (hk : r.kind ≠ .sbind) (hreqs : z.reqs = s.reqs) (hid : z.nextId = s.nextId) (ht : r.tile = u.tile)
    (hc : r.ctx = u.ctx) (hg : r.gen = (s.ctx u.tile u.ctx).gen) : ∃ n g v p a, Says.sent s (z.addReq r) u r.kind r.pa r.n r.dst
      { r with id := z.nextId, entry := z.nextId, round := n, stage := g, val := v, poison := p, age := a } := by
  obtain ⟨g, v, p, a, hq⟩ := z.entered_eq hk
  exact ⟨_, g, v, p, a, by rw [State.addReq_eq, hq, hreqs]; rfl, hid, congrArg (· + 1) hid, ht, hc, hg, rfl, rfl, rfl, rfl⟩

/-! ## A pending register leaves all else of its context (R126) -/

@[simp] theorem Says.awaiting_pc (x : Ctx) (d : Nat) : (Says.awaiting x d).pc = x.pc := by unfold Says.awaiting; split <;> rfl
@[simp] theorem Says.awaiting_latch (x : Ctx) (d : Nat) : (Says.awaiting x d).latch = x.latch := by unfold Says.awaiting; split <;> rfl
@[simp] theorem Says.awaiting_fences (x : Ctx) (d : Nat) : (Says.awaiting x d).fences = x.fences := by unfold Says.awaiting; split <;> rfl
@[simp] theorem Says.awaiting_clearing (x : Ctx) (d : Nat) : (Says.awaiting x d).clearing = x.clearing := by unfold Says.awaiting; split <;> rfl
@[simp] theorem Says.awaiting_relRnd (x : Ctx) (d : Nat) : (Says.awaiting x d).relRnd = x.relRnd := by unfold Says.awaiting; split <;> rfl

@[simp] theorem State.setPending_reqs (s : State) (t c d : Nat) : (s.setPending t c d).reqs = s.reqs := by unfold State.setPending; split <;> rfl
@[simp] theorem State.setPending_nextId (s : State) (t c d : Nat) : (s.setPending t c d).nextId = s.nextId := by unfold State.setPending; split <;> rfl

theorem State.ctx_setPending (s : State) (t c d : Nat) : (s.setPending t c d).ctx t c = Says.awaiting (s.ctx t c) d :=
  ((Says.becomes_self s t c).setPending d).ctx

theorem State.portHolds_setPending (s : State) (t c d : Nat) : (s.setPending t c d).portHolds t c true = s.portHolds t c true := by
  unfold State.portHolds Ctx.blocked
  rw [State.ctx_setPending]
  simp

/-- The latch of an instruction of word w that waits for its answer (R109, R111). -/
def Ctx.latchFor (x : Ctx) (w : W32) : Latch :=
  { insn := w, pc := x.pc, next := x.latch.bind (·.next), timer := (match x.latch with | some l => l.timer | none => 0) }
/-- A context that has issued that instruction at cycle n, and is not ready until it is answered. -/
def Ctx.heldFor (x : Ctx) (n S : Nat) (w : W32) : Ctx := { x with busy := true, park := 0, readyAt := n + 4 * (1 + S), latch := some (x.latchFor w) }

theorem Says.latchFor_awaiting (x : Ctx) (d : Nat) (w : W32) : (Says.awaiting x d).latchFor w = x.latchFor w := by
  unfold Ctx.latchFor
  rw [Says.awaiting_pc, Says.awaiting_latch]

theorem Says.Becomes.busy {s b : State} {S : Nat} {u : Cur} {v : Tile} {x : Ctx} (h : Says.Becomes s b u.tile u.ctx v x) :
    Says.Becomes (finish S u (.busy s)) b u.tile u.ctx v (x.heldFor b.cyc S u.insn) := by
  have held : finish S u (.busy s) = s.updCtx u.tile u.ctx fun x => x.heldFor s.cyc S u.insn := rfl
  rw [held, h.cyc]
  exact h.updCtx _

/-! ## LDA.W and LDA.N (R204, R347) -/

/-- The access of LDA.W (wait) or LDA.N for the pair d, d + 1. -/
def State.ldaReq (s : State) (t c d lag va pa : Nat) (e : Option Xlat) (wait : Bool) : Req :=
  let r := { s.reqOf t c (if wait then .ldaW else .ldaN) va pa 8 e with dst := d, data := b2n (s.wasOpen t c d), cmp := b2n (s.wasOpen t c (d + 1)) }
  { r with lag := if r.stamped then lag else 511, spent := if wait then s.timerOf t c else 0 }

/-- A stamped load as it leaves: the pair is pending. -/
def State.ldaSent (s : State) (t c d lag va pa : Nat) (e : Option Xlat) (wait : Bool) : State :=
  ((s.setPending t c d).setPending t c (d + 1)).addReq (s.ldaReq t c d lag va pa e wait)

section
variable {s s1 : State} {u : Cur} {d a pa : Nat} {va : Word} {e : Option Xlat} (hcur : s.cur = some u) (hfeat : s.feature 0 = true) (heven : d % 2 = 0)
  (hmap : ¬(d = 30 ∧ (s.ctx u.tile u.ctx).mapped = true)) (ha : Says.readable (s.ctx u.tile u.ctx) s.cyc a va)
  (hd : Says.writable (s.ctx u.tile u.ctx) d) (hd' : Says.writable (s.ctx u.tile u.ctx) (d + 1))
  (hres : Says.resolves s u va 8 true false false s1 pa e) (hroom : s1.portFull u.tile u.ctx true = false)
include hcur hfeat heven hmap ha hd hd' hres hroom

theorem ldaOp_sends (S lag : Nat) (wait : Bool) :
    let z := s1.ldaSent u.tile u.ctx d lag va.toNat pa e wait
    ldaOp S s d a lag wait = .next (finish S u (if wait then .busy z else .done z)) := by
  have legal : (!s.feature 0 || decide (d % 2 = 1) || (decide (d = 30) && (s.ctx u.tile u.ctx).mapped)) = false := by
    rw [hfeat, decide_eq_false (by omega)]
    simpa using hmap
  have operands : Says.sources (s.ctx u.tile u.ctx) s.cyc [a] [va] := ⟨ha, trivial⟩
  unfold ldaOp
  rw [issue_next S s _ hcur, legal, if_neg Bool.false_ne_true, withOps_next _ operands (by simpa using ⟨hd, hd'⟩)]
  refine congrArg (Host.Outcome.next ∘ finish S u) ((withAddr_of_resolves hres _).trans ?_)
  rw [hroom]
  rfl
end

theorem Says.becomes_ldaSent (s : State) (t c d lag va pa : Nat) (e : Option Xlat) (wait : Bool) :
    let z := s.ldaSent t c d lag va pa e wait
    Says.Becomes z (s.withReqs z.reqs z.nextId) t c (s.tile t) (Says.awaiting (Says.awaiting (s.ctx t c) d) (d + 1)) :=
  (((Says.becomes_self s t c).setPending d).setPending (d + 1)).withReqs _ _

/-- The stamped load is the newest access, with ITER and, where its line bears stamps, the lag asked for. -/
theorem State.ldaSent_sent (s : State) (u : Cur) (d lag va pa : Nat) (e : Option Xlat) (wait : Bool) :
    ∃ r, Says.sent s (s.ldaSent u.tile u.ctx d lag va pa e wait) u (if wait then .ldaW else .ldaN) pa 8 d r ∧
      r.lag = (if (match e with | some x => x.stamp | none => false) then lag else 511) ∧ r.iter = (s.ctx u.tile u.ctx).iter := by
  have hk : (s.ldaReq u.tile u.ctx d lag va pa e wait).kind ≠ .sbind := by
    show (if wait then ReqKind.ldaW else ReqKind.ldaN) ≠ .sbind
    cases wait <;> decide
  obtain ⟨n, g, v, p, b, hsent⟩ := Says.sent_addReq (s := s) (z := (s.setPending u.tile u.ctx d).setPending u.tile u.ctx (d + 1)) (u := u) hk (by simp) (by simp)
    rfl rfl rfl
  exact ⟨_, hsent, rfl, rfl⟩

/-! ## WAITW and WAITC (R193, R346, R357) -/

/-- With no access of the tile at the port, nothing goes on from there. -/
theorem State.releaseTile_of_none {s : State} {t : Nat} (h : ∀ r ∈ s.reqs, r.tile = t → r.stage ≠ .port) : s.releaseTile t = s := by
  have none_held : (s.reqs.filter fun r => decide (r.tile = t) && decide (r.stage = .port)) = [] := by
    rw [List.filter_eq_nil_iff]
    intro r hr
    simpa using h r hr
  unfold State.releaseTile
  rw [none_held]
  rfl

/-- The holds of a context that do not end (R192, R193, R353). -/
def State.lastingFences (s : State) (t c : Nat) : List Fence :=
  (s.ctx t c).fences.filter fun f => match f.kind with
    | .acq => s.loadsOut t c f.id
    | .tile => s.loadsOut t c f.id || s.storesHeld t c f.id || s.unitBusy t c f.id
    | .range => s.storesHeld t c f.id
    | _ => true

theorem Says.Becomes.settle {s b : State} {t c : Nat} {v : Tile} {x : Ctx} (h : Says.Becomes s b t c v x)
    (hport : ∀ r ∈ s.reqs, r.tile = t → r.stage ≠ .port) : Says.Becomes (s.settle t c) b t c v { x with fences := s.lastingFences t c } := by
  have settled : s.settle t c = if (s.lastingFences t c).length = (s.ctx t c).fences.length then s
      else s.updCtx t c fun x => { x with fences := s.lastingFences t c } := by
    refine State.releaseTile_of_none ?_
    split <;> exact hport
  rw [settled]
  split
  · rename_i hall
    have kept : s.lastingFences t c = x.fences := by
      rw [← h.ctx]
      exact List.filter_eq_self.2 (List.length_filter_eq_length_iff.1 hall)
    rw [kept]
    exact h
  · exact h.updCtx fun x => { x with fences := s.lastingFences t c }

/-- The hold that an acquire puts at the port (R193). -/
def State.acquireHold (s : State) : Fence := { id := s.nextId, kind := .acq, loads := true, round := 0 }

/-- An acquire whose context has a load out holds what comes later. -/
theorem Says.Becomes.acquire {s b : State} {t c : Nat} {v : Tile} {x : Ctx} (h : Says.Becomes s b t c v x)
    (hport : ∀ r ∈ s.reqs, r.tile = t → r.stage ≠ .port) (hout : s.loadsOut t c s.nextId = true) :
    ∃ fs, s.acquireHold ∈ fs ∧ Says.Becomes (s.acquire t c) (b.withReqs s.reqs (s.nextId + 1)) t c v { x with fences := fs } := by
  have entered := (h.updCtx fun x => { x with fences := x.fences ++ [s.acquireHold] }).withReqs s.reqs (s.nextId + 1)
  refine ⟨_, List.mem_filter.2 ⟨?_, hout⟩, entered.settle hport⟩
  rw [entered.ctx]
  exact List.mem_append_right _ List.mem_cons_self

/-- The access of a WAITW or WAITC for the word at pa. -/
def State.waitReq (s : State) (t c d cond va pa : Nat) (vb : Word) (e : Option Xlat) (k : ReqKind) : Req :=
  { s.reqOf t c k va pa 8 e with dst := d, op := cond, cmp := vb.toNat, stamped := false }

/-- A wait as it leaves: its destination is pending. -/
def State.waitSent (s : State) (t c d cond va pa : Nat) (vb : Word) (e : Option Xlat) (k : ReqKind) : State :=
  (s.setPending t c d).addReq (s.waitReq t c d cond va pa vb e k)

theorem Says.Becomes.waitSent {s b : State} {t c : Nat} {v : Tile} {x : Ctx} (h : Says.Becomes s b t c v x) (d cond va pa : Nat) (vb : Word) (e : Option Xlat)
    (k : ReqKind) : let z := s.waitSent t c d cond va pa vb e k
    Says.Becomes z (b.withReqs z.reqs z.nextId) t c v (Says.awaiting x d) :=
  (h.setPending d).withReqs _ _

section
variable {s s1 : State} {u : Cur} {d a b cond pa : Nat} {va vb : Word} {e : Option Xlat} {k : ReqKind} (hcur : s.cur = some u)
  (hk : k = .waitw ∨ k = .waitc) (hops : Says.sources (s.ctx u.tile u.ctx) s.cyc [a, b] [va, vb]) (hd : Says.writable (s.ctx u.tile u.ctx) d)
  (hres : Says.resolves s u va 8 true false false s1 pa e) (hfree : s1.portHolds u.tile u.ctx true = false)

include hcur hops hd hres hfree in
theorem waitOp_sends (S : Nat) : waitOp S s d a b cond k =
    .next (finish S u (.jump ((s1.waitSent u.tile u.ctx d cond va.toNat pa vb e k).acquire u.tile u.ctx) (s1.ctx u.tile u.ctx).onward)) := by
  have room : s1.portFull u.tile u.ctx true = false := by
    unfold State.portFull
    rw [hfree, Bool.false_and]
  unfold waitOp
  rw [issue_next S s _ hcur, withOps_next _ hops (by simpa using hd)]
  refine congrArg (Host.Outcome.next ∘ finish S u) ((withAddr_of_resolves hres _).trans ?_)
  rw [room]
  rfl

include hk hfree in
/-- A wait that nothing holds is on its way to its home. -/
theorem State.waitSent_reqs : (s1.waitSent u.tile u.ctx d cond va.toNat pa vb e k).reqs = s1.reqs ++
    [{ s1.waitReq u.tile u.ctx d cond va.toNat pa vb e k with
       id := s1.nextId, entry := s1.nextId, round := (s1.ctx u.tile u.ctx).relRnd, stage := .flight }] := by
  have free : (s1.setPending u.tile u.ctx d).portHolds u.tile u.ctx true = false := (s1.portHolds_setPending _ _ _).trans hfree
  have enters := State.entered_of_wait (r := s1.waitReq u.tile u.ctx d cond va.toNat pa vb e k) hk free
  unfold State.waitSent
  rw [State.addReq_eq, enters]
  show (s1.setPending u.tile u.ctx d).reqs ++ [{ s1.waitReq u.tile u.ctx d cond va.toNat pa vb e k with
    id := (s1.setPending u.tile u.ctx d).nextId, entry := (s1.setPending u.tile u.ctx d).nextId
    round := ((s1.setPending u.tile u.ctx d).ctx u.tile u.ctx).relRnd, stage := .flight }] = _
  rw [State.ctx_setPending, State.setPending_reqs, State.setPending_nextId, Says.awaiting_relRnd]

/-- The access of a wait that has left for its home as the newest (R357). -/
def State.waitLeft (s s1 : State) (u : Cur) (d cond va pa : Nat) (vb : Word) (e : Option Xlat) (k : ReqKind) : Req :=
  { s1.waitReq u.tile u.ctx d cond va pa vb e k with id := s.nextId, entry := s.nextId, round := (s.ctx u.tile u.ctx).relRnd, stage := .flight }

include hcur hk hops hd hres hfree in
/-- A wait leaves for its home, and its acquire holds what comes later; its context goes on. -/
theorem waitOp_becomes (S : Nat) (hport : ∀ q ∈ s.reqs, q.tile = u.tile → q.stage ≠ .port) :
    ∃ s' v fs, waitOp S s d a b cond k = .next s' ∧ { id := s.nextId + 1, kind := .acq, loads := true, round := 0 } ∈ fs ∧
      Says.Becomes s' (s.withReqs (s.reqs ++ [s.waitLeft s1 u d cond va.toNat pa vb e k]) (s.nextId + 2)) u.tile u.ctx v
        (Says.retire { Says.awaiting (s.ctx u.tile u.ctx) d with fences := fs } s.cyc S (s.ctx u.tile u.ctx).onward) := by
  obtain ⟨v, checked⟩ := Says.becomes_of_resolves hres
  have same : s1.reqs = s.reqs ∧ s1.nextId = s.nextId := by
    rw [checked.rest]
    exact ⟨rfl, rfl⟩
  have reqs : (s1.waitSent u.tile u.ctx d cond va.toNat pa vb e k).reqs = s.reqs ++ [s.waitLeft s1 u d cond va.toNat pa vb e k] := by
    rw [State.waitSent_reqs hk hfree, same.1, same.2, checked.ctx]
    rfl
  have next : (s1.waitSent u.tile u.ctx d cond va.toNat pa vb e k).nextId = s.nextId + 1 := by
    show (s1.setPending u.tile u.ctx d).nextId + 1 = _
    rw [State.setPending_nextId, same.2]
  have unheld : ∀ r ∈ (s1.waitSent u.tile u.ctx d cond va.toNat pa vb e k).reqs, r.tile = u.tile → r.stage ≠ .port := by
    rw [reqs]
    intro r hr
    rcases List.mem_append.1 hr with hr | hr
    · exact hport r hr
    · rw [List.mem_singleton.1 hr]
      exact fun _ h => nomatch h
  have out : (s1.waitSent u.tile u.ctx d cond va.toNat pa vb e k).loadsOut u.tile u.ctx (s.nextId + 1) = true := by
    have returns : (s.waitLeft s1 u d cond va.toNat pa vb e k).returns = true := by
      show (_ || _ || _) = true
      rcases hk with rfl | rfl <;> rfl
    unfold State.loadsOut
    rw [reqs, List.any_eq_true]
    refine ⟨_, List.mem_append_right _ List.mem_cons_self, ?_⟩
    rw [returns]
    simp [State.waitLeft, State.waitReq, State.reqOf]
  obtain ⟨fs, hold, acquired⟩ := (checked.waitSent d cond va.toNat pa vb e k).acquire unheld (next ▸ out)
  rw [reqs, next] at acquired
  have ends := acquired.jump (S := S) (u := u) (s1.ctx u.tile u.ctx).onward acquired.cyc
  rw [checked.ctx] at ends
  unfold State.acquireHold at hold
  rw [next] at hold
  exact ⟨_, v, fs, checked.ctx ▸ waitOp_sends hcur hops hd hres hfree S, hold, ends⟩
end

/-! ## O18 -/

/-- Settles O18: a stamped load or a wait whose operands, address and port let it through enters as the newest access; LDA.W alone keeps its context, in the
latch, until it is answered, and the acquire of a wait outlives its own entry, for the wait itself is out. -/
theorem waitingLoadsIssue : Obligations.WaitingLoadsIssue := by
  unfold Obligations.WaitingLoadsIssue
  refine ⟨fun s s1 u S d a pa va e hcur hfeat heven hmap ha hd hd' hres hroom => ⟨fun lag => ?ldaW, ?ldaN⟩, ?waits⟩
  case ldaW =>
    obtain ⟨v, checked⟩ := Says.becomes_of_resolves hres
    obtain ⟨r, hsent, hlag, hiter⟩ := s1.ldaSent_sent u d lag va.toNat pa e true
    have left := Says.becomes_ldaSent s1 u.tile u.ctx d lag va.toNat pa e true
    refine ⟨_, r, ldaOp_sends hcur hfeat heven hmap ha hd hd' hres hroom S lag true, hsent, hlag, hiter.trans (congrArg Ctx.iter checked.ctx), ?_⟩
    have ends := left.busy (S := S)
    rw [checked.ctx, State.withReqs_cyc, checked.cyc, Ctx.heldFor, Says.latchFor_awaiting, Says.latchFor_awaiting] at ends
    exact ends
  case ldaN =>
    obtain ⟨v, checked⟩ := Says.becomes_of_resolves hres
    obtain ⟨r, hsent, -, hiter⟩ := s1.ldaSent_sent u d 511 va.toNat pa e false
    have left := Says.becomes_ldaSent s1 u.tile u.ctx d 511 va.toNat pa e false
    refine ⟨_, r, ldaOp_sends hcur hfeat heven hmap ha hd hd' hres hroom S 511 false, hsent, hiter.trans (congrArg Ctx.iter checked.ctx), ?_⟩
    have ends := left.done (S := S) left.cyc
    rw [checked.ctx, State.withReqs_cyc, checked.cyc, Says.awaiting_pc, Says.awaiting_pc] at ends
    exact ends
  case waits =>
    intro s s1 u S d a b cond pa va vb e i k hcur hi hops hd hres hfree hport
    have hk : k = .waitw ∨ k = .waitc := hi.imp And.right And.right
    have runs : exec i s = waitOp S s d a b cond k := by rcases hi with ⟨rfl, rfl⟩ | ⟨rfl, rfl⟩ <;> rfl
    obtain ⟨s', v, fs, hs', hold, h⟩ := waitOp_becomes hcur hk hops hd hres hfree S hport
    obtain ⟨w, checked⟩ := Says.becomes_of_resolves hres
    have reqs := congrArg State.reqs h.rest
    have next := congrArg State.nextId h.rest
    refine ⟨s', _, { id := s.nextId + 1, kind := .acq, loads := true, round := 0 }, runs.trans hs', reqs, rfl, next, rfl, rfl, ?gen, rfl, rfl, rfl, rfl, rfl, rfl,
      rfl, ?hold, rfl, rfl, rfl, ?_, ?_, ?_, ?_, ?_, h.ctxs, h.tiles, h.mem⟩
    case gen => exact congrArg Ctx.gen checked.ctx
    case hold => rw [h.ctx]; exact hold
    all_goals rw [h.ctx]; rfl

end Sys2Proof.Machine
end

section
/-!
PROOFS. Command windows (R73 to R86), O46: how a command starts, said once for every command; what each command leaves; what its completion record puts in the
ring; and what an abort leaves of a window's queue.
-/
namespace Sys2Proof.Machine

/-! ## Packets (R73) -/

theorem State.vfOn_of_phase {s : State} (h : s.boot.phase = 3) : s.vfOn = true := decide_eq_true h

/-- One whole packet that its window has room for is accepted. -/
theorem exec_commandWindowWrite_packet {s : State} (hb : s.boot.phase = 3) (vf w : Nat) {off : Nat} {data : List Byte} (ho : off < 0xFC0) (ha : off % 64 = 0)
    (hlen : data.length = 64) (hroom : 1 ≤ (s.window vf w).free) :
    exec (.commandWindowWrite vf w off data) s = .next (s.acceptCmd vf w (toVec (bytesNum (data.map (·.toNat))))) := by
  have inside : ¬(s.vfOn = false ∨ 0xFC0 ≤ off ∨ data.isEmpty = true) := by
    simp [State.vfOn_of_phase hb, ho, ← List.length_eq_zero_iff, hlen]
  have whole : data.take 64 = data := List.take_of_length_le (Nat.le_of_eq hlen)
  show execCommandWindowWrite vf w off data s = _
  unfold execCommandWindowWrite
  dsimp only
  rw [if_neg inside, hlen, if_neg (by omega)]
  show Host.Outcome.next (s.acceptCmd vf w (toVec (bytesNum ((data.take 64).map (·.toNat))))) = _
  rw [whole]

/-- Any other write is discarded whole, and counted. -/
theorem exec_commandWindowWrite_discarded {s : State} (hb : s.boot.phase = 3) (vf w : Nat) {off : Nat} {data : List Byte} (ho : off < 0xFC0) (hlen : 0 < data.length)
    (h : off % 64 ≠ 0 ∨ data.length % 64 ≠ 0 ∨ 0xFC0 < off + data.length ∨ (s.window vf w).free < data.length / 64) :
    exec (.commandWindowWrite vf w off data) s = .next (s.updWindow vf w fun x => { x with discards := min (x.discards + 1) 0xFFFF }) := by
  have inside : ¬(s.vfOn = false ∨ 0xFC0 ≤ off ∨ data.isEmpty = true) := by
    simp [State.vfOn_of_phase hb, ho, ← List.length_eq_zero_iff, Nat.ne_of_gt hlen]
  show execCommandWindowWrite vf w off data s = _
  unfold execCommandWindowWrite
  dsimp only
  rw [if_neg inside, if_pos h]
  rfl

theorem exec_windowDiscardsClear {s : State} (hb : s.boot.phase = 3) (vf w : Nat) :
    exec (.windowDiscardsClear vf w) s = .next (s.updWindow vf w fun x => { x with discards := 0 }) :=
  if_pos (State.vfOn_of_phase hb)

/-! ## The start of a command (R72, R75, R76, R80, R86) -/

theorem Says.begun_window (s : State) (vf w : Nat) (c : Cmd) (rest : List Cmd) :
    ((Says.begun s vf w c rest).window vf w).run = some { cmd := c, start := s.CYC } :=
  congrArg Window.run (State.window_updWindow_same s vf w _)

section
variable {s : State} {vf w : Nat} {c : Cmd} {rest : List Cmd} {op : Cmd → Bool}

/-- The head of an idle window's queue, in a partition that is ready and not halted, starts; a packet out of order ends at once with its status. -/
theorem State.startCmd_starts (hrun : (s.window vf w).run = none) (hq : (s.window vf w).q = c :: rest) (hhalt : (s.part (vf - 1)).halted = false)
    (hready : s.ready (vf - 1) = true) (hop : op c = true) (hdeps : s.depsOpen c.deps = false ∨ c.retires = true) (k : State → Cmd → State) :
    let b := Says.begun s vf w c rest
    s.startCmd vf w op k = if c.doom ≠ 0 then b.completeCmd vf w c.doom 0 else if c.op = 0 ∨ 6 < c.op then b.completeCmd vf w 1 0
      else if c.bad then b.completeCmd vf w 2 0
      else if c.noHandle || c.names.any (fun n => !(s.handle (vf - 1) n.1).reg) then b.completeCmd vf w 3 0 else k b c := by
  have goes : (!op c || (s.depsOpen c.deps && !c.retires)) = false := by
    rcases hdeps with h | h <;> simp [hop, h]
  have here : ¬((Says.begun s vf w c rest).part (vf - 1)).halted = true := Bool.eq_false_iff.1 hhalt
  have ready : (!(Says.begun s vf w c rest).ready (vf - 1)) = false := congrArg (!·) hready
  unfold State.startCmd
  simp only [hrun, hq]
  rw [goes, if_neg Bool.false_ne_true]
  exact (if_neg here).trans (if_neg (Bool.eq_false_iff.1 ready))

/-- A packet that was doomed when it was accepted ends with that status (R72, R86). -/
theorem State.startCmd_doomed (hrun : (s.window vf w).run = none) (hq : (s.window vf w).q = c :: rest) (hhalt : (s.part (vf - 1)).halted = false)
    (hready : s.ready (vf - 1) = true) (hop : op c = true) (hdeps : s.depsOpen c.deps = false) (hdoom : c.doom ≠ 0) (k : State → Cmd → State) :
    s.startCmd vf w op k = (Says.begun s vf w c rest).completeCmd vf w c.doom 0 :=
  (State.startCmd_starts hrun hq hhalt hready hop (.inl hdeps) k).trans (if_pos hdoom)

variable (h : Says.heads s vf w c rest) (hop : op c = true) (k : State → Cmd → State)
include h hop

/-- An OP that there is not ends with BAD_OP (R75). -/
theorem State.startCmd_badOp (hdeps : s.depsOpen c.deps = false) (hbad : c.op = 0 ∨ 6 < c.op) :
    s.startCmd vf w op k = (Says.begun s vf w c rest).completeCmd vf w 1 0 := by
  obtain ⟨hrun, hq, hhalt, hready, hdoom, -⟩ := h
  rw [State.startCmd_starts hrun hq hhalt hready hop (.inl hdeps), if_neg (by simp [hdoom]), if_pos hbad]

/-- A command in order goes on to its own effect. -/
theorem State.startCmd_runs (hdeps : s.depsOpen c.deps = false ∨ c.retires = true) (hknown : 1 ≤ c.op ∧ c.op ≤ 6) :
    s.startCmd vf w op k = k (Says.begun s vf w c rest) c := by
  obtain ⟨hrun, hq, hhalt, hready, hdoom, hbad, hnone, hnames⟩ := h
  have named : (c.noHandle || c.names.any fun n => !(s.handle (vf - 1) n.1).reg) = false := by
    rw [hnone, Bool.false_or, List.any_eq_false]
    intro n hn
    simp [hnames n hn]
  rw [State.startCmd_starts hrun hq hhalt hready hop hdeps, if_neg (by simp [hdoom]), if_neg (by omega), hbad, if_neg Bool.false_ne_true, named,
    if_neg Bool.false_ne_true]
end

/-! ## LAUNCH (R77, R94, R96) -/

@[simp] theorem State.wakeClass_launches (s : State) (p c : Nat) : (s.wakeClass p c).launches = s.launches := by
  unfold State.wakeClass
  dsimp only
  split
  · rfl
  · split <;> rfl
@[simp] theorem State.wakeClass_windows (s : State) (p c : Nat) : (s.wakeClass p c).windows = s.windows := by
  unfold State.wakeClass
  dsimp only
  split
  · rfl
  · split <;> rfl

theorem State.updLaunch_of_find {s : State} {k : Nat} {l : Launch} (h : Tbl.find? s.launches k = some l) (f : Launch → Launch) :
    s.updLaunch k f = { s with launches := Tbl.put s.launches k (f l) } := by
  unfold State.updLaunch
  rw [h]

/-- A launch whose handles are free waits for room from now on. -/
theorem State.startLaunch_starts {s : State} {k : Nat} {l : Launch} (hfind : Tbl.find? s.launches k = some l) (hst : l.st = .waiting) (hstart : l.startAt = none)
    (hdeps : s.depsOpen l.deps = false) :
    ∃ n, Tbl.find? (s.startLaunch k l).launches k = some { l with startAt := some n } ∧ (s.startLaunch k l).windows = s.windows := by
  have found : Tbl.find? (s.wakeClass l.part l.r.cls).launches k = some l := by rw [State.wakeClass_launches, hfind]
  unfold State.startLaunch
  rw [if_neg (by simp [hst, hstart, hdeps]), State.updLaunch_of_find found]
  exact ⟨_, Tbl.find?_put_same _ _ _, State.wakeClass_windows _ _ _⟩

theorem State.addLaunch_waits (s : State) {l : Launch} (hst : l.st = .waiting) (hstart : l.startAt = none) (hdeps : l.deps = []) :
    ∃ n, Tbl.find? (s.addLaunch l).1.launches (l.part * 65536 + (s.addLaunch l).2) = some { l with num := (s.addLaunch l).2, seq := l.uid, startAt := some n } ∧
      (s.addLaunch l).1.windows = s.windows :=
  State.startLaunch_starts (Tbl.find?_put_same _ _ _) hst hstart (by rw [hdeps]; rfl)

/-! ## ARM (R78, R102) -/

/-- Whether an armed entry is the one of partition p, endpoint context ep and a tag. -/
def Armed.is (a : Armed) (p ep : Nat) (tag : Word) : Bool := decide (a.part = p) && decide (a.ep = ep) && decide (a.tag = tag)

/-- The state with these armed entries. -/
def State.withArmed (s : State) (as : List Armed) : State := { s with armed := as }

/-- An entry that no send fills any more leaves as it is retired. -/
theorem filter_retired {p ep : Nat} {tag : Word} {as : List Armed} (h : ∀ a ∈ as, a.is p ep tag = true → a.inflight = 0) :
    (as.map fun (a : Armed) => if a.is p ep tag then { a with retiring := true } else a).filter (fun a => !(a.is p ep tag && decide (a.inflight = 0))) =
      as.filter fun a => !a.is p ep tag := by
  induction as with
  | nil => rfl
  | cons a as ih =>
    rw [List.map_cons, List.filter_cons, List.filter_cons, ih fun b hb => h b (List.mem_cons_of_mem _ hb)]
    by_cases ha : a.is p ep tag = true
    · have leaves : (!(Armed.is { a with retiring := true } p ep tag && decide (Armed.inflight { a with retiring := true } = 0))) = false := by
        show (!(a.is p ep tag && decide (a.inflight = 0))) = false
        rw [ha, h a List.mem_cons_self ha]
        rfl
      rw [if_pos ha, leaves, ha]
      rfl
    · simp [ha]

/-! ## Each command on its own -/

section
variable {s : State} {vf w : Nat} {c : Cmd} {rest : List Cmd} (h : Says.heads s vf w c rest) (hdeps : s.depsOpen c.deps = false)
include h

include hdeps in
theorem exec_badOpCommand (hop : c.op = 0 ∨ 6 < c.op) : exec (.badOpCommand vf w) s = .next ((Says.begun s vf w c rest).completeCmd vf w 1 0) :=
  congrArg Host.Outcome.next (State.startCmd_badOp h (by simpa using hop) _ hdeps hop)

/-- The launch of a LAUNCH, before it has its number. -/
def Cmd.launch (c : Cmd) (vf w : Nat) (r : Record) (hs : List (Nat × Nat)) (rs : List Rank) : Launch :=
  { part := vf - 1, num := 0, r, handles := hs, ranks := rs, cmd := some (vf, w), uid := c.uid, acceptedAt := c.at_ }

include hdeps in
theorem exec_launch_ok (hop : c.op = 1) {r : Record} {hs : List (Nat × Nat)} {rs : List Rank} (hrec : c.rec_ = .ok r hs rs)
    (hfits : s.chooseTiles (vf - 1) r (fun _ => true) ≠ none) :
    let a := (Says.begun s vf w c rest).addLaunch (c.launch vf w r hs rs)
    exec (.launch vf w) s = .next (a.1.updWindow vf w fun x => { x with run := x.run.map fun r => { r with launch := a.2 } }) := by
  have fits : ((Says.begun s vf w c rest).chooseTiles (vf - 1) r fun _ => true).isNone = false := Option.isNone_eq_false_iff.2 (Option.isSome_iff_ne_none.2 hfits)
  refine congrArg Host.Outcome.next ((State.startCmd_runs h (by simp [hop]) _ (.inl hdeps) (by omega)).trans ?_)
  simp only [hrec]
  exact if_neg (Bool.eq_false_iff.1 fits)

include hdeps in
theorem launch_waits (hop : c.op = 1) {r : Record} {hs : List (Nat × Nat)} {rs : List Rank} (hrec : c.rec_ = .ok r hs rs)
    (hfits : s.chooseTiles (vf - 1) r (fun _ => true) ≠ none) :
    ∃ t num l, exec (.launch vf w) s = .next t ∧ Tbl.find? t.launches ((vf - 1) * 65536 + num) = some l ∧ l.st = .waiting ∧ l.r = r ∧ l.num = num ∧
      l.handles = hs ∧ l.cmd = some (vf, w) ∧ (t.window vf w).run = some { cmd := c, start := s.CYC, launch := num } := by
  obtain ⟨n, hfind, hwin⟩ := (Says.begun s vf w c rest).addLaunch_waits (l := c.launch vf w r hs rs) rfl rfl rfl
  refine ⟨_, _, _, exec_launch_ok h hdeps hop hrec hfits, hfind, rfl, rfl, rfl, rfl, rfl, ?_⟩
  rw [State.window_updWindow_same]
  have same : ((Says.begun s vf w c rest).addLaunch (c.launch vf w r hs rs)).1.window vf w = (Says.begun s vf w c rest).window vf w := by
    unfold State.window
    rw [hwin]
  rw [same, Says.begun_window]
  rfl

include hdeps in
theorem exec_launch_bad (hop : c.op = 1) {st : Nat} (hrec : c.rec_ = .bad st) :
    exec (.launch vf w) s = .next ((Says.begun s vf w c rest).completeCmd vf w st 0) := by
  refine congrArg Host.Outcome.next ((State.startCmd_runs h (by simp [hop]) _ (.inl hdeps) (by omega)).trans ?_)
  simp only [hrec]

section
variable (hop : c.op = 2) (hfeat : s.feature 7 = true) (hep : s.epPart (c.fld 0x28 2) = some (vf - 1))
include hdeps hop hfeat hep

theorem exec_arm_retires (hcount : c.fld 0x24 4 = 0)
    (hidle : ∀ a ∈ s.armed, a.is (vf - 1) (c.fld 0x28 2) (BitVec.ofNat 64 (c.fld 0x10 8)) = true → a.inflight = 0) :
    exec (.arm vf w) s = .next (((Says.begun s vf w c rest).withArmed
      (s.armed.filter fun a => !a.is (vf - 1) (c.fld 0x28 2) (BitVec.ofNat 64 (c.fld 0x10 8)))).completeCmd vf w 0 0) := by
  have taken : (!(Says.begun s vf w c rest).feature 7) = false := congrArg (!·) hfeat
  have owned : (Says.begun s vf w c rest).epPart (c.fld 0x28 2) = some (vf - 1) := hep
  have ended := congrArg (fun as => let u := (Says.begun s vf w c rest).withArmed as
    if as.any fun a => a.is (vf - 1) (c.fld 0x28 2) (BitVec.ofNat 64 (c.fld 0x10 8)) then u else u.completeCmd vf w 0 0) (filter_retired hidle)
  refine congrArg Host.Outcome.next ((State.startCmd_runs h (by simp [hop]) _ (.inl hdeps) (by omega)).trans ?_)
  dsimp only
  rw [taken, if_neg Bool.false_ne_true, if_neg (Decidable.not_not.2 owned), if_pos hcount]
  refine ended.trans (if_neg ?_)
  simp

/-- The entry that an ARM arms. -/
def State.armedBy (s : State) (vf w : Nat) (c : Cmd) (r : Record) (hs : List (Nat × Nat)) (rs : List Rank) : Armed :=
  { id := s.nextId, part := vf - 1, ep := c.fld 0x28 2, tag := BitVec.ofNat 64 (c.fld 0x10 8), buf := BitVec.ofNat 64 (c.fld 0x18 8), len := c.fld 0x20 4
    count := c.fld 0x24 4, vf, win := w, seq := c.seq, flags := c.flags, r, handles := hs, ranks := rs }

theorem exec_arm_arms (hcount : c.fld 0x24 4 ≠ 0) {r : Record} {hs : List (Nat × Nat)} {rs : List Rank} (hrec : c.rec_ = .ok r hs rs)
    (hnone : s.armed.filter (fun a => decide (a.part = vf - 1)) = []) :
    exec (.arm vf w) s =
      .next (((Says.begun s vf w c rest).withArmed (s.armed ++ [s.armedBy vf w c r hs rs])).fresh.completeCmd vf w 0 0) := by
  have taken : (!(Says.begun s vf w c rest).feature 7) = false := congrArg (!·) hfeat
  have owned : (Says.begun s vf w c rest).epPart (c.fld 0x28 2) = some (vf - 1) := hep
  have other : ∀ a ∈ s.armed, a.part ≠ vf - 1 := by simpa [List.filter_eq_nil_iff] using hnone
  have room : ((s.armed.any fun a => a.is (vf - 1) (c.fld 0x28 2) (BitVec.ofNat 64 (c.fld 0x10 8)) && decide (a.count ≠ 0)) ||
      decide (256 ≤ (s.armed.filter fun a => decide (a.part = vf - 1) && decide (a.count ≠ 0)).length)) = false := by
    have none_same : (s.armed.any fun a => a.is (vf - 1) (c.fld 0x28 2) (BitVec.ofNat 64 (c.fld 0x10 8)) && decide (a.count ≠ 0)) = false := by
      rw [List.any_eq_false]
      intro a ha
      simp [Armed.is, other a ha]
    have none_counted : (s.armed.filter fun a => decide (a.part = vf - 1) && decide (a.count ≠ 0)) = [] := by
      rw [List.filter_eq_nil_iff]
      intro a ha
      simp [other a ha]
    rw [none_same, none_counted]
    rfl
  refine congrArg Host.Outcome.next ((State.startCmd_runs h (by simp [hop]) _ (.inl hdeps) (by omega)).trans ?_)
  dsimp only
  rw [taken, if_neg Bool.false_ne_true, if_neg (Decidable.not_not.2 owned), if_neg hcount]
  simp only [hrec]
  exact if_neg (Bool.eq_false_iff.1 room)
end

/-! ### COPY from the host (R79) -/

/-- The copy that a host's COPY puts on a queue, of shape v. -/
def State.copyOf (s : State) (vf w die eng : Nat) (c : Cmd) (v : Nat) : CopyCmd :=
  let m : CopyCmd := { id := s.nextId, die, eng, q := c.fld 0x21 1, part := vf - 1, ctx := 0xFF, host := some (vf, w, c.uid), shape := Shape.ofNat v
                       shapeP := BitVec.ofNat 64 (c.fld 0x08 8), cword := BitVec.ofNat 64 (c.fld 0x10 8), cval := BitVec.ofNat 64 (c.fld 0x18 8) }
  { m with widths := s.issueWidths m }

include hdeps in
theorem exec_hostCopy_queues {die eng v : Nat} {s1 : State} (hop : c.op = 3) (hdie : c.fld 0x20 1 = 0xFF ∨ c.fld 0x20 1 = die)
    (hroom : s.queueHeld (queueKey die eng (c.fld 0x21 1)) < 32) (hread : (Says.begun s vf w c rest).shapeRead (vf - 1) (c.fld 0x08 8) = .ok s1 v false)
    (hspace : (Shape.ofNat v).space = true) :
    let k := queueKey die eng (c.fld 0x21 1)
    exec (.hostCopy vf w die eng) s =
      .next (State.fresh { s1 with queues := Tbl.put s1.queues k (Tbl.getD s1.queues k [] ++ [s1.copyOf vf w die eng c v]) }) := by
  refine congrArg Host.Outcome.next ((State.startCmd_runs h (by simp [hop, hdie, hroom]) _ (.inl hdeps) (by omega)).trans ?_)
  simp only [hread]
  rw [if_neg Bool.false_ne_true, hspace]
  rfl

/-! ### HANDLE (R80, R86) -/

include hdeps in
theorem exec_handleRegister (hop : c.op = 4) (hact : c.fld 0x08 1 = 1) (hnew : (s.handle (vf - 1) (c.fld 0x0C 4)).reg = false) (hroom : s.handleCount (vf - 1) < 4096) :
    exec (.handleRegister vf w) s = .next (((Says.begun s vf w c rest).updHandle (vf - 1) (c.fld 0x0C 4) fun h => { h with
      reg := true, kind := c.fld 0x09 1, base := BitVec.ofNat 64 (c.fld 0x10 8), len := BitVec.ofNat 64 (c.fld 0x18 8) }).completeCmd vf w 0 0) := by
  have stays : c.retires = false := by simp [Cmd.retires, hact]
  have free : (((Says.begun s vf w c rest).handle (vf - 1) (c.fld 0x0C 4)).reg || decide (4096 ≤ (Says.begun s vf w c rest).handleCount (vf - 1))) = false := by
    show ((s.handle (vf - 1) (c.fld 0x0C 4)).reg || decide (4096 ≤ s.handleCount (vf - 1))) = false
    rw [hnew, decide_eq_false (by omega)]
    rfl
  refine congrArg Host.Outcome.next ((State.startCmd_runs h (by simp [hop, stays]) _ (.inl hdeps) (by omega)).trans ?_)
  exact if_neg (Bool.eq_false_iff.1 free)

theorem exec_handleRetire (hop : c.op = 4) (hact : c.fld 0x08 1 = 2) (hreg : (s.handle (vf - 1) (c.fld 0x0C 4)).reg = true) :
    exec (.handleRetire vf w) s = .next (if s.depsOpen c.deps then Says.begun s vf w c rest
      else ((Says.begun s vf w c rest).updHandle (vf - 1) (c.fld 0x0C 4) fun h => { h with reg := false }).completeCmd vf w 0 0) := by
  have retires : c.retires = true := by simp [Cmd.retires, hop, hact]
  refine congrArg Host.Outcome.next ((State.startCmd_runs h retires _ (.inr retires) (by omega)).trans ((if_pos hreg).trans ?_))
  unfold State.tryRetire
  rw [Says.begun_window]
  simp only [retires, Bool.not_true, Bool.false_or]
  rfl

/-! ### SIGNAL and WAITV (R81, R82) -/

include hdeps in
theorem exec_signal_host (hop : c.op = 5) (hspace : c.fld 0x18 1 = 1) (hrange : c.fld 0x08 8 + c.fld 0x19 1 ≤ 2 ^ 51)
    (hgo : (Says.begun s vf w c rest).waitsFor (vf - 1) .signal c.uid = false) :
    let t := (Says.begun s vf w c rest).applyWrite (vf - 1) 0 (2 ^ 51 + c.fld 0x08 8) (c.fld 0x19 1) (c.fld 0x10 8 % 2 ^ (8 * c.fld 0x19 1)) none false false
    exec (.signal vf w true) s = .next (State.completeCmd (if c.fld 0x1A 1 = 0 then t else t.raise vf (c.fld 0x1A 1)) vf w 0 0) := by
  obtain ⟨hrun, -⟩ := id h
  have idle : ¬(s.window vf w).run.isSome = true := by simp [hrun]
  refine (if_neg idle).trans (congrArg Host.Outcome.next ((State.startCmd_runs h (by simp [hop]) _ (.inl hdeps) (by omega)).trans ?_))
  unfold State.runSignal
  rw [Says.begun_window]
  simp only [hop, hgo, Bool.false_or, ne_eq, not_true_eq_false, decide_false, Bool.false_eq_true, if_false, hspace, if_true, Bool.not_true]
  rw [if_neg (by simpa using hrange)]
  rfl

include hdeps in
theorem exec_waitv (hop : c.op = 6) {pa : Nat} {e : Xlat} (hgo : (Says.begun s vf w c rest).waitsFor (vf - 1) .signal c.uid = false)
    (haddr : (Says.begun s vf w c rest).engAddr (vf - 1) 0 none (c.fld 0x08 8) 8 true false false = .ok pa (some e)) :
    let g := (Says.begun s vf w c rest).engRead (vf - 1) (some e) pa 8
    let t := g.1.updWindow vf w fun x => { x with run := x.run.map fun r => { r with pa := some pa, tenant := e.tenant, shu := e.shu } }
    exec (.waitv vf w) s = .next (if waitHolds false (c.fld 0x20 1) (g.2.1 &&& c.fld 0x18 8) (c.fld 0x10 8) then t.completeCmd vf w 0 0 else t) := by
  obtain ⟨hrun, -⟩ := id h
  have idle : ¬(s.window vf w).run.isSome = true := by simp [hrun]
  refine (if_neg idle).trans (congrArg Host.Outcome.next ((State.startCmd_runs h (by simp [hop]) _ (.inl hdeps) (by omega)).trans ?_))
  unfold State.runWaitv
  rw [Says.begun_window]
  simp only [hop, hgo, haddr, Bool.or_false, ne_eq, not_true_eq_false, decide_false, Bool.false_eq_true, if_false]
  rfl
end

section
variable {s : State} {vf w : Nat} {r : Run} (hrun : (s.window vf w).run = some r) (hfin : r.finished = false)
include hrun hfin

theorem exec_handleRetireComplete (hop : r.cmd.op = 4) (hact : r.cmd.fld 0x08 1 = 2) (hdeps : s.depsOpen r.cmd.deps = false) :
    exec (.handleRetireComplete vf w) s =
      .next ((s.updHandle (vf - 1) (r.cmd.fld 0x0C 4) fun h => { h with reg := false }).completeCmd vf w 0 0) := by
  have retires : r.cmd.retires = true := by simp [Cmd.retires, hop, hact]
  show Host.Outcome.next (s.tryRetire vf w) = _
  unfold State.tryRetire
  rw [hrun]
  dsimp only
  rw [hfin, retires, hdeps]
  rfl

theorem exec_waitvTimeout (hop : r.cmd.op = 6) (htmo : r.cmd.fld 0x24 4 ≠ 0) (hover : r.start + 1400 * r.cmd.fld 0x24 4 ≤ s.CYC) :
    exec (.waitvTimeout vf w) s = .next (s.completeCmd vf w 11 0) := by
  show execWaitvTimeout vf w s = _
  unfold execWaitvTimeout
  rw [hrun]
  exact if_pos ⟨hop, by rw [hfin]; rfl, htmo, hover⟩
end

/-! ## Completion records (R75, R76, R84) -/

theorem isHost_iff (pa : Nat) : isHost pa = true ↔ 0x8000000000000 ≤ pa ∧ pa < 0x10000000000000 := by
  unfold isHost
  rw [Bool.and_eq_true, decide_eq_true_eq, decide_eq_true_eq]
  rfl
theorem isSpad_of_isHost {pa : Nat} (h : isHost pa = true) : isSpad pa = false := by
  have := (isHost_iff pa).1 h
  unfold isSpad
  rw [Bool.and_eq_false_iff, decide_eq_false_iff_not, decide_eq_false_iff_not]
  exact .inr (show ¬pa < 0x1000000000 + 0x80000000 by omega)
theorem isCxl_of_isHost {pa : Nat} (h : isHost pa = true) : isCxl pa = false := by
  have := (isHost_iff pa).1 h
  rw [← Bool.not_eq_true, isCxl_iff]
  omega
theorem State.memKey_host (s : State) {pa : Nat} (h : isHost pa = true) : s.memKey pa = some pa := by
  unfold State.memKey
  rw [h, Bool.or_true, Bool.true_or, if_pos rfl]

/-- A byte of host memory reads what was stored there (R165). -/
theorem State.peek_pokeByte_host {s : State} {pa : Nat} (v : Nat) (h : MemInv s) (hpa : isHost pa = true) : (s.pokeByte pa v).peek pa = BitVec.ofNat 8 v := by
  have stored : s.pokeByte pa v = { s with mem := { s.mem with cells := Mem.putCell s.mem.cells pa (BitVec.ofNat 8 v) } } := by
    unfold State.pokeByte
    rw [isSpad_of_isHost hpa, Bool.false_and, if_neg Bool.false_ne_true, s.memKey_host hpa]
  rw [stored, State.peek_plain (isCxl_of_isHost hpa)]
  unfold State.memByte
  rw [isSpad_of_isHost hpa, Bool.false_and, if_neg Bool.false_ne_true, State.memKey_host _ hpa]
  simp only [Mem.find?_putCell_same _ _ _ h.1, isSpad_of_isHost hpa, true_and]
  by_cases h0 : BitVec.ofNat 8 v = 0
  · simp only [h0, if_true, Mem.unlisted, isSpad_of_isHost hpa, Bool.false_eq_true, if_false]
  · simp only [h0, if_false]

/-- Bytes stored in host memory read back, low byte first (R277). -/
theorem State.peek_pokeRaw_host {s : State} {pa n : Nat} (h : MemInv s) (hlo : 2 ^ 51 ≤ pa) (hhi : pa + n ≤ 2 ^ 52) (v : Nat) {k : Nat} (hk : k < n) :
    (s.pokeRaw pa v n).peek (pa + k) = BitVec.ofNat 8 (v / 2 ^ (8 * k)) := by
  have host : ∀ b, pa ≤ b → b < pa + n → isHost b = true := fun b h1 h2 => (isHost_iff b).2 (by omega)
  induction n generalizing s pa v k with
  | zero => omega
  | succ n ih =>
    have here := host pa (Nat.le_refl _) (by omega)
    rw [State.pokeRaw_succ]
    cases k with
    | zero =>
      show ((s.pokeByte pa v).pokeRaw (pa + 1) (v / 256) n).peek pa = BitVec.ofNat 8 (v / 1)
      rw [State.peek_pokeRaw_other _ _ _ _ _ (State.memInv_pokeByte s pa v h) (by omega) (.inr (isCxl_of_isHost here)), State.peek_pokeByte_host v h here, Nat.div_one]
    | succ k =>
      rw [show pa + (k + 1) = pa + 1 + k by omega, ih (State.memInv_pokeByte s pa v h) (by omega) (by omega) _ (by omega) fun b h1 h2 => host b (by omega) (by omega),
        Nat.div_div_eq_div_mul, show 8 * (k + 1) = 8 + 8 * k by omega, Nat.pow_add]

/-- The tail of a ring set to x, with vector 0 where it is asked for (R84). -/
def State.tailMoved (s : State) (v : Nat) (x : Word) (notify : Bool) : State := if notify then (s.setVf v 0x50 x).raise v 0 else s.setVf v 0x50 x

theorem State.vfReg_tailMoved (s : State) (v : Nat) (x : Word) (notify : Bool) : (s.tailMoved v x notify).vfReg v 0x50 = x := by
  unfold State.tailMoved
  split <;> exact State.vfReg_setVf_same s v 0x50 x
theorem State.peek_tailMoved (s : State) (v : Nat) (x : Word) (notify : Bool) (a : Nat) : (s.tailMoved v x notify).peek a = s.peek a := by
  unfold State.tailMoved
  split <;> exact State.peek_congr rfl rfl rfl (fun _ => rfl) a

/-- Where the next record of VF v lies in its ring, and the phase bit that it takes (R84). -/
def State.ringSlot (s : State) (v : Nat) : Nat :=
  Config.hostBase + (s.vfReg v 0x40).toNat + 32 * ((s.vfReg v 0x50).toNat % 2 ^ bits (s.vfReg v 0x48).toNat 4 0)
def State.ringPhase (s : State) (v : Nat) : Nat := ((s.vfReg v 0x50).toNat / 2 ^ bits (s.vfReg v 0x48).toNat 4 0 + 1) % 2

/-- A record c of VF v written at the tail of its ring. -/
def State.recorded (s : State) (v : Nat) (c : Completion) : State :=
  (s.pokeRaw (s.ringSlot v) (c.bytes (s.ringPhase v)) 32).tailMoved v (BitVec.ofNat 64 (((s.vfReg v 0x50).toNat + 1) % 2 ^ 32)) (bit c.flags 0)

/-- The state in which these records wait for the ring of VF v. -/
def State.withRing (s : State) (v : Nat) (cs : List Completion) : State := { s with rings := Tbl.put s.rings v cs }
/-- The state in which window w of VF v runs nothing. -/
def State.idle (s : State) (v w : Nat) : State := s.updWindow v w fun x => { x with run := none }

theorem State.peek_withRing (s : State) (v : Nat) (cs : List Completion) (a : Nat) : (s.withRing v cs).peek a = s.peek a :=
  State.peek_congr rfl rfl rfl (fun _ => rfl) a
theorem State.peek_idle (s : State) (v w a : Nat) : (s.idle v w).peek a = s.peek a := State.peek_congr rfl rfl rfl (fun _ => rfl) a
theorem State.window_idle (s : State) (v w : Nat) : ((s.idle v w).window v w).run = none := congrArg Window.run (State.window_updWindow_same s v w _)

/-- The ring of VF v has room for a record that is wanted (R75, R84). -/
structure State.RingRoom (s : State) (v : Nat) (c : Completion) : Prop where
  on : bit (s.vfReg v 0x48).toNat 8 = true
  wanted : bit c.flags 1 = false
  room : ((s.vfReg v 0x50).toNat + 2 ^ 32 - (s.vfReg v 0x58).toNat % 2 ^ 32) % 2 ^ 32 < 2 ^ bits (s.vfReg v 0x48).toNat 4 0

/-- The one record that waits for a ring with room is written, and frees its window (R84). -/
theorem State.flushRing_one {s : State} {v : Nat} {c : Completion} (hring : Tbl.getD s.rings v [] = [c]) (hroom : s.RingRoom v c) (hholds : c.holds = true) :
    s.flushRing v 1 = ((s.recorded v c).withRing v []).idle v c.win := by
  obtain ⟨hon, hwanted, hfits⟩ := hroom
  unfold State.flushRing
  simp only [hring, hon, hwanted, hholds, Bool.false_and, Bool.not_false, Bool.and_true, Bool.true_and, decide_eq_true_eq, if_true]
  rw [if_neg (by omega)]
  rfl

/-- The record of a command that started at cycle start and ends now (R84). -/
def State.recordOf (s : State) (w : Nat) (r : Run) (st d : Nat) : Completion :=
  { win := w, seq := r.cmd.seq, op := r.cmd.op, flags := r.cmd.flags, status := st, detail := d, queued := min (r.start - r.cmd.at_) 0xFFFFFFFF
    elapsed := s.CYC - r.start }

/-- The state in which command c is no user of a handle any more, and a retirement of a handle is over (R86). -/
def State.noUser (s : State) (c : Cmd) : State :=
  { s with handles := (match c.closes with | some k => Tbl.put s.handles k { Tbl.getD s.handles k {} with gone := false } | none => s.handles)
           users := s.users.filter (· ≠ c.uid) }

/-- What ends a command: it uses no handle, and its record goes to the ring (R84). -/
theorem State.endCmd_eq (s : State) (v w : Nat) (c : Cmd) (start : Option Nat) (st d : Nat) (holds : Bool) :
    s.endCmd v w c start st d holds = (s.noUser c).complete v
      { win := w, seq := c.seq, op := c.op, flags := c.flags, status := st, detail := d, holds
        queued := min (start.getD s.CYC - c.at_) 0xFFFFFFFF, elapsed := s.CYC - start.getD s.CYC } := by
  unfold State.endCmd State.noUser
  cases c.closes with
  | none => rfl
  | some k => rfl

theorem State.complete_first {s : State} {v : Nat} (hring : Tbl.getD s.rings v [] = []) (c : Completion) :
    s.complete v c = (s.withRing v [c]).flushRing v 1 := by
  unfold State.complete
  rw [hring]
  rfl

/-- The state in which window w has run its command r to the end. -/
def State.finishes (s : State) (vf w : Nat) (r : Run) : State := s.updWindow vf w fun x => { x with run := some { r with finished := true } }

theorem State.completeCmd_eq {s : State} {vf w : Nat} {r : Run} (hrun : (s.window vf w).run = some r) (hfin : r.finished = false) (st d : Nat) :
    s.completeCmd vf w st d = ((s.finishes vf w r).noUser r.cmd).complete vf (s.recordOf w r st d) := by
  unfold State.completeCmd
  rw [hrun]
  dsimp only
  rw [hfin, if_neg Bool.false_ne_true]
  exact State.endCmd_eq _ _ _ _ _ _ _ _

/-- The state in which the command that window w runs is over, and its record waits for the ring (R76, R83, R86). -/
def State.awaitsRing (s : State) (vf w : Nat) (r : Run) (c : Completion) : State := ((s.finishes vf w r).noUser r.cmd).withRing vf [c]

/-- A command completes on an empty ring (R76, R84). -/
theorem State.completeCmd_first {s : State} {vf w : Nat} {r : Run} (hrun : (s.window vf w).run = some r) (hfin : r.finished = false)
    (hring : Tbl.getD s.rings vf [] = []) (st d : Nat) : s.completeCmd vf w st d = (s.awaitsRing vf w r (s.recordOf w r st d)).flushRing vf 1 :=
  (State.completeCmd_eq hrun hfin st d).trans (State.complete_first (s := (s.finishes vf w r).noUser r.cmd) hring _)

/-- The bytes of a record as R84 lays them out. -/
theorem Completion.bytes_recordOf {s : State} {w : Nat} {r : Run} {d : Nat} (hd : d < 2 ^ 64) (hc : s.CYC < 2 ^ 64) (st n : Nat) :
    (s.recordOf w r st d).bytes ((n + 1) % 2) =
      Says.record r.cmd.seq w r.cmd.op st d (min (r.start - r.cmd.at_) 0xFFFFFFFF) (s.CYC - r.start) n := by
  show _ + 2 ^ 64 * (d % 2 ^ 64) + _ + 2 ^ 160 * ((s.CYC - r.start) % 2 ^ 64) + _ = _
  rw [Nat.mod_eq_of_lt hd, Nat.mod_eq_of_lt (by omega)]
  rfl

/-- R84: on an empty ring with room, a command's record is written at the tail, and its window runs nothing. -/
theorem State.completeCmd_records {s : State} {vf w : Nat} {r : Run} (hrun : (s.window vf w).run = some r) (hfin : r.finished = false) {st d tail head n : Nat}
    (hmem : MemInv s) (hd : d < 2 ^ 64) (hcyc : s.CYC < 2 ^ 64) (hring : Tbl.getD s.rings vf [] = []) (hon : (s.vfReg vf 0x48).toNat / 2 ^ 8 % 2 = 1)
    (hn : n = 2 ^ ((s.vfReg vf 0x48).toNat % 32)) (hrec : r.cmd.flags / 2 % 2 = 0) (htail : tail = (s.vfReg vf 0x50).toNat) (hhead : head = (s.vfReg vf 0x58).toNat)
    (hle : head ≤ tail) (hroom : tail - head < n) (hwrap : tail + 1 < 2 ^ 32) (hbase : (s.vfReg vf 0x40).toNat + 32 * n ≤ 2 ^ 51) :
    let t := s.completeCmd vf w st d
    (t.window vf w).run = none ∧ t.vfReg vf 0x50 = BitVec.ofNat 64 (tail + 1) ∧
    ∀ k < 32, t.peek (2 ^ 51 + (s.vfReg vf 0x40).toNat + 32 * (tail % n) + k) = BitVec.ofNat 8
      (Says.record r.cmd.seq w r.cmd.op st d (min (r.start - r.cmd.at_) 0xFFFFFFFF) (s.CYC - r.start) (tail / n) / 2 ^ (8 * k)) := by
  have size : bits (s.vfReg vf 0x48).toNat 4 0 = (s.vfReg vf 0x48).toNat % 32 := by
    show (s.vfReg vf 0x48).toNat / 1 % 32 = _
    rw [Nat.div_one]
  let c := s.recordOf w r st d
  let u := s.awaitsRing vf w r c
  have room : u.RingRoom vf c := by
    refine ⟨decide_eq_true hon, decide_eq_false ?_, ?_⟩
    · show ¬r.cmd.flags / 2 ^ 1 % 2 = 1
      omega
    · show ((s.vfReg vf 0x50).toNat + 2 ^ 32 - (s.vfReg vf 0x58).toNat % 2 ^ 32) % 2 ^ 32 < 2 ^ bits (s.vfReg vf 0x48).toNat 4 0
      rw [size, ← hn, ← htail, ← hhead]
      omega
  have slot : u.ringSlot vf = 2 ^ 51 + (s.vfReg vf 0x40).toNat + 32 * (tail % n) := by
    show Config.hostBase + (s.vfReg vf 0x40).toNat + 32 * ((s.vfReg vf 0x50).toNat % 2 ^ bits (s.vfReg vf 0x48).toNat 4 0) = _
    rw [size, ← hn, ← htail]
    rfl
  have phase : u.ringPhase vf = (tail / n + 1) % 2 := by
    show ((s.vfReg vf 0x50).toNat / 2 ^ bits (s.vfReg vf 0x48).toNat 4 0 + 1) % 2 = _
    rw [size, ← hn, ← htail]
  have written := State.flushRing_one (s := u) (v := vf) (Tbl.getD_put_same _ _ _ _) room rfl
  rw [State.completeCmd_first hrun hfin hring, written]
  refine ⟨State.window_idle _ _ _, ?tail, fun k hk => ?bytes⟩
  case tail =>
    show (u.recorded vf c).vfReg vf 0x50 = _
    unfold State.recorded
    rw [State.vfReg_tailMoved]
    show BitVec.ofNat 64 (((s.vfReg vf 0x50).toNat + 1) % 2 ^ 32) = _
    rw [← htail, Nat.mod_eq_of_lt hwrap]
  case bytes =>
    have inRing : tail % n < n := Nat.mod_lt _ (by omega)
    have mem : MemInv u := hmem
    have above : 2 ^ 51 ≤ 2 ^ 51 + (s.vfReg vf 0x40).toNat + 32 * (tail % n) := by omega
    have below : 2 ^ 51 + (s.vfReg vf 0x40).toNat + 32 * (tail % n) + 32 ≤ 2 ^ 52 := by omega
    rw [State.peek_idle, State.peek_withRing]
    unfold State.recorded
    rw [State.peek_tailMoved, slot, phase, State.peek_pokeRaw_host mem above below _ hk, Completion.bytes_recordOf hd hcyc]

/-! ## WINDOW_ABORT (R86) -/

/-- The commands that wait in the window of each number, 16 v + w for window w of VF v. -/
def State.queued (s : State) (k : Nat) : List Cmd := (Tbl.getD s.windows k {}).q

theorem State.queued_updWindow (s : State) (v w k : Nat) (f : Window → Window) :
    (s.updWindow v w f).queued k = if k = 16 * v + w then (f (s.window v w)).q else s.queued k := by
  by_cases hk : k = 16 * v + w
  · subst hk
    rw [if_pos rfl]
    exact congrArg Window.q (s.window_updWindow_same v w f)
  · rw [if_neg hk]
    exact congrArg Window.q (Tbl.getD_put_other _ _ _ hk)

theorem State.queued_updWindow_kept (s : State) (v w : Nat) {f : Window → Window} (h : ∀ x, (f x).q = x.q) : (s.updWindow v w f).queued = s.queued := by
  funext k
  rw [State.queued_updWindow]
  split
  · subst k
    exact h _
  · rfl

theorem State.queued_freed (s : State) (v w : Nat) (holds : Bool) : (if holds then s.updWindow v w fun x => { x with run := none } else s).queued = s.queued := by
  split
  · exact State.queued_updWindow_kept s v w fun _ => rfl
  · rfl

/-! What ends a command leaves the queues as they are. -/

@[simp] theorem State.flushRing_queued (s : State) (v n : Nat) : (s.flushRing v n).queued = s.queued := by
  induction n generalizing s with
  | zero => rfl
  | succ n ih =>
    unfold State.flushRing
    split
    · rfl
    · dsimp only
      split
      · rfl
      · rw [ih, State.queued_freed, State.pokeRaw_eq]
        repeat' split
        all_goals rfl
@[simp] theorem State.endCmd_queued (s : State) (v w : Nat) (c : Cmd) (start : Option Nat) (st d : Nat) (holds : Bool) :
    (s.endCmd v w c start st d holds).queued = s.queued := by
  rw [State.endCmd_eq]
  exact State.flushRing_queued _ _ _
@[simp] theorem State.completeCmd_queued (s : State) (v w st d : Nat) : (s.completeCmd v w st d).queued = s.queued := by
  unfold State.completeCmd
  split
  · rfl
  · split
    · rfl
    · rw [State.endCmd_queued]
      exact State.queued_updWindow_kept s v w fun _ => rfl

/-- The commands cs of window w end ABORTED. -/
def State.endAborted (s : State) (vf w : Nat) (cs : List Cmd) : State := cs.foldl (fun u c => u.endCmd vf w c none 12 0 false) s
/-- A WAITV that window w runs ends ABORTED. -/
def State.abortWait (s : State) (vf w : Nat) : State :=
  match (s.window vf w).run with | some r => if r.cmd.op = 6 then s.completeCmd vf w 12 0 else s | none => s
/-- What an abort does with window w. -/
def State.abortOne (vf : Nat) (s : State) (w : Nat) : State :=
  ((s.abortWait vf w).updWindow vf w fun x => { x with q := [] }).endAborted vf w (s.window vf w).q

theorem exec_windowAbort {s : State} (hb : s.boot.phase = 3) (vf : Nat) (v : Word) :
    exec (.windowAbort vf v) s = .next (((List.range 16).filter (bit v.toNat)).foldl (State.abortOne vf) s) :=
  if_neg (by simp [State.vfOn_of_phase hb])

theorem State.abortWait_queued (s : State) (vf w : Nat) : (s.abortWait vf w).queued = s.queued := by
  unfold State.abortWait
  split
  · split
    · exact State.completeCmd_queued s vf w 12 0
    · rfl
  · rfl

/-- An abort of window w empties its queue, and no other one. -/
theorem State.abortOne_queued (s : State) (vf w k : Nat) : (s.abortOne vf w).queued k = if k = 16 * vf + w then [] else s.queued k := by
  unfold State.abortOne State.endAborted
  rw [State.foldl_kept State.queued (fun u c => State.endCmd_queued u vf w c none 12 0 false), State.queued_updWindow, State.abortWait_queued]

/-- An abort empties the queue of every window that it names. -/
theorem State.aborted_queued (vf k : Nat) (ws : List Nat) (s : State) (h : k ∈ ws ∨ s.queued (16 * vf + k) = []) :
    (ws.foldl (State.abortOne vf) s).queued (16 * vf + k) = [] := by
  induction ws generalizing s with
  | nil => exact h.resolve_left List.not_mem_nil
  | cons w ws ih =>
    refine ih _ ?_
    rw [State.abortOne_queued]
    by_cases hk : k = w
    · exact .inr (if_pos (by rw [hk]))
    · refine h.imp (fun m => (List.mem_cons.1 m).resolve_left hk) fun e => ?_
      rw [if_neg (by omega), e]

theorem windowAbort_empties {s : State} (hb : s.boot.phase = 3) (vf : Nat) (v : Word) :
    ∃ t, exec (.windowAbort vf v) s = .next t ∧ ∀ k < 16, v.toNat / 2 ^ k % 2 = 1 → (t.window vf k).q = [] :=
  ⟨_, exec_windowAbort hb vf v, fun k hk hbit =>
    State.aborted_queued vf k _ s (.inl (List.mem_filter.2 ⟨List.mem_range.2 hk, decide_eq_true hbit⟩))⟩

/-! ## O46 -/

/-- Settles O46: a command that starts (R76) goes from the head of its window's queue to its own effect, said once in `State.startCmd_runs`; its record lands at the
tail of the ring (R84, `State.completeCmd_records`); an abort empties each window that it names (R86). -/
theorem commandsRun : Obligations.CommandsRun := by
  unfold Obligations.CommandsRun
  intro s vf w hb _ _ _
  refine ⟨fun off data ho hlen => ⟨fun ha hwhole hroom => exec_commandWindowWrite_packet hb vf w ho ha hwhole hroom,
      exec_commandWindowWrite_discarded hb vf w ho hlen⟩, exec_windowDiscardsClear hb vf w,
    fun c rest h => ⟨exec_badOpCommand h, fun r hs rs hop hdeps => launch_waits h hdeps hop, fun st hop hdeps => exec_launch_bad h hdeps hop,
      fun hop hdeps hfeat hep => ⟨exec_arm_retires h hdeps hop hfeat hep, fun r hs rs hcount hrec hnone => ?arms⟩,
      fun die eng s1 v hop hdeps hdie hroom hread hspace => ?copies, fun hop hact hdeps => exec_handleRegister h hdeps hop hact,
      exec_handleRetire h, fun hop hdeps => exec_signal_host h hdeps hop, fun pa e hop hdeps => exec_waitv h hdeps hop⟩,
    fun r hrun hfin => ⟨exec_handleRetireComplete hrun hfin, exec_waitvTimeout hrun hfin,
      fun st d tail head n hmem hd hcyc _ => State.completeCmd_records hrun hfin hmem hd hcyc⟩,
    windowAbort_empties hb vf, fun x hbad _ hdeps hrun hq hdoom hhalt hready => ?doomed⟩
  case arms =>
    exact ⟨s.armedBy vf w c r hs rs, exec_arm_arms h hdeps hop hfeat hep hcount hrec hnone, rfl, rfl, rfl, rfl, rfl, rfl, rfl, rfl⟩
  case copies =>
    exact ⟨_, s1.copyOf vf w die eng c v, exec_hostCopy_queues h hdeps hop hdie hroom hread hspace, Tbl.getD_put_same _ _ _ _, rfl, rfl, rfl, rfl⟩
  case doomed =>
    exact congrArg Host.Outcome.next (State.startCmd_doomed hrun hq hhalt hready (by simpa using hbad) hdeps (by omega) _)

end Sys2Proof.Machine
end

section
/-!
PROOFS. The groups of launches: what a change of one group leaves, how a move begins (R98, R119), and that accesses of memory leave the launches (R165, R194, R201).
-/
namespace Sys2Proof.Machine

/-! ## A table with every entry changed -/

theorem Tbl.find?_mapV {α : Type} (f : Nat → α → α) (t : Table α) (k : Nat) : Tbl.find? (Tbl.mapV f t) k = (Tbl.find? t k).map (f k) := by
  induction t with
  | nil => rfl
  | cons p t ih =>
    obtain ⟨j, v⟩ := p
    unfold Tbl.mapV at *
    rw [List.map_cons]
    unfold Tbl.find?
    split
    · rename_i e; rw [e]; rfl
    · split
      · rfl
      · exact ih

/-- What a change of every entry leaves of the entry of a key, it leaves of what is read there. -/
theorem Tbl.getD_mapV_kept {α β : Type} (read : α → β) {f : Nat → α → α} {t : Table α} {k : Nat} {d : α}
    (h : read (f k (Tbl.getD t k d)) = read (Tbl.getD t k d)) : read (Tbl.getD (Tbl.mapV f t) k d) = read (Tbl.getD t k d) := by
  unfold Tbl.getD at *
  rw [Tbl.find?_mapV]
  cases e : Tbl.find? t k with
  | none => rfl
  | some v => rw [e] at h; exact h

/-- The table of a list by position. -/
theorem Tbl.find?_mapIdx {α β : Type} (f : α → β) (xs : List α) (o i : Nat) :
    Tbl.find? (xs.mapIdx fun n x => (n + o, f x)) (i + o) = xs[i]?.map f := by
  induction xs generalizing o i with
  | nil => rfl
  | cons x xs ih =>
    rw [List.mapIdx_cons]
    unfold Tbl.find?
    cases i with
    | zero => simp
    | succ i =>
      rw [if_neg (by omega), if_neg (by omega), List.getElem?_cons_succ]
      simpa only [Nat.add_assoc, Nat.add_comm 1] using ih (o + 1) i

/-! ## Entries of a filled or mapped array -/

theorem Fixed.getD_fill {α : Type} (n i : Nat) (v : α) : (Fixed.fill n v).getD i v = v := by
  unfold Fixed.fill Fixed.getD
  rw [List.getD_eq_getElem?_getD, List.getElem?_replicate]
  split <;> rfl
theorem Fixed.getD_map {α β : Type} {n : Nat} (f : α → β) (a : Fixed α n) (i : Nat) (d : α) : (a.map f).getD i (f d) = f (a.getD i d) := by
  unfold Fixed.getD Fixed.map
  rw [List.getD_eq_getElem?_getD, List.getD_eq_getElem?_getD, List.getElem?_map]
  cases a.els[i]? <;> rfl

/-! ## One group changed -/

theorem State.group?_eq_some {s : State} {k g : Nat} {l : Launch} {x : GroupSt} :
    s.group? k g = some (l, x) ↔ Tbl.find? s.launches k = some l ∧ Tbl.find? l.groups g = some x := by
  unfold State.group?
  cases Tbl.find? s.launches k with
  | none => simp
  | some m =>
    simp only [Option.map_eq_some_iff, Prod.mk.injEq, Option.some.injEq]
    constructor
    · rintro ⟨y, hy, rfl, rfl⟩
      exact ⟨rfl, hy⟩
    · rintro ⟨rfl, hx⟩
      exact ⟨x, hx, rfl, rfl⟩

theorem State.group?_congr {s u : State} (h : u.launches = s.launches) (k g : Nat) : u.group? k g = s.group? k g := by
  unfold State.group?
  rw [h]

/-- A launch with one group replaced. -/
def Launch.putGroup (l : Launch) (g : Nat) (x : GroupSt) : Launch := { l with groups := Tbl.put l.groups g x }

theorem State.updGroup_of_group {s : State} {k g : Nat} {l : Launch} {x : GroupSt} (h : s.group? k g = some (l, x)) (f : GroupSt → GroupSt) :
    s.updGroup k g f = { s with launches := Tbl.put s.launches k (l.putGroup g (f x)) } := by
  obtain ⟨hl, hx⟩ := State.group?_eq_some.1 h
  unfold State.updGroup
  rw [State.updLaunch_of_find hl, hx]
  rfl

/-- A group after a change of it. -/
theorem State.group?_updGroup {s : State} {k g : Nat} {l : Launch} {x : GroupSt} (h : s.group? k g = some (l, x)) (f : GroupSt → GroupSt) :
    (s.updGroup k g f).group? k g = some (l.putGroup g (f x), f x) := by
  rw [State.updGroup_of_group h]
  exact State.group?_eq_some.2 ⟨Tbl.find?_put_same _ _ _, Tbl.find?_put_same _ _ _⟩

theorem State.updLaunch_eq (s : State) (k : Nat) (f : Launch → Launch) : s.updLaunch k f = { s with launches := (s.updLaunch k f).launches } := by
  unfold State.updLaunch
  split <;> rfl
/-- A change of a group changes nothing but the launches. -/
theorem State.updGroup_eq (s : State) (k g : Nat) (f : GroupSt → GroupSt) : s.updGroup k g f = { s with launches := (s.updGroup k g f).launches } :=
  State.updLaunch_eq s k _

@[simp] theorem State.updGroup_tile (s : State) (k g t : Nat) (f : GroupSt → GroupSt) : (s.updGroup k g f).tile t = s.tile t := by rw [State.updGroup_eq]; rfl
@[simp] theorem State.updGroup_pfr (s : State) (k g o : Nat) (f : GroupSt → GroupSt) : (s.updGroup k g f).pfr o = s.pfr o := by rw [State.updGroup_eq]; rfl
@[simp] theorem State.updGroup_mem (s : State) (k g : Nat) (f : GroupSt → GroupSt) : (s.updGroup k g f).mem = s.mem := by rw [State.updGroup_eq]
@[simp] theorem State.updGroup_barWait (s : State) (k g : Nat) (f : GroupSt → GroupSt) : (s.updGroup k g f).barWait = s.barWait := by rw [State.updGroup_eq]

theorem State.updGroup_launches_other (s : State) {k j : Nat} (g : Nat) (f : GroupSt → GroupSt) (h : j ≠ k) :
    Tbl.find? (s.updGroup k g f).launches j = Tbl.find? s.launches j := by
  unfold State.updGroup State.updLaunch
  split
  · exact Tbl.find?_put_other _ _ h
  · rfl
theorem State.updGroup_launches_congr {s u : State} (h : u.launches = s.launches) (k g : Nat) (f : GroupSt → GroupSt) :
    (u.updGroup k g f).launches = (s.updGroup k g f).launches := by
  unfold State.updGroup State.updLaunch
  rw [h]
  split
  · rfl
  · exact h

/-! ## A move begins (R98, R119) -/

/-- A group whose move begins in cycle n. -/
def GroupSt.leaves (x : GroupSt) (n : Nat) (full : Bool) : GroupSt := { x with place := .migrating, phase := 1, full, since := n, target := none }

theorem State.beginMove_launches (s : State) (k g : Nat) (full : Bool) :
    (s.beginMove k g full).launches = (s.updGroup k g fun x => x.leaves s.cyc full).launches := by
  unfold State.beginMove
  refine State.updGroup_launches_congr (s := s) ?_ k g fun x => x.leaves s.cyc full
  rfl
@[simp] theorem State.beginMove_pfr (s : State) (k g o : Nat) (full : Bool) : (s.beginMove k g full).pfr o = s.pfr o := State.updGroup_pfr _ k g o _
theorem State.group?_beginMove {s : State} {k g : Nat} {l : Launch} {x : GroupSt} (h : s.group? k g = some (l, x)) (full : Bool) :
    (s.beginMove k g full).group? k g = some (l.putGroup g (x.leaves s.cyc full), x.leaves s.cyc full) :=
  (State.group?_congr (s.beginMove_launches k g full) k g).trans (State.group?_updGroup h _)

/-! ## Accesses of memory leave the launches (R165, R194, R201) -/

@[simp] theorem State.gatherFrom_apart (s : State) (p tenant line : Nat) (pick : Nat → Bool) : (s.gatherFrom p tenant line pick).apart = s.apart := by
  unfold State.gatherFrom
  dsimp only
  split
  · rfl
  · rw [apply_ite State.apart, State.evalWaiters_apart, State.withMem_apart, State.applyWrite_apart, ite_self]
    exact s.apart_mapTiles (fun t v => by split <;> rfl) fun t => by split <;> rfl
@[simp] theorem State.gatherTile_apart (s : State) (t : Nat) : (s.gatherTile t).apart = s.apart := by
  unfold State.gatherTile
  exact State.foldl_kept State.apart (fun u q => State.gatherFrom_apart u _ _ _ _) _ s
@[simp] theorem State.applyStamped_apart (s : State) (p pa n v : Nat) (carried : W32) (poison : Bool) : (s.applyStamped p pa n v carried poison).1.apart = s.apart := by
  unfold State.applyStamped
  dsimp only
  split
  · dsimp only
    rw [State.evalWaiters_apart, State.applyWrite_apart, State.withMem_apart]
  · rfl

theorem State.engHold_launches (s : State) (e : Option Xlat) : (s.engHold e).launches = s.launches := by
  unfold State.engHold
  split
  · refine (State.of_apart (State.walked_apart _ _ _) State.launches).trans ?_
    unfold State.engUse
    split <;> rfl
  · rfl
theorem State.engineWrite_launches (s : State) (p : Nat) (e : Option Xlat) (pa n v : Nat) (stamp : W32) (poison : Bool) :
    (s.engineWrite p e pa n v stamp poison).launches = s.launches := by
  unfold State.engineWrite State.engineStore
  split
  · rename_i x
    refine Eq.trans ?_ (s.engHold_launches (some x))
    dsimp only
    refine State.of_apart ?_ State.launches
    split
    · rw [State.applyStamped_apart, State.gather_apart]
    · rw [State.applyWrite_apart, State.gather_apart]
  · exact State.of_apart (State.applyWrite_apart _ _ _ _ _ _ _ _ _) State.launches

theorem State.segWrite_launches {s s1 : State} {p t : Nat} {segs : Option (Fixed Seg 8)} {stamp : W32} {poison : Bool} {k va n v z : Nat} {q : Bool}
    (h : s.segWrite p t segs stamp poison k va n v = .ok s1 z q) : s1.launches = s.launches := by
  induction k generalizing s va n v with
  | zero => cases h; rfl
  | succ k ih =>
    unfold State.segWrite at h
    split at h
    · cases h; rfl
    · split at h
      · exact nomatch h
      · exact nomatch h
      · dsimp only at h
        split at h
        · exact nomatch h
        · exact nomatch h
        · exact (ih h).trans (State.engineWrite_launches _ _ _ _ _ _ _ _)
/-- Writing the fields of a record changes no launch. -/
theorem State.saveFields_launches {s s1 : State} {p base z : Nat} {fs : List (SaveField × Bool)} {q : Bool} (h : s.saveFields p base fs = .ok s1 z q) :
    s1.launches = s.launches := by
  unfold State.saveFields at h
  revert s1 z q
  refine List.foldlRecOn (motive := fun (got : SegGot) => ∀ {s1 : State} {z : Nat} {q : Bool}, got = .ok s1 z q → s1.launches = s.launches) fs _ ?first
    fun got ih f _ s1 z q e => ?next
  case first =>
    intro s1 z q e
    cases e
    rfl
  case next =>
    cases got with
    | ok u y b => exact (State.segWrite_launches e).trans (ih rfl)
    | fail => exact nomatch e
    | waits pva w => exact nomatch e

end Sys2Proof.Machine
end

section
/-!
PROOFS. Launches (R94 to R98, R101), O47: the state in which the next launch is placed, what the start of a group leaves on its tile, the displacement of a
group, and what the end of a launch leaves.
-/
namespace Sys2Proof.Machine

/-! ## The crown as it starts (R95) -/

/-- The registers that R95 gives no value are as at reset. -/
theorem crownOf_reg_other (l : Launch) (g cyc : Nat) {n : Nat} (h : n < 10 ∨ 14 < n) : (crownOf l g cyc).reg n = {} := by
  unfold crownOf
  simp only [List.foldl_cons, List.foldl_nil]
  iterate 5 rw [Ctx.reg_setReg_other _ _ (by omega)]
  exact Fixed.getD_fill 32 n ({} : Reg)

/-- The tile of group g of launch k, as the group starts on it in cycle n (R95). -/
def Tile.startsAt (v : Tile) (k : Nat) (l : Launch) (g n : Nat) : Prop :=
  v.grp = some ⟨k, g⟩ ∧ v.ctxs = [(0, crownOf l g n)] ∧ v.rotLo = 0xFEDCBA9876543210 ∧ v.rotHi = 0xFEDCBA9876543210

theorem State.startGroup_startsAt (s : State) (k : Nat) (l : Launch) (g t : Nat) : ((s.startGroup k l g t).tile t).startsAt k l g s.cyc := by
  have there : (s.startGroup k l g t).tile t = (s.setTile t _).tile t := rfl
  rw [there, State.tile_setTile_same]
  exact ⟨rfl, rfl, rfl, rfl⟩
theorem State.startGroup_other (s : State) (k : Nat) (l : Launch) (g : Nat) {t j : Nat} (h : j ≠ t) : (s.startGroup k l g t).tile j = s.tile j :=
  Tbl.getD_put_other s.tiles _ _ h
@[simp] theorem State.startGroup_cyc (s : State) (k : Nat) (l : Launch) (g t : Nat) : (s.startGroup k l g t).cyc = s.cyc := rfl
@[simp] theorem State.startGroup_launches (s : State) (k : Nat) (l : Launch) (g t : Nat) : (s.startGroup k l g t).launches = s.launches := rfl

/-- The groups of a launch start, each on its tile. -/
def State.startGroups (s : State) (k : Nat) (l : Launch) (gs : Table GroupSt) : State := gs.foldl (fun s q => s.startGroup k l q.1 q.2.tile) s

@[simp] theorem State.startGroups_launches (s : State) (k : Nat) (l : Launch) (gs : Table GroupSt) : (s.startGroups k l gs).launches = s.launches := by
  unfold State.startGroups
  refine State.foldl_kept State.launches (fun u q => ?_) gs s
  exact u.startGroup_launches k l q.1 q.2.tile
theorem State.startGroups_other (s : State) (k : Nat) (l : Launch) {gs : Table GroupSt} {j : Nat} (h : ∀ q ∈ gs, j ≠ q.2.tile) :
    (s.startGroups k l gs).tile j = s.tile j := by
  induction gs generalizing s with
  | nil => rfl
  | cons q gs ih =>
    have rest := ih (s.startGroup k l q.1 q.2.tile) fun r hr => h r (List.mem_cons_of_mem _ hr)
    exact rest.trans (s.startGroup_other k l q.1 (h q List.mem_cons_self))
/-- Where no two groups share a tile, each starts on its own. -/
theorem State.startGroups_startsAt (s : State) (k : Nat) (l : Launch) {gs : Table GroupSt} (hd : (gs.map fun q => q.2.tile).Nodup) {q : Nat × GroupSt} (hq : q ∈ gs) :
    ((s.startGroups k l gs).tile q.2.tile).startsAt k l q.1 s.cyc := by
  induction gs generalizing s with
  | nil => exact (List.not_mem_nil hq).elim
  | cons r gs ih =>
    rw [List.map_cons, List.nodup_cons] at hd
    obtain ⟨hr, hd⟩ := hd
    cases List.mem_cons.1 hq with
    | inl e =>
      subst e
      have last := (s.startGroup k l q.1 q.2.tile).startGroups_other k l (gs := gs) (j := q.2.tile) fun p hp e => hr (e ▸ List.mem_map_of_mem hp)
      have there := s.startGroup_startsAt k l q.1 q.2.tile
      rw [← last] at there
      exact there
    | inr hq => exact ih (s.startGroup k l r.1 r.2.tile) hd hq

/-! ## LAUNCH_PLACEMENT (R94, R97, R98) -/

/-- Launches that have started, or still wait for handles, stay as they are. -/
theorem State.startLaunch_of_started {s : State} {k : Nat} {l : Launch} (h : l.st = .waiting → l.startAt.isSome = true ∨ s.depsOpen l.deps = true) :
    s.startLaunch k l = s := by
  refine if_pos ?_
  by_cases hs : l.st = .waiting
  · exact .inr (h hs)
  · exact .inl hs

/-- The launches of partition p whose handles are free start. -/
def State.startLaunches (s : State) (p : Nat) : State :=
  (s.launches.filter fun q => decide (q.2.part = p)).foldl (fun (s : State) q => s.startLaunch q.1 q.2) s

theorem State.startLaunches_of_placing {s : State} {p k : Nat} {l : Launch} (h : Says.placing s p k l) : s.startLaunches p = s := by
  obtain ⟨_, _, _, hs⟩ := h
  refine List.foldlRecOn (motive := fun u => u = s) _ _ rfl fun u hu q hq => ?_
  obtain ⟨hm, hp⟩ := List.mem_filter.1 hq
  subst hu
  exact State.startLaunch_of_started (hs q hm (of_decide_eq_true hp))

/-- The groups of a launch that is placed on tiles ts. -/
def groupsOn (ts : List Nat) : Table GroupSt := ts.mapIdx fun g t => (g, { tile := t })
/-- The launch as it is placed. -/
def Launch.placedOn (l : Launch) (ts : List Nat) (n : Nat) : Launch := { l with st := .running, placedAt := n, groups := groupsOn ts }
/-- The state with launch k of partition p placed, before its groups start. -/
def State.runs (s : State) (p k : Nat) (m : Launch) : State := (State.fresh { s with launches := Tbl.put s.launches k m }).chargeClass p m.r.cls m.r.groups

@[simp] theorem State.chargeClass_launches (s : State) (p c n : Nat) : (s.chargeClass p c n).launches = s.launches := by
  unfold State.chargeClass
  split <;> rfl
@[simp] theorem State.chargeClass_cyc (s : State) (p c n : Nat) : (s.chargeClass p c n).cyc = s.cyc := by
  unfold State.chargeClass
  split <;> rfl

/-- What is checked before the next launch is given tiles. -/
theorem Says.placing.guards {s : State} {p k : Nat} {l : Launch} (h : Says.placing s p k l) :
    s.startLaunches p = s ∧ s.partLive p = true ∧ s.nextLaunch p = some (k, l) ∧ (s.chooseTiles p l.r fun _ => true).isNone = false := by
  have started := State.startLaunches_of_placing h
  obtain ⟨hlive, hnext, hshape, _⟩ := h
  exact ⟨started, hlive, hnext, Option.isNone_eq_false_iff.2 (Option.isSome_iff_ne_none.2 hshape)⟩

section
variable {s : State} {p k : Nat} {l : Launch} (h : Says.placing s p k l)
include h

theorem exec_launchPlacement_room {ts : List Nat} (hts : s.chooseTiles p l.r (s.mayTake l.r.cls) = some ts) : exec (.launchPlacement p) s =
    .next ((s.runs p k (l.placedOn ts s.nextId)).startGroups k (l.placedOn ts s.nextId) (groupsOn ts)) := by
  obtain ⟨started, hlive, hnext, hshape⟩ := h.guards
  unfold State.startLaunches at started
  show execLaunchPlacement p s = _
  unfold execLaunchPlacement
  simp only [started, hlive, hnext, hshape, hts, Bool.not_true, Bool.false_eq_true, if_false]
  rfl
/-- Of class 0, it displaces the next victim (R98). -/
theorem exec_launchPlacement_displaces {j g : Nat} (hts : s.chooseTiles p l.r (s.mayTake l.r.cls) = none) (hc : l.r.cls = 0) (hleave : s.leaving p = false)
    (hvictim : s.victim p = some (j, g)) : exec (.launchPlacement p) s = .next (s.beginMove j g true) := by
  obtain ⟨started, hlive, hnext, hshape⟩ := h.guards
  unfold State.startLaunches at started
  show execLaunchPlacement p s = _
  unfold execLaunchPlacement
  simp only [started, hlive, hnext, hshape, hts, hleave, hvictim, Bool.not_true, Bool.false_eq_true, if_false]
  rw [if_neg (not_not_intro hc)]
  rfl
/-- Of another class, it is chosen and waits (R97). -/
theorem exec_launchPlacement_waits (hts : s.chooseTiles p l.r (s.mayTake l.r.cls) = none) (hc : l.r.cls ≠ 0) :
    exec (.launchPlacement p) s = .next (s.updPart p fun q => { q with chosen := some k }) := by
  obtain ⟨started, hlive, hnext, hshape⟩ := h.guards
  unfold State.startLaunches at started
  show execLaunchPlacement p s = _
  unfold execLaunchPlacement
  simp only [started, hlive, hnext, hshape, hts, Bool.not_true, Bool.false_eq_true, if_false, if_pos hc]
end

theorem mem_groupsOn {ts : List Nat} {g j : Nat} (h : ts[g]? = some j) : (g, { tile := j }) ∈ groupsOn ts := by
  unfold groupsOn
  rw [List.mem_mapIdx]
  obtain ⟨hg, e⟩ := List.getElem?_eq_some_iff.1 h
  exact ⟨g, hg, by rw [e]⟩
theorem groupsOn_tiles (ts : List Nat) : ((groupsOn ts).map fun q => q.2.tile) = ts := by
  unfold groupsOn
  exact List.ext_getElem (by simp) fun i _ _ => by simp
theorem Launch.tileOf_placedOn (l : Launch) (ts : List Nat) (n g : Nat) : (l.placedOn ts n).tileOf g = ts[g]? := by
  have found : Tbl.find? (groupsOn ts) g = ts[g]?.map fun t => { tile := t } :=
    Tbl.find?_mapIdx (fun t => ({ tile := t } : GroupSt)) ts 0 g
  unfold Launch.tileOf Launch.placedOn
  rw [found, Option.map_map]
  exact Option.map_id'

/-- The launch placed runs on the tiles chosen. -/
theorem launchPlacement_places {s : State} {p k : Nat} {l : Launch} (h : Says.placing s p k l) {ts : List Nat}
    (hts : s.chooseTiles p l.r (s.mayTake l.r.cls) = some ts) (hd : ts.Nodup) :
    ∃ t m, exec (.launchPlacement p) s = .next t ∧ Tbl.find? t.launches k = some m ∧ m = l.placedOn ts s.nextId ∧
      ∀ g j, ts[g]? = some j → (t.tile j).startsAt k m g s.cyc := by
  refine ⟨_, _, exec_launchPlacement_room h hts, ?_, rfl, fun g j hg => ?_⟩
  · rw [State.startGroups_launches]
    unfold State.runs
    rw [State.chargeClass_launches]
    exact Tbl.find?_put_same _ _ _
  · have starts := State.startGroups_startsAt (s.runs p k (l.placedOn ts s.nextId)) k (l.placedOn ts s.nextId) (by rw [groupsOn_tiles]; exact hd) (mem_groupsOn hg)
    have now : (s.runs p k (l.placedOn ts s.nextId)).cyc = s.cyc := State.chargeClass_cyc _ _ _ _
    rwa [now] at starts

/-! ## LAUNCH_COMPLETE (R77, R96, R101) -/

theorem State.gatherTiles_of_noPartials {s : State} (h : Says.noPartials s) (p : Nat) (pick : Nat → Bool) : s.gatherTiles p pick = s := by
  have none_held : (s.tiles.flatMap fun (t, v) => if pick t then v.parts.map fun q => (t, q.1) else []) = [] := by
    rw [List.flatMap_eq_nil_iff]
    intro q hq
    dsimp only
    rw [h q hq, List.map_nil, ite_self]
  unfold State.gatherTiles
  dsimp only
  rw [none_held]
  rfl
theorem State.writerActions_of_noPartials {s : State} (h : Says.noPartials s) (p uid : Nat) : s.writerActions p uid = s := by
  unfold State.writerActions
  dsimp only
  rw [State.gatherTiles_of_noPartials h, ite_self]

/-- What the ends of commands and launches leave: the groups on tiles and the completion words; no user of a handle joins. -/
structure State.Winds (s u : State) : Prop where
  grp : ∀ t, (u.tile t).grp = (s.tile t).grp
  cwords : u.cwords = s.cwords
  users : ∀ x ∈ u.users, x ∈ s.users

theorem State.Winds.refl (s : State) : s.Winds s := ⟨fun _ => rfl, rfl, fun _ h => h⟩
theorem State.Winds.trans {s u v : State} (h : s.Winds u) (k : u.Winds v) : s.Winds v :=
  ⟨fun t => (k.grp t).trans (h.grp t), k.cwords.trans h.cwords, fun x hx => h.users x (k.users x hx)⟩
theorem State.winds_of_apart {s u : State} (h : u.apart = s.apart) (hu : ∀ x ∈ u.users, x ∈ s.users) : s.Winds u :=
  ⟨fun t => State.tile_of_apart h Tile.grp t, State.of_apart h State.cwords, hu⟩

@[simp] theorem State.flushRing_users (s : State) (v n : Nat) : (s.flushRing v n).users = s.users := by
  induction n generalizing s with
  | zero => rfl
  | succ n ih =>
    unfold State.flushRing
    split
    · rfl
    · dsimp only
      split
      · rfl
      · rw [ih, State.pokeRaw_eq]
        repeat' split
        all_goals rfl

theorem State.complete_winds (s : State) (v : Nat) (c : Completion) : s.Winds (s.complete v c) :=
  State.winds_of_apart (by unfold State.complete; rw [State.flushRing_apart]; rfl) fun x hx => by
    unfold State.complete at hx
    rwa [State.flushRing_users] at hx
theorem State.completeCmd_users (s : State) (v w st d : Nat) : ∀ x ∈ (s.completeCmd v w st d).users, x ∈ s.users := by
  unfold State.completeCmd
  split
  · exact fun _ h => h
  · split
    · exact fun _ h => h
    · intro x hx
      rw [State.endCmd_eq] at hx
      have old := (State.complete_winds _ _ _).users x hx
      exact (List.mem_filter.1 old).1
theorem State.completeCmd_winds (s : State) (v w st d : Nat) : s.Winds (s.completeCmd v w st d) :=
  State.winds_of_apart (s.completeCmd_apart v w st d) (s.completeCmd_users v w st d)
theorem State.firedOver_winds (s : State) (l : Launch) (st : Nat) : s.Winds (s.firedOver l st) := by
  unfold State.firedOver
  split
  · exact s.complete_winds _ _
  · exact State.Winds.refl s
theorem State.moveEnds_winds (s : State) (k : Nat) : s.Winds (s.moveEnds k) := by
  unfold State.moveEnds
  dsimp only
  split <;> exact ⟨fun _ => rfl, rfl, fun _ h => h⟩
theorem State.updLaunch_winds (s : State) (k : Nat) (f : Launch → Launch) : s.Winds (s.updLaunch k f) := by
  rw [State.updLaunch_eq]
  exact ⟨fun _ => rfl, rfl, fun _ h => h⟩

/-- The launch that started one with a trap knows of its FAULT (R101). -/
def State.tellParent (s : State) (l : Launch) : State :=
  match l.parent with
  | some j => if l.trapped then s.updLaunch j fun q => { q with trapped := true } else s
  | none => s
/-- The LAUNCH of a launch completes (R77). -/
def State.endLaunchCmd (s : State) (l : Launch) (st : Nat) : State :=
  match l.cmd with
  | some (v, w) => s.completeCmd v w st l.num
  | none => s

theorem State.tellParent_winds (s : State) (l : Launch) : s.Winds (s.tellParent l) := by
  unfold State.tellParent
  split
  · split
    · exact s.updLaunch_winds _ _
    · exact State.Winds.refl s
  · exact State.Winds.refl s
theorem State.endLaunchCmd_winds (s : State) (l : Launch) (st : Nat) : s.Winds (s.endLaunchCmd l st) := by
  unfold State.endLaunchCmd
  split
  · exact s.completeCmd_winds _ _ _ _
  · exact State.Winds.refl s

/-- Tile v, left by launch k. -/
def Tile.leftBy (v : Tile) (k : Nat) : Tile := if v.grp.map (·.launch) = some k then v.vacate else v

theorem Tile.leftBy_grp {v : Tile} {k : Nat} {g : GroupRef} (h : (v.leftBy k).grp = some g) : g.launch ≠ k := by
  unfold Tile.leftBy at h
  split at h
  · exact absurd h nofun
  · rename_i hn
    intro e
    exact hn (by rw [h, ← e]; rfl)

/-- A launch that is over is gone from its tiles and from the users of handles; its parent, its command and its record follow. -/
theorem State.launchOver_eq {s : State} {k : Nat} {l : Launch} (h : Tbl.find? s.launches k = some l) (st : Nat) :
    ∃ u : State, s.launchOver k st = (((u.moveEnds k).tellParent l).endLaunchCmd l st).firedOver l st ∧
      u.tiles = Tbl.mapV (fun _ v => v.leftBy k) s.tiles ∧ u.cwords = s.cwords ∧ u.users = s.users.filter (· ≠ l.uid) := by
  unfold State.launchOver
  rw [h]
  exact ⟨_, rfl, rfl, rfl, rfl⟩

theorem State.launchOver_leaves {s : State} {k : Nat} {l : Launch} (h : Tbl.find? s.launches k = some l) (st : Nat) :
    (∀ t g, ((s.launchOver k st).tile t).grp = some g → g.launch ≠ k) ∧ (s.launchOver k st).cwords = s.cwords ∧ l.uid ∉ (s.launchOver k st).users := by
  obtain ⟨u, e, htiles, hcwords, husers⟩ := State.launchOver_eq h st
  have winds : u.Winds (s.launchOver k st) := e ▸ (u.moveEnds_winds k).trans ((State.tellParent_winds _ l).trans ((State.endLaunchCmd_winds _ l st).trans
    (State.firedOver_winds _ l st)))
  refine ⟨fun t g hg => ?_, winds.cwords.trans hcwords, fun hx => ?_⟩
  · have there : u.tile t = (s.tile t).leftBy k := by
      unfold State.tile
      rw [htiles]
      exact Tbl.getD_mapV _ s.tiles t rfl
    rw [winds.grp, there] at hg
    exact Tile.leftBy_grp hg
  · have old := winds.users _ hx
    rw [husers] at old
    simp at old

/-- A launch that has ended and names no completion word is over at once. -/
theorem exec_launchComplete_silent {s : State} {p n : Nat} {l : Launch} (h : Tbl.find? s.launches (p * 65536 + n) = some l)
    (he : s.launchEnded (p * 65536 + n) l = true) (hp : Says.noPartials s) (hc : l.r.cword = 0) :
    exec (.launchComplete p n) s = .next (s.finishLaunch (p * 65536 + n)) := by
  show execLaunchComplete p n s = _
  unfold execLaunchComplete
  simp only [h, he, State.gatherTiles_of_noPartials hp, State.writerActions_of_noPartials hp, hc, Bool.not_true, Bool.false_eq_true, if_false, if_true]

/-- The completion word of a launch that has ended (R101, R414). -/
def State.launchWord (s : State) (p n : Nat) (r : Record) : CWord :=
  { id := s.nextId, part := p, launch := n, addr := BitVec.ofNat 64 r.cword, val := r.cval, launchEnd := some (p * 65536 + n) }

/-- One that names a completion word leaves when the word has been written. -/
theorem exec_launchComplete_word {s : State} {p n : Nat} {l : Launch} (h : Tbl.find? s.launches (p * 65536 + n) = some l)
    (he : s.launchEnded (p * 65536 + n) l = true) (hp : Says.noPartials s) (hc : l.r.cword ≠ 0) :
    ∃ t, exec (.launchComplete p n) s = .next t ∧ t.cwords = s.cwords ++ [s.launchWord p n l.r] := by
  show ∃ t, execLaunchComplete p n s = .next t ∧ _
  unfold execLaunchComplete
  simp only [h, he, State.gatherTiles_of_noPartials hp, State.writerActions_of_noPartials hp, hc, Bool.not_true, Bool.false_eq_true, if_false]
  refine ⟨_, rfl, ?_⟩
  rw [State.updLaunch_eq]
  rfl

/-! ## O47 -/

/-- Settles O47: the launch placed starts each of its groups on a tile of its own (`State.startGroups_startsAt`, R95); without room a group of a lower class
begins its move (R98), or the launch is chosen and waits (R97); a launch that is over leaves its tiles (`State.launchOver_leaves`, R101). -/
theorem launchesRun : Obligations.LaunchesRun := by
  unfold Obligations.LaunchesRun
  intro s
  refine ⟨fun p k l ts h hts hd => ?placed, fun p k l j g m x h hts hc hleave hvictim hg => ?displaced,
    fun p k l h hts hc => exec_launchPlacement_waits h hts hc, fun p n l h he hp => ⟨fun hc => ?silent, fun hc => ?word⟩⟩
  case placed =>
    obtain ⟨t, m, ht, hm, rfl, starts⟩ := launchPlacement_places h hts hd
    refine ⟨t, ht, ⟨_, hm, rfl, rfl, fun g _ => l.tileOf_placedOn ts _ g⟩, fun g j hj => ?_⟩
    obtain ⟨hgrp, hctxs, hlo, hhi⟩ := starts g j hj
    exact ⟨_, hgrp, hctxs, rfl, rfl, rfl, rfl, rfl, rfl, rfl, rfl, rfl, rfl, rfl, rfl, fun r hr => crownOf_reg_other _ g s.cyc hr, hlo, hhi⟩
  case displaced =>
    have moved := State.group?_beginMove hg true
    refine ⟨_, _, _, exec_launchPlacement_displaces h hts hc hleave hvictim, moved, rfl, fun k' hk => ?_⟩
    rw [State.beginMove_launches]
    exact s.updGroup_launches_other g _ hk
  case silent =>
    obtain ⟨left, words, users⟩ := State.launchOver_leaves h (if l.trapped then 8 else 0)
    have finished : s.finishLaunch (p * 65536 + n) = s.launchOver (p * 65536 + n) (if l.trapped then 8 else 0) := by
      unfold State.finishLaunch
      rw [h]
    refine ⟨_, exec_launchComplete_silent h he hp hc, ?_⟩
    rw [finished]
    exact ⟨left, fun c hcw => words ▸ hcw, users⟩
  case word =>
    obtain ⟨t, ht, words⟩ := exec_launchComplete_word h he hp hc
    exact ⟨t, _, ht, words, rfl, rfl, rfl, rfl, rfl⟩

end Sys2Proof.Machine
end

section
/-!
PROOFS. Migration (R98, R118 to R124), O48: what begins and ends the wait of a group that is to move, what its quiesce, its save and its restore leave of its
tile, and the tile on which a displaced group resumes.
-/
namespace Sys2Proof.Machine

/-! ## GROUP_MIGRATE_REQUEST, CKPT_LIMIT_EXPIRE and DISPLACED_GROUP_RESUME (R98, R118, R119) -/

/-- The state in which a request to move group g of launch k to tile d is under way. -/
def State.moves (s : State) (v : Word) (k g : Nat) (d : Option Nat) : State :=
  ((((s.setPf 0xA400 v).setPf 0xA408 1).beginMove k g (bit v.toNat 62)).updGroup k g fun x => { x with target := d })

/-- A word that requests a move of group g of launch n of partition p (R118). -/
def asksMove (v : Word) (p n g : Nat) : Prop :=
  bit v.toNat 63 = true ∧ bits v.toNat 61 54 = 0 ∧ bits v.toNat 53 48 = p ∧ bits v.toNat 47 32 = n ∧ bits v.toNat 31 12 = 0 ∧ bits v.toNat 11 0 = g
theorem asksMove_of_fields {v : Word} {p n g : Nat} (hgo : v.toNat / 2 ^ 63 = 1) (hz : v.toNat / 2 ^ 54 % 2 ^ 8 = 0) (hp : v.toNat / 2 ^ 48 % 2 ^ 6 = p)
    (hn : v.toNat / 2 ^ 32 % 2 ^ 16 = n) (hz' : v.toNat / 2 ^ 12 % 2 ^ 20 = 0) (hg : v.toNat % 2 ^ 12 = g) : asksMove v p n g := by
  refine ⟨?_, hz, hp, hn, hz', ?_⟩
  · unfold bit
    rw [hgo]
    rfl
  · unfold bits
    rw [Nat.pow_zero, Nat.div_one]
    exact hg

theorem exec_groupMigrateRequest_moves {s : State} {v : Word} {p n g : Nat} {l : Launch} {x : GroupSt} {ts : List Nat} (hv : asksMove v p n g)
    (hbusy : bit (s.pfr 0xA408).toNat 0 = false) (hfeat : s.feature 9 = true) (hlive : s.partLive p = true) (hrun : x.place = .running)
    (h : s.group? (p * 65536 + n) g = some (l, x))
    (hts : (s.setPf 0xA400 v).chooseTiles p { l.r with tiles := 1, clusters := 1, dies := 1 } (fun t => decide (t ≠ x.tile) && (s.setPf 0xA400 v).mayTake 1 t) =
      some ts) :
    exec (.groupMigrateRequest v) s = .next (s.moves v (p * 65536 + n) g ts.head?) := by
  obtain ⟨go, z, fp, fn, z', fg⟩ := hv
  have feat : (s.setPf 0xA400 v).feature 9 = true := hfeat
  have live : (s.setPf 0xA400 v).partLive p = true := hlive
  have found : (s.setPf 0xA400 v).group? (p * 65536 + n) g = some (l, x) := h
  have fresh : ¬(x.place = .migrating ∧ x.target.isSome = true) := by simp [hrun]
  show execGroupMigrateRequest v s = _
  unfold execGroupMigrateRequest
  simp only [go, hbusy, fp, fn, fg, found, hts, Bool.not_true, Bool.or_false, Bool.false_eq_true, if_false]
  rw [if_neg (by simp [z, z', feat, live]), if_neg fresh, if_neg (not_not_intro hrun)]
  rfl

theorem groupMigrateRequest_moves {s : State} {v : Word} {k g : Nat} {l : Launch} {x : GroupSt} (h : s.group? k g = some (l, x)) (d : Option Nat) :
    ∃ m, (s.moves v k g d).group? k g = some (m, { x.leaves s.cyc (bit v.toNat 62) with target := d }) ∧ (s.moves v k g d).pfr 0xA408 = 1 := by
  have begun := State.group?_beginMove (s := (s.setPf 0xA400 v).setPf 0xA408 1) h (bit v.toNat 62)
  refine ⟨_, State.group?_updGroup begun _, ?_⟩
  unfold State.moves
  rw [State.updGroup_pfr, State.beginMove_pfr, State.pfr_setPf_same]

theorem exec_ckptLimitExpire_ends {s : State} {p n g : Nat} {l : Launch} {x : GroupSt} (h : s.group? (p * 65536 + n) g = some (l, x)) (hm : x.place = .migrating)
    (h1 : x.phase = 1) (hf : x.full = false) (hc : x.since + l.r.ckptLimit ≤ s.cyc) :
    exec (.ckptLimitExpire p n g) s = .next (s.updGroup (p * 65536 + n) g fun y => { y with full := true }) := by
  show execCkptLimitExpire p n g s = _
  unfold execCkptLimitExpire
  simp only [h]
  exact if_pos ⟨hm, h1, hf, hc⟩

theorem exec_displacedGroupResume_chooses {s : State} {p n g : Nat} {l : Launch} {x : GroupSt} (h : s.group? (p * 65536 + n) g = some (l, x)) {d : Nat}
    (hd : x.place = .displaced) (ht : x.target = none) (hl : l.st ≠ .ending) (hw : ∀ q ∈ s.waiting p, q.2.r.cls ≠ 0)
    (hr : s.resumeTiles (p * 65536 + n) l g x = [(g, d)]) :
    exec (.displacedGroupResume p n g) s = .next (s.updGroup (p * 65536 + n) g fun y => { y with target := some d }) := by
  have none_first : (s.waiting p).any (fun q => decide (q.2.r.cls = 0)) = false := by simpa using hw
  show execDisplacedGroupResume p n g s = _
  unfold execDisplacedGroupResume
  simp only [h]
  rw [if_neg (by simp [hd, ht, hl, none_first]), hr]
  rfl

/-! ## MIGRATION_QUIESCE (R119) -/

/-- What withdrawing the waits of a group leaves: the launches, who waits on barrier objects, and which tiles are quiet. -/
structure Still where
  launches : Table Launch
  barWait : List (Nat × Nat × Nat × Nat)
  quiet : Nat → Bool
def State.still (s : State) : Still := ⟨s.launches, s.barWait, fun t => (s.tile t).quiet⟩

theorem State.updTile_still (s : State) (t : Nat) {f : Tile → Tile} (h : ∀ v, (f v).quiet = v.quiet) : (s.updTile t f).still = s.still := by
  refine congrArg (Still.mk _ _) (funext fun j => ?_)
  show ((s.updTile t f).tile j).quiet = (s.tile j).quiet
  rw [State.tile_updTile]
  split
  · rename_i e; rw [e, h]
  · rfl
@[simp] theorem State.updCtx_still (s : State) (t c : Nat) (f : Ctx → Ctx) : (s.updCtx t c f).still = s.still := s.updTile_still t fun _ => rfl
@[simp] theorem State.dropReq_still (s : State) (id : Nat) : (s.dropReq id).still = s.still := rfl
@[simp] theorem State.dropRemote_still (s : State) (t c : Nat) : (s.dropRemote t c).still = s.still := rfl
@[simp] theorem State.unPend_still (s : State) (t c d : Nat) (o : Bool) : (s.unPend t c d o).still = s.still := by
  unfold State.unPend
  split
  · rfl
  · exact State.updCtx_still s t c _
@[simp] theorem State.withdraw_still (s : State) (r : Req) : (s.withdraw r).still = s.still := by
  unfold State.withdraw
  simp
@[simp] theorem State.withdrawVec_still (s : State) (t : Nat) (o : VOp) : (s.withdrawVec t o).still = s.still := by
  unfold State.withdrawVec
  dsimp only
  rw [State.updCtx_still, apply_ite State.still, State.unPend_still, ite_self, State.dropRemote_still]
  exact s.updTile_still t fun _ => rfl
@[simp] theorem State.withdrawRow_still (s : State) (t : Nat) : (s.withdrawRow t).still = s.still := by
  unfold State.withdrawRow
  split
  · split
    · split
      · exact State.updTile_still _ t fun _ => rfl
      · rfl
    · rfl
  · rfl
@[simp] theorem State.withdrawStuck_still (s : State) (t : Nat) : (s.withdrawStuck t).still = s.still := by
  unfold State.withdrawStuck
  dsimp only
  rw [State.withdrawRow_still]
  exact State.foldl_kept State.still (fun u o => u.withdrawVec_still t o) _ s

/-- A tile stops issuing once nothing of it waits for what another party does. -/
theorem State.quiesceTile_eq (s : State) (t : Nat) : ∃ u : State, s.quiesceTile t =
    (u.updTile t fun v => { v with quiet := true, semWait := [], mbuf := none }).withdrawStuck t ∧ u.launches = s.launches ∧ ∀ q ∈ u.barWait, q.2.2.1 ≠ t := by
  unfold State.quiesceTile
  refine ⟨_, rfl, ?_, ?_⟩
  · have withdrawn := fun (u : State) (rs : List Req) => congrArg Still.launches (State.foldl_kept State.still (fun u r => State.withdraw_still u r) rs u)
    split
    · exact withdrawn _ _
    · exact withdrawn _ _
  · split
    · exact fun q hq => of_decide_eq_true (List.mem_filter.1 hq).2
    · exact fun q hq => of_decide_eq_true (List.mem_filter.1 hq).2

theorem State.quiesceTile_stops (s : State) (t : Nat) : (s.quiesceTile t).launches = s.launches ∧ ((s.quiesceTile t).tile t).quiet = true ∧
    ∀ q ∈ (s.quiesceTile t).barWait, q.2.2.1 ≠ t := by
  obtain ⟨u, e, hl, hb⟩ := s.quiesceTile_eq t
  rw [e]
  have still := (u.updTile t fun v => { v with quiet := true, semWait := [], mbuf := none }).withdrawStuck_still t
  refine ⟨(congrArg Still.launches still).trans hl, (congrFun (congrArg Still.quiet still) t).trans ?_, fun q hq => hb q ?_⟩
  · show ((u.updTile t _).tile t).quiet = true
    rw [State.tile_updTile_same]
  · have kept : ((u.updTile t fun v => { v with quiet := true, semWait := [], mbuf := none }).withdrawStuck t).barWait = u.barWait := congrArg Still.barWait still
    rwa [kept] at hq

@[simp] theorem State.saveCopies_launches (s : State) (k g : Nat) : (s.saveCopies k g).launches = s.launches := rfl
@[simp] theorem State.saveCopies_tile (s : State) (k g t : Nat) : (s.saveCopies k g).tile t = s.tile t := rfl
@[simp] theorem State.saveCopies_barWait (s : State) (k g : Nat) : (s.saveCopies k g).barWait = s.barWait := rfl

theorem exec_migrationQuiesce_stops {s : State} {p n g : Nat} {l : Launch} {x : GroupSt} (h : s.group? (p * 65536 + n) g = some (l, x)) (hm : x.place = .migrating)
    (h1 : x.phase = 1) (hw : x.full = true ∨ (s.tile x.tile).ctxs.all (fun q => q.2.atRest) = true) :
    exec (.migrationQuiesce p n g) s = .next (((s.quiesceTile x.tile).saveCopies (p * 65536 + n) g).updGroup (p * 65536 + n) g fun y =>
      { y with phase := 2, whole := x.full || !(s.tile x.tile).ctxs.all fun q => q.2.atRest }) := by
  show execMigrationQuiesce p n g s = _
  unfold execMigrationQuiesce
  simp only [h]
  refine if_neg ?_
  rintro (e | e | ⟨hf, hr⟩)
  · exact e hm
  · exact e h1
  · rw [hf, hr] at hw
    exact hw.elim Bool.false_ne_true Bool.false_ne_true

/-! ## What waking contexts, copies and accesses leave of tiles (R111, R122, R131, R191) -/

/-- What waking a context leaves of it: its x registers, its pc and its latch. -/
structure CtxCore where
  x : Fixed Reg 32
  pc : Word
  latch : Option Latch
def Ctx.core (x : Ctx) : CtxCore := ⟨x.x, x.pc, x.latch⟩
/-- What it leaves of its tile. -/
structure TileCore where
  grp : Option GroupRef
  quiet : Bool
  acc : Fixed Acc 8
  sem : Fixed Nat 8
  ctx : Nat → CtxCore
def Tile.core (v : Tile) : TileCore := ⟨v.grp, v.quiet, v.acc, v.sem, fun c => (v.ctx c).core⟩
/-- What it leaves of the launches and of every tile. -/
structure Core where
  launches : Table Launch
  tile : Nat → TileCore
def State.core (s : State) : Core := ⟨s.launches, fun t => (s.tile t).core⟩

theorem Tile.updCtx_core (v : Tile) (c : Nat) {f : Ctx → Ctx} (h : (f (v.ctx c)).core = (v.ctx c).core) : (v.updCtx c f).core = v.core := by
  refine congrArg (TileCore.mk _ _ _ _) (funext fun d => ?_)
  show ((v.updCtx c f).ctx d).core = (v.ctx d).core
  rw [Tile.ctx_updCtx]
  split
  · rename_i e; rw [e, h]
  · rfl
theorem State.updCtx_core (s : State) (t c : Nat) {f : Ctx → Ctx} (h : (f (s.ctx t c)).core = (s.ctx t c).core) : (s.updCtx t c f).core = s.core := by
  refine congrArg (Core.mk _) (funext fun j => ?_)
  show ((s.updTile t fun v => v.updCtx c f).tile j).core = (s.tile j).core
  rw [State.tile_updTile]
  split
  · rename_i e; rw [e, Tile.updCtx_core _ c h]
  · rfl

/-- Where the contexts of tile w are those of tile v, each changed by f, what f leaves of a context is what it was. -/
theorem Tile.ctx_of_mapV {β : Type} (v : Tile) {w : Tile} {f : Nat → Ctx → Ctx} (hw : w.ctxs = Tbl.mapV f v.ctxs) (read : Ctx → β) (c : Nat)
    (h : read (f c (v.ctx c)) = read (v.ctx c)) : read (w.ctx c) = read (v.ctx c) := by
  unfold Tile.ctx at *
  rw [hw]
  exact Tbl.getD_mapV_kept read h

theorem Ctx.wakeFrom_core (x : Ctx) (k n : Nat) : (if x.park = k then x.wake n else x).core = x.core := by split <;> rfl

@[simp] theorem State.wakeStream_core (s : State) (t c : Nat) : (s.wakeStream t c).core = s.core := s.updCtx_core t c (Ctx.wakeFrom_core _ 2 s.cyc)
@[simp] theorem State.grantUnits_core (s : State) (t : Nat) : (s.grantUnits t).core = s.core := by
  unfold State.grantUnits
  refine State.foldl_kept State.core (fun u c => State.foldl_kept State.core (fun w r => ?_) _ u) _ s
  dsimp only
  split
  · refine w.updCtx_core t c ?_
    split <;> rfl
  · rfl
@[simp] theorem State.releaseFrom_core (s : State) (ids : List Nat) : (s.releaseFrom ids).core = s.core := by
  induction ids generalizing s with
  | nil => rfl
  | cons id ids ih =>
    unfold State.releaseFrom
    split
    · exact ih s
    · split
      · exact ih s
      · exact ih _
@[simp] theorem State.moveEnds_core (s : State) (k : Nat) : (s.moveEnds k).core = s.core := by
  unfold State.moveEnds
  dsimp only
  split <;> rfl

/-! ## MIGRATION_SAVE (R119, R120, R123) -/

/-- A register of a context whose record has been written in cycle n (R115). -/
def Reg.clean (y : Reg) (n : Nat) : Reg := { y with dirty := y.dirty && y.isShort n }
theorem Ctx.clean_reg (x : Ctx) (n r : Nat) : (x.clean n).reg r = (x.reg r).clean n := Fixed.getD_map (fun (y : Reg) => y.clean n) x.x r {}
/-- A context that is clean holds the values that it held. -/
theorem Ctx.clean_val (x : Ctx) (n r : Nat) : ((x.clean n).reg r).val = (x.reg r).val := by
  rw [Ctx.clean_reg]
  rfl

/-- A context as its group is lifted off its tile in cycle n: clean, its input streams with no vector fetched. -/
def Ctx.lifted (x : Ctx) (n : Nat) : Ctx := { x.clean n with str := x.str.map fun (st : Stream) => if st.out then st else { st with ahead := [] } }

/-- The state in which nothing of a quiesced group on tile t is outstanding (R122, R194, R198). -/
def State.settled (s : State) (k g t : Nat) : State := ((s.gatherTile t).releasesDone t).saveCopies k g

theorem State.settled_launches (s : State) (k g t : Nat) : (s.settled k g t).launches = s.launches := State.of_apart (s.gatherTile_apart t) State.launches

theorem exec_migrationSave_lifts {s : State} {p n g : Nat} {l : Launch} {x : GroupSt} (h : s.group? (p * 65536 + n) g = some (l, x)) (hm : x.place = .migrating)
    (h2 : x.phase = 2) (hq : s.quiesced (p * 65536 + n) g x.tile = true) {lines : Option (List Nat)}
    (hs : (s.settled (p * 65536 + n) g x.tile).saveSet (p * 65536 + n) g x.tile x.whole = (lines, [])) :
    exec (.migrationSave p n g) s =
      .next (((s.settled (p * 65536 + n) g x.tile).lift (p * 65536 + n) g x.tile l.r.groups lines).wakeWaiters (p * 65536 + n) x.tile) := by
  unfold State.settled at *
  show execMigrationSave p n g s = _
  unfold execMigrationSave
  simp only [h]
  rw [if_neg (not_not_intro hm), if_pos h2, if_neg (by simp [hq]), hs]
  rfl

@[simp] theorem State.wakeWaiters_core (s : State) (k t : Nat) : (s.wakeWaiters k t).core = s.core := by
  unfold State.wakeWaiters
  refine State.foldl_kept State.core (fun u w => ?_) _ _
  exact u.updCtx_core w.2.2.1 w.2.2.2 (Ctx.wakeFrom_core _ 5 u.cyc)

/-- The group that is lifted off its tile takes with it what was on the tile. -/
theorem State.lift_group {s : State} {k g : Nat} {l : Launch} {x : GroupSt} (h : s.group? k g = some (l, x)) (t n : Nat) (lines : Option (List Nat)) :
    ∃ m y v, (s.lift k g t n lines).group? k g = some (m, y) ∧ y.phase = 3 ∧ y.slab = some v ∧ y.whole = lines.isNone ∧ y.out = s.saveOut k g t n lines ∧
      v.acc = (s.tile t).acc ∧ v.sem = (s.tile t).sem ∧ ∀ c r, ((v.ctx c).reg r).val = ((s.ctx t c).reg r).val ∧ (v.ctx c).pc = (s.ctx t c).pc := by
  refine ⟨_, _, _, (State.group?_congr rfl k g).trans (State.group?_updGroup h _), rfl, rfl, rfl, rfl, rfl, rfl, fun c r => ⟨?_, ?_⟩⟩
  · exact Tile.ctx_of_mapV (s.tile t) (f := fun _ y => y.lifted s.cyc) rfl (fun y => (y.reg r).val) c (Ctx.clean_val _ s.cyc r)
  · exact Tile.ctx_of_mapV (s.tile t) (f := fun _ y => y.lifted s.cyc) rfl Ctx.pc c rfl
theorem State.lift_vacates (s : State) (k g t n : Nat) (lines : Option (List Nat)) : ((s.lift k g t n lines).tile t).grp = none :=
  congrArg Tile.grp (Tbl.getD_put_same _ t _ _)

theorem exec_migrationSave_writes {s s1 : State} {p n g z : Nat} {q : Bool} {l : Launch} {x : GroupSt} (h : s.group? (p * 65536 + n) g = some (l, x))
    (hm : x.place = .migrating) (h3 : x.phase = 3) (hw : s.waitsFor p .save (p * 65536 + n) = false) (hl : l.st ≠ .ending)
    (hs : s.saveFields p l.r.save (x.out.map fun f => if f.1.1 = 0x1018 + g * 0x80000 then ((f.1.1, f.1.2.1, s.CYC), f.2) else f) = .ok s1 z q) :
    exec (.migrationSave p n g) s = .next (s1.updGroup (p * 65536 + n) g fun y =>
      { y with out := [], phase := 4, place := if y.target.isNone then .displaced else y.place }) := by
  show execMigrationSave p n g s = _
  unfold execMigrationSave
  simp only [h]
  rw [if_neg (not_not_intro hm), if_neg (by omega), if_neg (by simp [h3, hw]), if_neg hl, hs]

/-! ## MIGRATION_RESTORE (R119, R122 to R124) -/

/-- A context whose registers are sound is reloaded as it was (R265). -/
theorem Ctx.reload_of_sound {x : Ctx} (h : ∀ r, (x.reg r).poison = false) : x.reload = x := by
  refine List.foldlRecOn (motive := fun y => y = x) (List.range 32) _ rfl fun y hy r _ => ?_
  subst hy
  exact if_neg fun hr => by simp [h] at hr
/-- A context resumes with its x registers, its pc and its latch (R111, R119). -/
theorem Ctx.resume_core (x : Ctx) (n : Nat) (ending : Bool) : (x.resume n ending).core = x.core := by
  unfold Ctx.resume
  dsimp only
  repeat' split
  all_goals rfl

/-- The tile on which the group of slab resumes, where the tile was v. -/
def Tile.resumes (slab v : Tile) (k g cyc junk : Nat) (ending : Bool) : Tile :=
  { slab with
    grp := some ⟨k, g⟩, l1 := v.l1, asids := v.asids, tlb := v.tlb, quiet := false, junk, reasm := slab.reasm.map (·.unpause cyc)
    ctxs := Tbl.mapV (fun _ (y : Ctx) => y.reload.resume cyc ending) slab.ctxs }

theorem Tile.resumes_core {slab : Tile} (h : ∀ c r, ((slab.ctx c).reg r).poison = false) (v : Tile) (k g cyc junk : Nat) (ending : Bool) :
    (slab.resumes v k g cyc junk ending).core = ⟨some ⟨k, g⟩, false, slab.acc, slab.sem, fun c => (slab.ctx c).core⟩ := by
  refine congrArg (TileCore.mk _ _ _ _) (funext fun c => ?_)
  refine Tile.ctx_of_mapV slab (f := fun _ y => y.reload.resume cyc ending) rfl Ctx.core c ?_
  rw [Ctx.resume_core, Ctx.reload_of_sound (h c)]

/-- The state in which the group x of slab lies on tile d, with its scratchpad, its flits, its accesses and the remote reads of it. -/
def State.landed (s : State) (k g d : Nat) (x : GroupSt) (slab : Tile) (ending : Bool) : State :=
  let base := spadPa d 0
  let inside := fun (pa : Nat) => decide (base ≤ pa) && decide (pa < base + 0x80000)
  State.fresh { s with
    tiles := Tbl.put s.tiles d (slab.resumes (s.tile d) k g s.cyc (if x.whole then slab.junk else s.nextId) ending)
    mem := { s.mem with
      cells := x.spad.foldl (fun m c => Mem.putCell m (base + c.1) c.2) (s.mem.cells.filter fun c => !inside c.1)
      poison := x.spadBad.map (· + base / 64) ++ s.mem.poison.filter fun n => !inside (64 * n) }
    flits := s.flits.map fun m => if m.launch = k ∧ m.srcGroup = g then { m with f := { m.f with srcTile := d } } else m
    reqs := s.reqs ++ x.reqs.map fun r => { r with tile := d }
    rreads := s.rreads.map fun r => if r.launch = k ∧ r.group = g ∧ r.tile = x.tile then { r with tile := d } else r }
/-- The copies of a group issued again from tile d (R122). -/
def State.reissued (s : State) (k g d : Nat) : State :=
  let here := fun (c : CopyCmd) => { c with tile := d, die := (s.dieRole d c.role).getD c.die }
  (s.savedCopies.filter fun c => decide (c.key = k) && decide (c.group = g)).foldl
    (fun (u : State) c => { u with queues := Tbl.put u.queues (here c).queue (Tbl.getD u.queues (here c).queue [] ++ [here c]) })
    { s with
      savedCopies := s.savedCopies.filter fun c => !(decide (c.key = k) && decide (c.group = g))
      copyMsgs := s.copyMsgs.map fun c => if c.key = k ∧ c.group = g then here c else c }
/-- The streams of every context of launch k are tried again. -/
def State.wakeStreams (s : State) (k : Nat) : State :=
  s.tiles.foldl (fun (s : State) q => if q.2.grp.map (·.launch) = some k then q.2.ctxs.foldl (fun (s : State) y => s.wakeStream q.1 y.1) s else s) s
/-- What ports hold goes on. -/
def State.releaseTiles (s : State) : State := (s.tiles.map (·.1)).foldl (fun (s : State) u => s.releaseTile u) s
/-- The end of a move of group g of launch k to tile d: its request is over (R118), and what waited for the group goes on. -/
def State.movedTo (s : State) (k g d : Nat) : State :=
  (((if bits (s.pfr 0xA400).toNat 11 0 = g then s.moveEnds k else s).grantUnits d).wakeStreams k).releaseTiles

/-- The state that a restore leaves (R119, R122 to R124). -/
def State.restored (s : State) (k g d : Nat) (x : GroupSt) (slab : Tile) (ending : Bool) : State :=
  (((s.landed k g d x slab ending).updGroup k g fun _ => { tile := d }).reissued k g d).movedTo k g d

theorem exec_migrationRestore_lands {s s1 : State} {p n g d z : Nat} {q : Bool} {l : Launch} {x : GroupSt} {slab : Tile}
    (h : s.group? (p * 65536 + n) g = some (l, x)) (hslab : x.slab = some slab) (hd : x.target = some d) (h4 : x.phase = 4) (hacks : x.acks = []) (hends : x.ends = [])
    (hfree : (s.tile d).grp = none) (hw : s.waitsFor p .save (p * 65536 + n) = false)
    (hs : s.saveFields p (l.r.save + 0x1000 + g * 0x80000) [((6, 1, 2), false)] = .ok s1 z q) :
    exec (.migrationRestore p n g) s = .next (s1.restored (p * 65536 + n) g d x slab (decide (l.st = .ending))) := by
  show execMigrationRestore p n g s = _
  unfold execMigrationRestore
  simp only [h, hslab, hd]
  rw [if_neg (not_not_intro h4), if_neg (by simp [hfree, hw])]
  simp only [hs, hacks, hends, List.foldl_nil, List.isEmpty_nil, if_true]
  rfl

@[simp] theorem State.reissued_core (s : State) (k g d : Nat) : (s.reissued k g d).core = s.core := by
  unfold State.reissued
  refine State.foldl_kept State.core (fun u c => ?_) _ _
  rfl
@[simp] theorem State.wakeStreams_core (s : State) (k : Nat) : (s.wakeStreams k).core = s.core := by
  unfold State.wakeStreams
  refine State.foldl_kept State.core (fun u q => ?_) _ s
  split
  · refine State.foldl_kept State.core (fun w y => ?_) _ u
    exact w.wakeStream_core q.1 y.1
  · rfl
@[simp] theorem State.releaseTiles_core (s : State) : s.releaseTiles.core = s.core := by
  unfold State.releaseTiles
  exact State.foldl_kept State.core (fun u t => u.releaseFrom_core _) _ s
@[simp] theorem State.movedTo_core (s : State) (k g d : Nat) : (s.movedTo k g d).core = s.core := by
  unfold State.movedTo
  rw [State.releaseTiles_core, State.wakeStreams_core, State.grantUnits_core, apply_ite State.core, State.moveEnds_core, ite_self]

theorem State.restored_core (s : State) (k g d : Nat) (x : GroupSt) (slab : Tile) (ending : Bool) :
    (s.restored k g d x slab ending).core = ((s.landed k g d x slab ending).updGroup k g fun _ => { tile := d }).core := by
  unfold State.restored
  rw [State.movedTo_core, State.reissued_core]
/-- The group runs on the tile on which it was restored. -/
theorem State.group?_restored {s : State} {k g : Nat} {l : Launch} {x : GroupSt} (h : s.group? k g = some (l, x)) (d : Nat) (slab : Tile) (ending : Bool) :
    (s.restored k g d x slab ending).group? k g = some (l.putGroup g { tile := d }, { tile := d }) := by
  have landed : (s.landed k g d x slab ending).group? k g = some (l, x) := h
  have launches : (s.restored k g d x slab ending).launches = _ := congrArg Core.launches (s.restored_core k g d x slab ending)
  exact (State.group?_congr launches k g).trans (State.group?_updGroup landed _)
/-- Its tile holds what its save took off its old one. -/
theorem State.restored_tile {slab : Tile} (hsound : ∀ c r, ((slab.ctx c).reg r).poison = false) (s : State) (k g d : Nat) (x : GroupSt) (ending : Bool) :
    ((s.restored k g d x slab ending).tile d).core = ⟨some ⟨k, g⟩, false, slab.acc, slab.sem, fun c => (slab.ctx c).core⟩ := by
  have core : ((s.restored k g d x slab ending).tile d).core = _ := congrFun (congrArg Core.tile (s.restored_core k g d x slab ending)) d
  have there : (s.landed k g d x slab ending).tile d = slab.resumes (s.tile d) k g s.cyc (if x.whole then slab.junk else s.nextId) ending :=
    Tbl.getD_put_same s.tiles d _ _
  rw [core]
  show (State.tile _ d).core = _
  rw [State.updGroup_tile, there, Tile.resumes_core hsound]

/-! ## O48 -/

/-- Settles O48: requests and the ends of waits change the group that they name; a quiesced tile's group is lifted off it as it stands (`State.lift_group`), its
fields are written (`State.saveFields_launches`), and what goes on when it has landed leaves the registers, pcs and latches of its contexts, its accumulators and its
semaphores (`State.movedTo_core`). -/
theorem groupsMigrate : Obligations.GroupsMigrate := by
  unfold Obligations.GroupsMigrate
  intro s p n g l x h
  refine ⟨fun v ts hgo hz hp hn hz' hg hbusy hfeat hlive hrun _ hts => ?request, fun hm h1 hf hc => exec_ckptLimitExpire_ends h hm h1 hf hc, fun hm h1 hw => ?quiesce,
    fun lines hm h2 hq hs => ?lifted, fun s1 z q hm h3 hw hl hs => ?written, fun v d z q s1 hslab hd h4 hacks hends hsound hfree hw hs => ?restored,
    fun d hd ht hl hw hr => exec_displacedGroupResume_chooses h hd ht hl hw hr⟩
  case request =>
    obtain ⟨m, hm, hstat⟩ := groupMigrateRequest_moves (v := v) h ts.head?
    exact ⟨_, m, _, exec_groupMigrateRequest_moves (asksMove_of_fields hgo hz hp hn hz' hg) hbusy hfeat hlive hrun h hts, hm, hstat, rfl⟩
  case quiesce =>
    obtain ⟨launches, quiet, waits⟩ := s.quiesceTile_stops x.tile
    have found : ((s.quiesceTile x.tile).saveCopies (p * 65536 + n) g).group? (p * 65536 + n) g = some (l, x) := by
      rw [State.group?_congr (State.saveCopies_launches _ _ g), State.group?_congr launches, h]
    refine ⟨_, _, _, exec_migrationQuiesce_stops h hm h1 hw, ?_, State.group?_updGroup found _, rfl, rfl, fun w hmem => waits w ?_⟩
    · rw [State.updGroup_tile, State.saveCopies_tile, quiet]
    · rwa [State.updGroup_barWait, State.saveCopies_barWait] at hmem
  case lifted =>
    have found : (s.settled (p * 65536 + n) g x.tile).group? (p * 65536 + n) g = some (l, x) := (State.group?_congr (s.settled_launches _ g _) _ g).trans h
    obtain ⟨m, y, v, hy, rest⟩ := State.lift_group found x.tile l.r.groups lines
    have core := ((s.settled (p * 65536 + n) g x.tile).lift (p * 65536 + n) g x.tile l.r.groups lines).wakeWaiters_core (p * 65536 + n) x.tile
    refine ⟨_, m, y, v, exec_migrationSave_lifts h hm h2 hq hs, ?_, (State.group?_congr (congrArg Core.launches core) _ g).trans hy, rest⟩
    exact (congrArg TileCore.grp (congrFun (congrArg Core.tile core) x.tile)).trans (State.lift_vacates _ _ g _ _ lines)
  case written =>
    have found : s1.group? (p * 65536 + n) g = some (l, x) := (State.group?_congr (State.saveFields_launches hs) _ g).trans h
    exact ⟨_, _, _, exec_migrationSave_writes h hm h3 hw hl hs, State.group?_updGroup found _, State.updGroup_mem s1 _ g _, by rw [hm]⟩
  case restored =>
    have found : s1.group? (p * 65536 + n) g = some (l, x) := (State.group?_congr (State.saveFields_launches hs) _ g).trans h
    have core := State.restored_tile hsound s1 (p * 65536 + n) g d x (decide (l.st = .ending))
    have ctxs := fun c => congrFun (congrArg TileCore.ctx core) c
    exact ⟨_, _, _, exec_migrationRestore_lands h hslab hd h4 hacks hends hfree hw hs, congrArg TileCore.grp core, congrArg TileCore.quiet core,
      congrArg TileCore.acc core, congrArg TileCore.sem core, fun c => ⟨congrArg CtxCore.x (ctxs c), congrArg CtxCore.pc (ctxs c), congrArg CtxCore.latch (ctxs c)⟩,
      State.group?_restored found d v _, rfl, rfl⟩

end Sys2Proof.Machine
end
